-- ==== Sys2Proof/Word.lean ====
section
/-! DEFINITION. The plain words of the block: bytes, 32-bit register words, 64-bit values, 64-byte lines
and 57-bit global addresses (spec/00_scope.md R6, spec/02_register_pages.md R60). -/
namespace Sys2Proof

/-- A byte. -/
abbrev Byte := BitVec 8
/-- A 32-bit register or in-memory word. -/
abbrev Word := BitVec 32
/-- A 64-bit value. -/
abbrev Dword := BitVec 64
/-- One 64-byte line; byte i is bits 8i+7 to 8i (R6, little-endian). -/
abbrev Line := BitVec 512
/-- A 57-bit global byte address (R60). -/
abbrev Addr := BitVec 57

/-- A completion report as an engine presents it: its port and its four words (spec/11 R382). -/
structure Report where
  port : BitVec 7
  w0 : Dword
  w1 : Dword
  w2 : Dword
  w3 : Dword
deriving DecidableEq, Repr

/-- Where an SRAM error lies, for the units whose chapters state what follows from one (spec/06 R230, spec/07 R274, spec/10
R361, spec/11 R400, spec/12 R426, spec/15 R481); `other` is a store of the unit on the named page. -/
inductive SramSite where
  | imem (core : BitVec 4) (bank : BitVec 1) (line : BitVec 9)
  | dmem (core : BitVec 4) (thread : BitVec 3)
  | syncValue (so : BitVec 14)
  | syncWaiter (so : BitVec 14) (index : BitVec 15)
  | syncPoll (index : BitVec 9)
  | syncWatch (index : BitVec 8)
  | syncMirror (index : BitVec 10)
  | shoal (p : BitVec 4)
  | scale (entry : BitVec 14)
  | landQueue (index : BitVec 10)
  | landCache (func : BitVec 12)
  | fpm (copyB : Bool) (func : BitVec 12)
  | pmap (copyB : Bool) (p : BitVec 4)
  | other (page : BitVec 8)
deriving DecidableEq, Repr

/-- What the boot ROM reads from Keeper's image store (spec/19 R563): the two record copies and the two slots. -/
structure KeeperStore where
  rec0 : Line
  rec1 : Line
  slotA : List Line
  slotB : List Line
deriving DecidableEq, Repr

end Sys2Proof
end

