-- ==== Sys2Proof/Syntax.lean ====
section
/-! DEFINITION. The commands of the block: one constructor per row of spec/opcode_table.json, with the row's operands. A memory
answer carries the tag (`mtag`), the generation tag (`gen`), the error flag and the lines it brings (spec/20 R584, R605); `fab` says
that it comes from the FAP. An RDP command carries the origin tag of its access (`tag`, R33). -/
namespace Sys2Proof

/-- A command (log entry 2). -/
inductive Instr where
  /-- REGISTER_WRITE (R41): Admitted write to a register that has no behaviour of its own; fields are updated by access type. -/
  | registerWrite (tag : BitVec 13) (addr : BitVec 26) (strb : BitVec 8) (data : BitVec 64)
  /-- IF_NEGOTIATE (R53): Write of GLBL.IF_NEGOTIATE updates IF_VERSION or sets NEG_BUSY. -/
  | ifNegotiate (tag : BitVec 13) (major minor : BitVec 8)
  /-- SOFT_RESET (R44): Write of PG_CTRL.SRST starts a unit soft reset, or a partition reset on a PART page. -/
  | softReset (tag : BitVec 13) (page : BitVec 8)
  /-- SRST_COMPLETE (R44): A unit soft reset completes and SRST and SRST_BUSY clear. -/
  | srstComplete (page : BitVec 8)
  /-- UNIT_ENABLE (R632): Write of PG_CTRL.EN on a unit page enables or disables the unit. -/
  | unitEnable (tag : BitVec 13) (page : BitVec 8) (en : BitVec 1)
  /-- PART_ENABLE (R66): Write of PART PG_CTRL.EN 1 enables the partition if its configuration is valid. -/
  | partEnable (tag : BitVec 13) (p : BitVec 4)
  /-- PART_DISABLE (R66): Write of PART PG_CTRL.EN 0 disables the partition if none of its streams is enabled. -/
  | partDisable (tag : BitVec 13) (p : BitVec 4)
  /-- FUNC_RANGE_WRITE (R67): Write of PART.FUNC_RANGE rewrites both copies of the function-to-partition map. -/
  | funcRangeWrite (tag : BitVec 13) (p : BitVec 4) (base : BitVec 12) (count : BitVec 13)
  /-- HARB_QUOTA_WRITE (R65): Write of PART.HARB_QUOTA.MIN, refused if the minima would exceed 64. -/
  | harbQuotaWrite (tag : BitVec 13) (p : BitVec 4) (min : BitVec 7)
  /-- INTEG_DECLARE (R57): Write of an INTEG declaration register, checked against LOCK and range. -/
  | integDeclare (tag : BitVec 13) (reg : BitVec 3) (value : BitVec 32)
  /-- INTEG_LOCK (R56): Write of INTEG.CTRL.LOCK freezes the INTEG declarations until cold reset. -/
  | integLock (tag : BitVec 13)
  /-- CREATE (R78): PART.CTX_CMD CREATE initialises a context record. -/
  | create (tag : BitVec 13) (p : BitVec 4) (ctx : BitVec 16)
  /-- DESTROY (R85): PART.CTX_CMD DESTROY loses and stops the context and then invalidates its record. -/
  | destroy (tag : BitVec 13) (p : BitVec 4) (ctx : BitVec 16)
  /-- FLUSH (R78): PART.CTX_CMD FLUSH writes back the context lines, optionally recomputing BOUND_BYTES. -/
  | flush (tag : BitVec 13) (p : BitVec 4) (ctx : BitVec 16) (bound : Bool)
  /-- HANDLE_INVAL (R78): PART.CTX_CMD HANDLE_INVAL drops cached handles and increments HT_GEN. -/
  | handleInval (tag : BitVec 13) (p : BitVec 4) (ctx : BitVec 16)
  /-- CTX_CMD_DONE (R78): A context command finishes its memory accesses, clears BUSY and optionally ADDs to its sync object. -/
  | ctxCmdDone (p : BitVec 4) (write : Bool) (mtag : BitVec 8) (gen : BitVec 4) (err : Bool) (lines : List Line)
  /-- DOORBELL (R125): Doorbell write records the producer hint and makes the stream ready or merges. -/
  | doorbell (tag : BitVec 13) (func : BitVec 12) (cls : BitVec 2) (strb : BitVec 8) (data : BitVec 64)
  /-- PAUSE (R142): DB.CTRL PAUSE written 1 stops new fetches of the stream. -/
  | pause (tag : BitVec 13) (func : BitVec 12) (cls : BitVec 2)
  /-- RESUME_STREAM (R142): DB.CTRL PAUSE written 0 resumes the stream, queueing it if a doorbell is pending. -/
  | resumeStream (tag : BitVec 13) (func : BitVec 12) (cls : BitVec 2)
  /-- INVAL (R134): DB.CTRL INVAL drops the stream's cached unreleased units and prefetched buffers. -/
  | inval (tag : BitVec 13) (func : BitVec 12) (cls : BitVec 2) (keep : Bool)
  /-- STREAM_ENABLE (R139): FETCH.STREAM_CTRL EN 1 enables a disabled stream and loads CONS, phase and hint. -/
  | streamEnable (tag : BitVec 13)
  /-- STREAM_DISABLE (R142): FETCH.STREAM_CTRL EN 0 moves the stream to DRAINING. -/
  | streamDisable (tag : BitVec 13)
  /-- CHANNEL_TAKE_STREAM (R135): A free fetch channel takes a ready stream from the class queues and reads its header. -/
  | channelTakeStream (ch : BitVec 4)
  /-- PREFETCH (R128): Swisto prefetches ring units and one command buffer ahead within the hint limit. -/
  | prefetch (stream : BitVec 14)
  /-- RING_READ_RETURN (R117): Ring units return from MMP; the header is checked and the entry released, reread or faulted. -/
  | ringReadReturn (mtag : BitVec 8) (gen : BitVec 4) (err : Bool) (lines : List Line)
  /-- RELEASE_WRITE_ACK (R123): MMP acknowledges a release write, allowing the entry's record; an error faults the stream. -/
  | releaseWriteAck (mtag : BitVec 8) (gen : BitVec 4) (err : Bool)
  /-- FERRY_INPUT_READY (R179): All input lines, a Harbour slot and store room are present, making the launch ready for the Ferry. -/
  | ferryInputReady (stream : BitVec 14) (mtag : BitVec 8) (gen : BitVec 4) (err : Bool) (lines : List Line)
  /-- FERRY_SLICE (R183): The Ferry grants a slice to the next channel and emits expanded lines with relocations. -/
  | ferrySlice
  /-- HARBOUR_RECORD_ARRIVES (R89): A loaded context record arrives; relocation starts or the launch completes CTX_LOST or CB_FAULT. -/
  | harbourRecordArrives (mtag : BitVec 8) (gen : BitVec 4) (err : Bool) (lines : List Line)
  /-- HARBOUR_QUEUE_SERVE (R91): A slot becoming idle or free serves the first eligible request of the Harbour queue. -/
  | harbourQueueServe
  /-- HANDLE_ENTRY_RETURN (R98): A handle-cache miss read returns and the entry re-enters the Ferry. -/
  | handleEntryReturn (mtag : BitVec 8) (gen : BitVec 4) (err : Bool) (lines : List Line)
  /-- PARK_WRITE_ACK (R187): MMP acknowledges the park-slot write of a parked expansion, freeing store lines. -/
  | parkWriteAck (mtag : BitVec 8) (gen : BitVec 4) (err : Bool)
  /-- PARK_READBACK_RETURN (R187): The park read-back of a released launch returns and it proceeds to stage 7. -/
  | parkReadbackReturn (mtag : BitVec 8) (gen : BitVec 4) (err : Bool) (lines : List Line)
  /-- SIGNAL_ENTRY_APPLY (R112): A pending SIGNAL entry applies its pairs once earlier launches have written their records. -/
  | signalEntryApply (stream : BitVec 14)
  /-- BARRIER_PASS (R112): A BARRIER passes once every earlier entry of the stream has completed. -/
  | barrierPass (stream : BitVec 14)
  /-- STREAM_TIMEOUT (R145): A stream progress timer expires, losing the oldest running launch's context. -/
  | streamTimeout (stream : BitVec 14)
  /-- MODEL_SWITCH (R70): A MODEL_SWITCH reaching stage 8 moves its partition to DRAINING. -/
  | modelSwitch (stream : BitVec 14)
  /-- MODEL_SWITCH_DRAINED (R70): The draining partition has no running launch and every record written, so it enters SWITCHING. -/
  | modelSwitchDrained (p : BitVec 4)
  /-- MODEL_SWITCH_COMPLETE (R70): SWITCHING writes the new model, completes the entry and returns to SERVING. -/
  | modelSwitchComplete (p : BitVec 4)
  /-- SO_SIGNAL (R269): RDP write to a sync object's VALUE offers a SIGNAL update. -/
  | soSignal (tag : BitVec 13) (so : BitVec 14) (strb : BitVec 8) (data : BitVec 64)
  /-- SO_ADD (R269): RDP write to a sync object's ADD offers an ADD update. -/
  | soAdd (tag : BitVec 13) (so : BitVec 14) (strb : BitVec 8) (data : BitVec 64)
  /-- SO_FORCE (R270): Privileged FORCE write sets the value when no waiter, pass, poll or watch refers to it. -/
  | soForce (tag : BitVec 13) (so : BitVec 14) (strb : BitVec 8) (data : BitVec 64)
  /-- SYNC_BANK_APPLY (R244): A sync bank takes one offered update in rotation and applies it, flagging a pass if needed. -/
  | syncBankApply (bank : BitVec 1)
  /-- WAKE_PASS (R252): The wake engine runs a pass over a flagged object's list, releasing satisfied waiters. -/
  | wakePass
  /-- FENCE_READ_RETURN (R259): The first read of a fence word returns; the pair holds or a poll entry or watch is made. -/
  | fenceReadReturn (fab : Bool) (mtag : BitVec 8) (gen : BitVec 4) (err : Bool) (line : BitVec 512)
  /-- POLL_INTERVAL (R260): A poll interval ends and each poll line is read and evaluated. `order` says in which order the reads go
  out, which no rule fixes. -/
  | pollInterval (order : List (BitVec 57))
  /-- WATCH_NOTIFY (R264): A FAP notification releases the stream of a watch, or is counted stale. -/
  | watchNotify (watch : BitVec 8) (gen : BitVec 4) (value : BitVec 64)
  /-- MIRROR_RETRY (R267): A failed mirror write is retried with the latest value each poll interval. -/
  | mirrorRetry
  /-- FETCH_ADD (R268): SYNC.ATOM_CMD FETCH_ADD on a global word. -/
  | fetchAdd (tag : BitVec 13)
  /-- ATOM_MAX (R268): SYNC.ATOM_CMD MAX on a global word. -/
  | atomMax (tag : BitVec 13)
  /-- COMPARE_SWAP (R268): SYNC.ATOM_CMD COMPARE_SWAP on a global word. -/
  | compareSwap (tag : BitVec 13)
  /-- ATOM_RESULT (R268): A software atomic returns its old value into SYNC.ATOM_RESULT and BUSY clears. -/
  | atomResult (fab : Bool) (mtag : BitVec 8) (gen : BitVec 4) (err : Bool) (old : BitVec 64)
  /-- MIRROR_ENABLE (R276): Write of SYNC.CTRL.MIRROR_EN 1 writes every mirrored value once. -/
  | mirrorEnable (tag : BitVec 13)
  /-- MIRROR_ENTRY_ENABLE (R277): Write of SYNC.MIRROR_OBJ.EN activates or stops a mirror entry. -/
  | mirrorEntryEnable (tag : BitVec 13) (en : Bool) (so : BitVec 20)
  /-- REGISTER (R164): FERRY.TMPL_CMD REGISTER reads, validates and registers a template image. -/
  | register (tag : BitVec 13) (id : BitVec 12) (pin : Bool)
  /-- REPLACE (R164): FERRY.TMPL_CMD REPLACE installs a new image generation. -/
  | replace (tag : BitVec 13) (id : BitVec 12) (pin : Bool)
  /-- RETIRE (R164): FERRY.TMPL_CMD RETIRE invalidates a template. -/
  | retire (tag : BitVec 13) (id : BitVec 12)
  /-- SET_PIN (R164): FERRY.TMPL_CMD SET_PIN loads or releases a pinned copy. -/
  | setPin (tag : BitVec 13) (id : BitVec 12) (pin : Bool)
  /-- TMPL_CMD_DONE (R164): A template command ends once its writes are acknowledged and pinned launches have gone. -/
  | tmplCmdDone (p : BitVec 4) (write : Bool) (mtag : BitVec 8) (gen : BitVec 4) (err : Bool) (lines : List Line)
  /-- LAUNCH_PLACE (R200): At stage 8 a launch is placed on a core, started, or made to wait or fault. -/
  | launchPlace (stream : BitVec 14)
  /-- IMEM_LOAD_DONE (R232): A program load completes and the standby bank becomes active at a launch boundary. -/
  | imemLoadDone (core : BitVec 4) (mtag : BitVec 8) (gen : BitVec 4) (err : Bool) (lines : List Line)
  /-- ADD (R215): ALU ADD. -/
  | add (core : BitVec 4) (thread : BitVec 3)
  /-- SUB (R215): ALU SUB. -/
  | sub (core : BitVec 4) (thread : BitVec 3)
  /-- AND (R215): ALU AND. -/
  | and (core : BitVec 4) (thread : BitVec 3)
  /-- OR (R215): ALU OR. -/
  | or (core : BitVec 4) (thread : BitVec 3)
  /-- XOR (R215): ALU XOR. -/
  | xor (core : BitVec 4) (thread : BitVec 3)
  /-- SLL (R215): ALU shift left logical. -/
  | sll (core : BitVec 4) (thread : BitVec 3)
  /-- SRL (R215): ALU shift right logical. -/
  | srl (core : BitVec 4) (thread : BitVec 3)
  /-- SRA (R215): ALU shift right arithmetic. -/
  | sra (core : BitVec 4) (thread : BitVec 3)
  /-- MUL (R215): ALU low product. -/
  | mul (core : BitVec 4) (thread : BitVec 3)
  /-- MULHU (R215): ALU high unsigned product. -/
  | mulhu (core : BitVec 4) (thread : BitVec 3)
  /-- SLT (R215): ALU signed set-less-than. -/
  | slt (core : BitVec 4) (thread : BitVec 3)
  /-- SLTU (R215): ALU unsigned set-less-than. -/
  | sltu (core : BitVec 4) (thread : BitVec 3)
  /-- MIN (R215): ALU signed minimum. -/
  | min (core : BitVec 4) (thread : BitVec 3)
  /-- MAX (R215): ALU signed maximum. -/
  | max (core : BitVec 4) (thread : BitVec 3)
  /-- MINU (R215): ALU unsigned minimum. -/
  | minu (core : BitVec 4) (thread : BitVec 3)
  /-- MAXU (R215): ALU unsigned maximum. -/
  | maxu (core : BitVec 4) (thread : BitVec 3)
  /-- ADDI (R214): Add sign-extended immediate. -/
  | addi (core : BitVec 4) (thread : BitVec 3)
  /-- ANDI (R214): And zero-extended immediate. -/
  | andi (core : BitVec 4) (thread : BitVec 3)
  /-- ORI (R214): Or zero-extended immediate. -/
  | ori (core : BitVec 4) (thread : BitVec 3)
  /-- XORI (R214): Xor zero-extended immediate. -/
  | xori (core : BitVec 4) (thread : BitVec 3)
  /-- SLLI (R214): SHI code 0, shift left logical by immediate. -/
  | slli (core : BitVec 4) (thread : BitVec 3)
  /-- SRLI (R214): SHI code 1, shift right logical by immediate. -/
  | srli (core : BitVec 4) (thread : BitVec 3)
  /-- SRAI (R214): SHI code 2, shift right arithmetic by immediate. -/
  | srai (core : BitVec 4) (thread : BitVec 3)
  /-- LUI (R214): Load upper immediate. -/
  | lui (core : BitVec 4) (thread : BitVec 3)
  /-- SLTI (R214): Set if less than immediate, signed. -/
  | slti (core : BitVec 4) (thread : BitVec 3)
  /-- LD (R214): Load 64 bits from the view. -/
  | ld (core : BitVec 4) (thread : BitVec 3)
  /-- LW (R214): Load 32 bits zero-extended from the view. -/
  | lw (core : BitVec 4) (thread : BitVec 3)
  /-- SD (R214): Store 64 bits to the view. -/
  | sd (core : BitVec 4) (thread : BitVec 3)
  /-- SW (R214): Store 32 bits to the view. -/
  | sw (core : BitVec 4) (thread : BitVec 3)
  /-- RDP (R214): Read a parameter slot. -/
  | rdp (core : BitVec 4) (thread : BitVec 3)
  /-- WRP (R214): Write a parameter slot. -/
  | wrp (core : BitVec 4) (thread : BitVec 3)
  /-- BEQ (R214): Branch if equal. -/
  | beq (core : BitVec 4) (thread : BitVec 3)
  /-- BNE (R214): Branch if not equal. -/
  | bne (core : BitVec 4) (thread : BitVec 3)
  /-- BLT (R214): Branch if less, signed. -/
  | blt (core : BitVec 4) (thread : BitVec 3)
  /-- BGE (R214): Branch if greater or equal, signed. -/
  | bge (core : BitVec 4) (thread : BitVec 3)
  /-- BLTU (R214): Branch if less, unsigned. -/
  | bltu (core : BitVec 4) (thread : BitVec 3)
  /-- BGEU (R214): Branch if greater or equal, unsigned. -/
  | bgeu (core : BitVec 4) (thread : BitVec 3)
  /-- JAL (R214): Jump and link into x31. -/
  | jal (core : BitVec 4) (thread : BitVec 3)
  /-- JALR (R214): Jump to register and link. -/
  | jalr (core : BitVec 4) (thread : BitVec 3)
  /-- CSRR (R211): Read a special register. -/
  | csrr (core : BitVec 4) (thread : BitVec 3)
  /-- ISSUE (R217): Offer an operation to dispatch. -/
  | issue (core : BitVec 4) (thread : BitVec 3)
  /-- ISSUEW (R218): Issue an operation as a waiter on a sync object. -/
  | issuew (core : BitVec 4) (thread : BitVec 3)
  /-- QDEPTH (R219): Return queue figures of an operation's port. -/
  | qdepth (core : BitVec 4) (thread : BitVec 3)
  /-- WAITN (R224): Start or continue a wait for COMPLETED or a cycle limit. -/
  | waitn (core : BitVec 4) (thread : BitVec 3)
  /-- WAITN_DONE (R224): A waiting WAITN is satisfied or times out and the thread resumes. -/
  | waitnDone (core : BitVec 4) (thread : BitVec 3)
  /-- PATCHV (R222): Patch a run of operation BODY words, one step per grant. -/
  | patchv (core : BitVec 4) (thread : BitVec 3)
  /-- COPYC (R223): Copy within the view, up to 64 bytes per step. -/
  | copyc (core : BitVec 4) (thread : BitVec 3)
  /-- END (R221): End the program and free the thread. -/
  | endProg (core : BitVec 4) (thread : BitVec 3)
  /-- RESUME (R239): SKRY.THR_CTRL RESUME returns a thread from BREAK. -/
  | resume (tag : BitVec 13) (core : BitVec 4)
  /-- STEP (R239): SKRY.THR_CTRL STEP executes one whole instruction in BREAK. -/
  | stepThread (tag : BitVec 13) (core : BitVec 4)
  /-- HALT (R239): SKRY.THR_CTRL HALT puts a thread in BREAK. -/
  | halt (tag : BitVec 13) (core : BitVec 4)
  /-- IMEM_LOAD (R235): SKRY.IMEM_CMD LOAD loads a program into the core's standby bank. -/
  | imemLoad (tag : BitVec 13) (core : BitVec 4) (lock : Bool) (part : BitVec 6)
  /-- IMEM_INVAL (R236): SKRY.IMEM_CMD INVAL clears directory entries of overlapping programs. -/
  | imemInval (tag : BitVec 13) (core : BitVec 4) (all : Bool) (part : BitVec 6)
  /-- ADMISSION (R315): Each CCLK a group admits up to four candidates into its queue. -/
  | admission (group : BitVec 3)
  /-- GRANT (R320): Each CCLK a group arbiter grants one queued flit. -/
  | grant (group : BitVec 3)
  /-- COMMAND_TRANSFER (R367): A granted command with its header crosses the engine command port. -/
  | commandTransfer (port : BitVec 7)
  /-- REPORT_ACCEPT (R403): A collector accepts one report from its group's ports. -/
  | reportAccept (group : BitVec 3) (shown : List Report)
  /-- REPORT_MERGE (R403): The merge takes reports, completing operations, returning credits and updating scale entries. -/
  | reportMerge
  /-- SCAL_INIT (R399): Write of SCAL.INIT resets a scale entry to the written scale. -/
  | scalInit (tag : BitVec 13) (scale : BitVec 12)
  /-- SCAL_CFG (R399): Write of SCAL.CFG changes K and FORMAT from the next step end. -/
  | scalCfg (tag : BitVec 13) (k : BitVec 3) (format : BitVec 6)
  /-- LAUNCH_COMPLETE (R405): A launch reaches t_done and enters Landing's completion queue. -/
  | launchComplete (stream : BitVec 14) (seq : BitVec 64)
  /-- FEV_READ_RETURN (R410): A function event entry read returns into Landing's cache. -/
  | fevReadReturn (mtag : BitVec 8) (gen : BitVec 4) (err : Bool) (lines : List Line)
  /-- AUDIT_DIGEST_DONE (R423): The hash engine finishes an audit record digest and the audit record is written. -/
  | auditDigestDone
  /-- AUDIT_WRITE_ACK (R406): The audit record write is acknowledged and Landing moves to the completion record. -/
  | auditWriteAck (mtag : BitVec 8) (gen : BitVec 4) (err : Bool)
  /-- RECORD_WRITE_ACK (R406): The completion record write is acknowledged; the fence is issued and signals offered. -/
  | recordWriteAck (mtag : BitVec 8) (gen : BitVec 4) (err : Bool)
  /-- FENCE_WRITE_ACK (R417): The fence atomic returns, waking poll entries, and the event becomes pending. -/
  | fenceWriteAck (fab : Bool) (mtag : BitVec 8) (gen : BitVec 4) (err : Bool) (old : BitVec 64)
  /-- MSG_HOLDOFF_TICK (R421): A 64 ns tick lets a vector whose hold-off has passed issue its message. -/
  | msgHoldoffTick
  /-- REFRESH (R409): AUDT.FEV_CMD REFRESH rereads a function's event entry. -/
  | refresh (tag : BitVec 13) (func : BitVec 12)
  /-- FEV_FLUSH (R428): AUDT.FEV_CMD FLUSH writes back a function's Swisto line. -/
  | fevFlush (tag : BitVec 13) (func : BitVec 12)
  /-- FLUSH_ALL (R428): AUDT.FEV_CMD FLUSH_ALL writes back every cached function line. -/
  | flushAll (tag : BitVec 13)
  /-- SOURCE_ASSERT (R432): A Beacon source's condition changes and its state moves. -/
  | sourceAssert (source : BitVec 9) (level : Bool)
  /-- CLAIM (R434): Read of BCON.CLAIM returns and claims the lowest presented source, or 0x3FF. -/
  | claim (tag : BitVec 13) (target : BitVec 3)
  /-- COMPLETE (R436): Write of BCON.COMPLETE completes a claimed source and starts hold-off. -/
  | complete (tag : BitVec 13) (target : BitVec 3) (source : BitVec 10)
  /-- HOLDOFF_EXPIRE (R437): A group's hold-off timer expires and its sources may be presented. -/
  | holdoffExpire (group : BitVec 5)
  /-- SW_SET (R443): Write of BCON.SW sets software sources. -/
  | swSet (tag : BitVec 13) (word : BitVec 3) (bits : BitVec 32)
  /-- SW_CLEAR (R443): Write of BCON.SW_CLR clears software sources. -/
  | swClear (tag : BitVec 13) (word : BitVec 3) (bits : BitVec 32)
  /-- ARM (R453): AUDT.REPRO_CMD ARM waits for idle and resets state for a Tide-lock run. -/
  | arm (tag : BitVec 13)
  /-- ARM_DONE (R453): The block is idle and ARM's reset completes, reading ARMED. -/
  | armDone
  /-- GO (R454): AUDT.REPRO_CMD GO schedules the run start. -/
  | go (tag : BitVec 13)
  /-- RUN_START (R454): At the chosen ACLK edge PAUSE clears on the run's streams and T0 is recorded. -/
  | runStart
  /-- DISARM (R452): AUDT.REPRO_CMD DISARM returns to FREE. -/
  | disarm (tag : BitVec 13)
  /-- REG_PROG (R461): AUDT.DIG_CMD REG_PROG hashes and registers a program digest. -/
  | regProg (tag : BitVec 13) (part : BitVec 6)
  /-- REG_MODEL (R461): AUDT.DIG_CMD REG_MODEL hashes and registers a model digest. -/
  | regModel (tag : BitVec 13) (part : BitVec 6)
  /-- UNREG_PROG (R461): AUDT.DIG_CMD UNREG_PROG invalidates a program entry. -/
  | unregProg (tag : BitVec 13) (part : BitVec 6)
  /-- UNREG_MODEL (R461): AUDT.DIG_CMD UNREG_MODEL invalidates the model line. -/
  | unregModel (tag : BitVec 13) (part : BitVec 6)
  /-- DIG_CMD_DONE (R461): A registration command ends after its write and may ADD to its object. -/
  | digCmdDone (write : Bool) (mtag : BitVec 8) (gen : BitVec 4) (err : Bool) (lines : List Line)
  /-- LOOKUP_ADMIT (R341): A lookup launch at stage 7 is checked and joins or opens a window. -/
  | lookupAdmit (stream : BitVec 14)
  /-- INDEX_LIST_RETURN (R338): The index-list lines return into Shoal's index store. -/
  | indexListReturn (mtag : BitVec 8) (gen : BitVec 4) (err : Bool) (lines : List Line)
  /-- INDEX_INSERT (R344): The intake pipe inserts indices into Lagoon, deduplicating or passing through. -/
  | indexInsert
  /-- WINDOW_TIMER (R346): Device time reaches t_close and the window closes by timer. -/
  | windowTimer (p : BitVec 4)
  /-- WINDOW_SEAL (R350): The seal pipe sorts entries, makes gather commands and writes scatter maps. -/
  | windowSeal
  /-- MAP_WRITE_ACK (R357): A launch's map writes are acknowledged after gathers report, releasing it to stage 8. -/
  | mapWriteAck (mtag : BitVec 8) (gen : BitVec 4) (err : Bool)
  /-- RELOAD (R340): SHOL.TBL_CMD RELOAD closes the window, waits for gathers and reloads the table directory. -/
  | reload (tag : BitVec 13) (part : BitVec 6)
  /-- RELOAD_DONE (R340): The table directory read completes and RELOAD ends. -/
  | reloadDone (mtag : BitVec 8) (gen : BitVec 4) (err : Bool) (lines : List Line)
  /-- EPOCH_ADVANCE (R298): An EPOCH_ADVANCE reaches its start point and sets ADV_PENDING. -/
  | epochAdvance (stream : BitVec 14)
  /-- EPOCH_COMMIT (R299): At a launch boundary meeting the conditions the pending advance commits. -/
  | epochCommit (p : BitVec 4)
  /-- REEF_TAKE_EVENT (R472): Reef takes one waiting event per CCLK into history, counters and fault state. -/
  | reefTakeEvent
  /-- QUIET_TIMER_EXPIRE (R474): The quiet timer expires and Reef returns to CLEAR. -/
  | quietTimerExpire
  /-- PAGE_FAULT_TIMER_EXPIRE (R477): A page's per-page quiet timer expires and PG_STAT.FAULT clears. -/
  | pageFaultTimerExpire (page : BitVec 8)
  /-- INJECT (R492): REEF.INJECT reports an injected event of the written severity. -/
  | inject (tag : BitVec 13) (sev : BitVec 3)
  /-- SCRUB_PASS (R482): At each 1 ms the scrubber compares and repairs the duplicated maps. -/
  | scrubPass
  /-- SRAM_SBE (R470): A single-bit SRAM error is corrected and reported S0. -/
  | sramSbe (site : SramSite)
  /-- SRAM_DBE (R470): A double-bit SRAM error takes the action its unit states. -/
  | sramDbe (site : SramSite)
  /-- HEARTBEAT (R485): Write of LHSE.HEARTBEAT arms or resumes ALIVE. -/
  | heartbeat (tag : BitVec 13) (value : BitVec 32)
  /-- HEARTBEAT_LOST (R485): The heartbeat timeout expires, setting HB_LOST and stopping ALIVE. -/
  | heartbeatLost
  /-- HALT_CHANGE (R487): A synchronised HALT channel changes and the halt mode is set. -/
  | haltChange (a b : Bool)
  /-- HALT_DISC (R488): The discrepancy counter reaches its limit and an S5 is reported. -/
  | haltDisc
  /-- ENGINE_HANG (R494): An unreported command outlives ENGINE_TIMEOUT and the port is not responding. -/
  | engineHang (port : BitVec 7)
  /-- STALL (R496): A partition with a live launch makes no progress for STALL_TIME. -/
  | stall (p : BitVec 4)
  /-- PARTITION (R498): A partition reset starts and stops the partition's work. -/
  | partition (p : BitVec 4)
  /-- PART_RESET_DRAINED (R498): Every command on the partition's ports has reported or the drain limit passes. -/
  | partResetDrained (p : BitVec 4)
  /-- PART_RESET_PORTS_DONE (R498): Engine resets of the partition's ports complete or time out. -/
  | partResetPortsDone (p : BitVec 4)
  /-- PART_RESET_DONE (R498): The clean step ends, context commands end and the partition state returns. -/
  | partResetDone (p : BitVec 4)
  /-- BLOCK (R503): A block compute reset starts and stops every partition. -/
  | block
  /-- KEEPER_GRACE_EXPIRE (R504): KEEPER_GRACE passes without Keeper writing BLOCK, letting the reset continue. -/
  | keeperGraceExpire
  /-- BLOCK_RESET_DRAINED (R503): Every port's commands have reported or the drain limit passes. -/
  | blockResetDrained
  /-- BLOCK_RESET_PORTS_DONE (R503): Every engine reset completes or times out. -/
  | blockResetPortsDone
  /-- BLOCK_RESET_SETTLED (R503): Write-backs are acknowledged, MMP and FAP tags increment and domains reset. -/
  | blockResetSettled
  /-- INIT_DONE (R50): SRAM initialisation completes and GLBL.STATUS.INIT_DONE becomes 1. -/
  | initDone
  /-- DUMP_BEAT (R596): An engine presents a scratchpad dump beat. -/
  | dumpBeat (port : BitVec 7) (last : Bool) (data : BitVec 256)
  /-- DUMP_BEAT_TIMEOUT (R518): No first dump beat within 10 µs marks the section TIMED_OUT. -/
  | dumpBeatTimeout (port : BitVec 7)
  /-- DUMP_DONE (R517): Every section write is acknowledged and the dump header is written. -/
  | dumpDone (mtag : BitVec 8) (gen : BitVec 4) (err : Bool)
  /-- ADD_PORT (R510): CLKR.RST_CMD ADD puts an offline port in service. -/
  | addPort (tag : BitVec 13) (port : BitVec 10)
  /-- REMOVE (R510): CLKR.RST_CMD REMOVE drains a port out of service. -/
  | remove (tag : BitVec 13) (port : BitVec 10)
  /-- READMIT (R510): CLKR.RST_CMD READMIT returns a READY port to service. -/
  | readmit (tag : BitVec 13) (port : BitVec 10)
  /-- ENGINE_RESET (R510): CLKR.RST_CMD ENGINE_RESET requests an engine reset. -/
  | engineReset (tag : BitVec 13) (port : BitVec 10)
  /-- ENGINE_RESET_ACK (R595): ERST_ACK or RESET_DONE completes an engine reset and latches DEPTH. -/
  | engineResetAck (port : BitVec 7) (depth : BitVec 8)
  /-- RESET_TIMEOUT (R510): ENG_RST_TIME passes without acknowledgement and the port goes DEAD. -/
  | resetTimeout (port : BitVec 7)
  /-- DEFERRED_PORT_CHANGE (R513): A deferred port change takes effect when its partition becomes idle. -/
  | deferredPortChange (port : BitVec 7)
  /-- IDLE_ENTRY (R524): The block stays quiet for IDLE_DELAY and gates its clocks. -/
  | idleEntry
  /-- IDLE_EXIT (R525): A wake event restarts every clock. -/
  | idleExit
  /-- DROWSE (R530): PWRC.CMD DROWSE starts a DROWSE entry if quiet. -/
  | drowse (tag : BitVec 13)
  /-- OFF (R536): PWRC.CMD OFF starts an OFF entry if quiet and no stream is enabled. -/
  | off (tag : BitVec 13)
  /-- AUTO_DROWSE (R530): The block stays quiet for DROWSE_AFTER and starts a DROWSE entry. -/
  | autoDrowse
  /-- ENTRY_ABORT (R531): An RDP access or loss of quiet before PD1's isolation abandons the entry. -/
  | entryAbort
  /-- PWR_ACK (R527): A synchronised PWR_ACK change advances a domain's power sequence. -/
  | pwrAck (dom : BitVec 5) (level : Bool)
  /-- ACK_TIMEOUT (R528): PWR_ACK misses ACK_TIMEOUT and the transition is abandoned or fatal. -/
  | ackTimeout (dom : BitVec 5)
  /-- WAKE (R533): A wake cause powers the domains up wave by wave. -/
  | wake (cause : BitVec 4)
  /-- WAKE_TIMER (R532): Device time reaches PWRC.WAKE_AT and starts a wake. -/
  | wakeTimer
  /-- WAKE_DONE (R533): Initialisation and resynchronisation complete and RDP ready rises. -/
  | wakeDone
  /-- COLD_RESET (R538): COLD_RST_N is asserted or released. -/
  | coldReset (asserted : Bool)
  /-- CLOCK_MEASURE (R543): Every 10 µs clocks are measured and a mismatch is reported. -/
  | clockMeasure (mhz : List (BitVec 12))
  /-- ALIGN_REQ (R551): Synchronised ALIGN_REQ rises or falls, starting a check or leaving LOCKED. -/
  | alignReq (level : Bool)
  /-- ALIGN_CHECK_DONE (R551): The 64-period coincidence check passes or fails. -/
  | alignCheckDone (failMask : BitVec 12)
  /-- ALIGN_LOST (R551): A coincidence check fails in LOCKED and an S5 is reported. -/
  | alignLost (failMask : BitVec 12)
  /-- TIME_SYNC (R557): A TIME_SYNC pulse computes an offset and slews or steps device time. -/
  | timeSync
  /-- SYNC_LOST (R559): No pulse arrives within twice SYNC_PERIOD. -/
  | syncLost
  /-- TIME_SET (R560): Write of TIME.SET moves device time forward. -/
  | timeSet (tag : BitVec 13) (value : BitVec 64)
  /-- KEEPER_BOOT (R568): The boot ROM selects, verifies and runs a firmware slot or enters recovery. -/
  | keeperBoot (store : KeeperStore)
  /-- RESTART (R576): KEEP.CTRL.RESTART restarts Keeper. -/
  | restart (tag : BitVec 13)
  /-- TRIAL_TIMEOUT (R572): A trial boot loses its heartbeat or exceeds TRIAL_TIME and Keeper restarts. -/
  | trialTimeout
  /-- LOAD (R571): Mailbox LOAD copies and verifies an image into a slot. -/
  | load (tag : BitVec 13) (slot : BitVec 1)
  /-- ACTIVATE (R571): Mailbox ACTIVATE marks a verified slot PENDING. -/
  | activate (tag : BitVec 13) (slot : BitVec 1)
  /-- CONFIRM (R571): Mailbox CONFIRM confirms the booted pending slot. -/
  | confirm (tag : BitVec 13) (slot : BitVec 1)
  /-- ERASE (R571): Mailbox ERASE empties a slot. -/
  | erase (tag : BitVec 13) (slot : BitVec 1)
  /-- MBOX_CMD_DONE (R571): A mailbox command ends and may ADD to its object. -/
  | mboxCmdDone (write : Bool) (mtag : BitVec 8) (gen : BitVec 4) (err : Bool) (lines : List Line)
  /-- LINK_DOWN (R604): A Causeway link leaves Active and its die's ports are not responding. -/
  | linkDown (link : BitVec 2)
  /-- LINK_ACTIVE (R604): A Causeway link becomes Active and engine resets are sent. -/
  | linkActive (link : BitVec 2)
  /-- CTX_RECORD_ACCESS_DONE (R630): An MMP read or write of a context-record line made for an eviction write-back or a change to a non-resident context completes, with an error raising CTX_REC_ERR at S1 or S4. -/
  | ctxRecordAccessDone (write : Bool) (mtag : BitVec 8) (gen : BitVec 4) (err : Bool) (lines : List Line)
  /-- MIRROR_WRITE_RESULT (R267): A mirror atomic max returns from MMP or FAP, and an error sets MIRROR_ERR, logs S1 and starts retries. -/
  | mirrorWriteResult (fab : Bool) (mtag : BitVec 8) (gen : BitVec 4) (err : Bool) (old : BitVec 64)
  /-- MSG_WRITE_ACK (R426): The MMP acknowledgement of an interrupt message write arrives, an error giving S1 MSG_WRITE and LAND_ERR. -/
  | msgWriteAck (mtag : BitVec 8) (gen : BitVec 4) (err : Bool)
  /-- WATCH_CANCEL_DONE (R607): The FAP RESULT of a watch CANCEL arrives, after which the watch number may be reused. -/
  | watchCancelDone (mtag : BitVec 8) (gen : BitVec 4) (err : Bool)
  /-- ALIVE_TOGGLE (R484): While running, ALIVE toggles on every 2^d-th ACLK rising edge and a new divider applies from this toggle. -/
  | aliveToggle
  /-- DEVICE_TIME_TICK (R555): On every ACLK edge device time adds 10 ns, or 9 or 11 while a slew is absorbed, and the CCLK view is reloaded. -/
  | deviceTimeTick
  /-- TRACE_RECORD_OUT (R614): A trace record leaves the 64-entry FIFO on a TRACE_VALID and TRACE_READY handshake. -/
  | traceRecordOut
  /-- LAUNCH_COPY_LINE (R203): The core copies one more launch line from the expansion store into DMEM, letting a thread stalled on that line run. -/
  | launchCopyLine (core : BitVec 4) (thread : BitVec 3)
  /-- ENTRY_FLUSH_DONE (R530): Landing's messages and write-backs of DROWSE or OFF entry step 1 are acknowledged, Beacon saves its state and the domain power-down begins. -/
  | entryFlushDone
deriving DecidableEq, Repr

end Sys2Proof
end

