-- ==== Sys2Proof/Config.lean ====
section
/-! DEFINITION. What an implementation fixes and the values the spec leaves open: uninterpreted constants with no body,
so that nothing can be proved about them (notes/assumptions/3.md). -/
namespace Sys2Proof.Config

/-- A value the spec leaves open; the machine applies it to its own counter of open values (log entry 3). -/
opaque freeValue : Nat → BitVec 64

/-- The code of an event that its chapter names without a number and that R470 does not list: 0 a retry (R384), 1 a report with a free
tag (R372), 2 a rejected body (R383), 3 a report handled as an error (R383). It is fixed, since a code names an event within its page
type (R469; log entry 3). -/
opaque eventCode : Nat → BitVec 8

/-- The payload of the quiet NaN that CONST_CVT makes of an FP32 NaN in a format, by both (R174, R390; log entry 3). -/
opaque nanPayload : Nat → BitVec 32 → BitVec 64

/-- The clip code of a step whose reports count more clips than elements, for which R395 gives none, by both counts (log entry 3). -/
opaque clipOver : BitVec 32 → BitVec 32 → BitVec 8

/-- The RTL parameter KEEP_KEY_DIGEST, the digest of the licensee's signing key (spec/21 R617; no default is stated). -/
opaque keepKeyDigest : BitVec 256

/-- The RTL parameter JTAG_IDCODE (spec/21 R617; no default is stated). -/
opaque jtagIdcode : BitVec 32

/-- The instruction code of IDCODE, lowest bit first, and by its length the width of the TAP's instruction register; what the data
register of a private instruction captures. R612 leaves all of it to the integration kit (log entry 44). -/
opaque tapIdcode : List Bool
opaque tapPrivate : List Bool → List Bool

end Sys2Proof.Config
end

