-- ==== Sys2Proof/Machine/Bits.lean ====
section
/-! DEFINITION. Bit fields, sign extension, byte order and line access (spec/00_scope.md R6). -/
namespace Sys2Proof.Machine

/-- Replace the `w` bits of `x` from bit `lo` up by `v`; a field written [hi:lo] includes both ends (R6). -/
def putBits {n w : Nat} (x : BitVec n) (lo : Nat) (v : BitVec w) : BitVec n :=
  (x &&& ~~~((BitVec.allOnes w).setWidth n <<< lo)) ||| (v.setWidth n <<< lo)

/-- A one-bit vector as a truth value. -/
def bit {n : Nat} (x : BitVec n) (i : Nat) : Bool := x.getLsbD i

/-- A truth value as a one-bit vector. -/
def ofBool (b : Bool) : BitVec 1 := BitVec.ofBool b

/-- The 32-bit word at byte offset `off` of a line. -/
def Line.w32 (l : Line) (off : Nat) : Word := l.extractLsb' (8 * off) 32

/-- The 64-bit word at byte offset `off` of a line. -/
def Line.w64 (l : Line) (off : Nat) : Dword := l.extractLsb' (8 * off) 64

/-- The byte at offset `off` of a line. -/
def Line.byte (l : Line) (off : Nat) : Byte := l.extractLsb' (8 * off) 8

/-- Write `v` at byte offset `off` of a line. -/
def Line.put {w : Nat} (l : Line) (off : Nat) (v : BitVec w) : Line := putBits l (8 * off) v

/-- Byte `i` of a sequence of lines; bytes beyond the sequence read 0. -/
def byteAt (ls : List Line) (i : Nat) : Byte := Line.byte (ls.getD (i / 64) 0) (i % 64)

/-- `n` bytes of a sequence of lines from byte `i`, as one little-endian number of `w` bits. -/
def bytesAt (w : Nat) (ls : List Line) (i : Nat) : Nat → BitVec w
  | 0 => 0#w
  | n + 1 => ((bytesAt w ls (i + 1) n) <<< 8) ||| (byteAt ls i).setWidth w

/-- Write one byte into a sequence of lines; a byte beyond the sequence is dropped. -/
def putByte (ls : List Line) (i : Nat) (b : Byte) : List Line :=
  ls.modify (i / 64) (fun l => Line.put l (i % 64) b)

/-- Write `n` bytes of `v`, lowest first, from byte `i` of a sequence of lines. -/
def putBytes {w : Nat} (ls : List Line) (i : Nat) (v : BitVec w) : Nat → List Line
  | 0 => ls
  | n + 1 => putByte (putBytes ls i v n) (i + n) (v.extractLsb' (8 * n) 8)

/-- Pack bytes, lowest first, into lines of 64; the last line is filled with zero bytes. -/
def lineOfBytes (bs : List Byte) : Line := bs.reverse.foldl (fun a b => (a <<< 8) ||| b.setWidth 512) 0#512

/-- The elements of a list, each once, in the order of their first places. -/
def distinct {α : Type} [DecidableEq α] (l : List α) : List α := l.foldl (fun acc a => if a ∈ acc then acc else acc ++ [a]) []

/-- Ceiling of a quotient. -/
def ceilDiv (a b : Nat) : Nat := (a + b - 1) / b

/-- A count that stops at its largest `w`-bit value. -/
def satAdd {w : Nat} (x : BitVec w) (n : Nat) : BitVec w := BitVec.ofNat w (min (x.toNat + n) (2 ^ w - 1))

end Sys2Proof.Machine
end

