-- ==== Sys2Proof/Machine/Table.lean ====
section
/-! DEFINITION. Sparse tables: key and value pairs with strictly rising keys and no pair whose value is what an
unlisted key reads as, so that equal tables are equal data. -/
namespace Sys2Proof.Machine

/-- A table from keys to values. `d k` is what an unlisted key `k` reads as. -/
abbrev Tbl (α : Type) := List (Nat × α)

/-- Read a key. -/
def Tbl.get {α : Type} (d : Nat → α) : Tbl α → Nat → α
  | [], k => d k
  | (k', v) :: t, k => if k = k' then v else Tbl.get d t k

/-- Take a key out. -/
def Tbl.erase {α : Type} : Tbl α → Nat → Tbl α
  | [], _ => []
  | (k', v) :: t, k => if k = k' then t else (k', v) :: Tbl.erase t k

/-- Put a pair in at its place, replacing a pair of the same key. -/
def Tbl.insert {α : Type} : Tbl α → Nat → α → Tbl α
  | [], k, v => [(k, v)]
  | (k', v') :: t, k, v =>
    if k < k' then (k, v) :: (k', v') :: t
    else if k = k' then (k, v) :: t
    else (k', v') :: Tbl.insert t k v

/-- Write a key: a value equal to what the unlisted key reads as takes the pair out. -/
def Tbl.set {α : Type} [DecidableEq α] (d : Nat → α) (t : Tbl α) (k : Nat) (v : α) : Tbl α :=
  if v = d k then Tbl.erase t k else Tbl.insert t k v

/-- Change the values of a table; a pair whose new value is the unlisted one goes. -/
def Tbl.mapK {α : Type} [DecidableEq α] (d : Nat → α) (f : Nat → α → α) : Tbl α → Tbl α
  | [] => []
  | (k, v) :: t => if f k v = d k then Tbl.mapK d f t else (k, f k v) :: Tbl.mapK d f t

/-- Change the values of a table by a function of the value alone. -/
def Tbl.remap {α : Type} [DecidableEq α] (d : Nat → α) (f : α → α) (t : Tbl α) : Tbl α := Tbl.mapK d (fun _ => f) t

/-- Every key of the list exceeds `lo`, rising strictly, and no value is the unlisted one. -/
def Tbl.wfFrom {α : Type} [DecidableEq α] (d : Nat → α) : Option Nat → Tbl α → Bool
  | _, [] => true
  | lo, (k, v) :: t => (match lo with | none => true | some l => decide (l < k)) && decide (v ≠ d k) && Tbl.wfFrom d (some k) t

/-- The canonical form. -/
def Tbl.wf {α : Type} [DecidableEq α] (d : Nat → α) (t : Tbl α) : Bool := Tbl.wfFrom d none t

end Sys2Proof.Machine
end

