-- ==== Sys2Proof/Machine/Kinds.lean ====
section
/-! DEFINITION. The records that the parts of State are made of: events, memory requests, streams, entries, context slots,
template directory entries (spec/02 to spec/05, spec/15 R469). -/
namespace Sys2Proof.Machine

/-- The classes of MMP requests (spec/20 R586). -/
inductive MClass where
  | fetch | writeback | atomic | dump
deriving DecidableEq, Repr

/-- What an MMP or FAP request does: a read, a write, or one of the atomics of R286. -/
inductive MOp where
  | read
  | write
  | fetchAdd (v : Dword)
  | max (v : Dword)
  | cas (cmp v : Dword)
  | setBit (v : Dword)
  | watch (num : BitVec 8) (v : Dword)
  | cancel (num : BitVec 8)
deriving DecidableEq, Repr

/-- Name of an entry: its stream and the stream's count of released entries at its release, which no enable starts again (log entry 45). -/
structure EKey where
  stream : BitVec 14
  seq : Dword
deriving DecidableEq, Repr

/-- Why a memory or fabric request was issued: what its answer is for. -/
inductive Why where
  /-- ring units of a stream from a position, for the channel that holds the stream (R129) or prefetched (R128); with no units
  the answer is not wanted any more (R134) -/
  | ring (stream : BitVec 14) (pos : BitVec 16) (units : Nat) (pre : Bool)
  /-- the release write of an entry at a position (R117) -/
  | release (e : EKey) (pos : BitVec 16)
  /-- one input of an entry's launch (R179): 0 directory line, 1 header, 2 image, 3 patch list, 4 constants -/
  | input (e : EKey) (part : Nat) (off : Nat)
  /-- input lines, or the directory line, prefetched for an entry that is not released yet (R181); not `live` when they are not
  wanted any more (R134, R168) -/
  | ahead (e : EKey) (addr : Addr) (live : Bool)
  /-- the context record of a Harbour load (R89) -/
  | ctxLoad (slot : Nat)
  /-- a handle-cache miss (R98) -/
  | handle (slot : Nat) (index : Nat)
  /-- a miss of a launch that pinned a geometry the context has no longer (R97) -/
  | handleOwn (e : EKey) (index : Nat)
  /-- an access of a partition's context command (R78) -/
  | ctxCmd (p : BitVec 4) (line : Nat)
  /-- write-back of the Swisto-owned line `line` of a context (R75); `grave` when the change set LOST or DESTROYED or cleared VALID (R630) -/
  | ctxWb (p : BitVec 4) (ctx : BitVec 16) (line : Nat) (grave : Bool)
  /-- the read before a change to a non-resident context (R75); the change is held with the partition's pending changes -/
  | ctxMod (p : BitVec 4) (ctx : BitVec 16)
  /-- park-slot write and read-back (R187, R182) -/
  | park (e : EKey)
  | unpark (e : EKey) (off : Nat)
  /-- an access of a partition's template command (R164) -/
  | tmplCmd (p : BitVec 4) (line : Nat)
  /-- first read of a fence word (R259), a poll read (R260) -/
  | fenceRead (e : EKey) (pair : Nat)
  | poll (addr : Addr)
  /-- a watch and its cancel (R264) -/
  | watch (n : Nat)
  | watchCancel (n : Nat)
  /-- a mirror's atomic max (R266) -/
  | mirror (m : Nat)
  /-- a software atomic (R268) -/
  | atom
  /-- a program load of a core (R232) -/
  | imem (core : BitVec 4) (off : Nat)
  /-- an index list of a lookup launch (R338), its map write (R352), a table directory reload (R340) -/
  | indexList (e : EKey) (off : Nat)
  | mapWrite (e : EKey)
  | tableDir (p : BitVec 4) (off : Nat)
  /-- Landing: function event entry read and write-back, audit record, completion record, fence word, message (R406) -/
  | fevRead (f : BitVec 12)
  | fevWrite (f : BitVec 12)
  | audit (e : EKey)
  | record (e : EKey)
  | fence (e : EKey)
  | message (f : BitVec 12) (vec : Nat)
  /-- digest-log entry (R458), digest command access (R461), digest-table lines of an audited launch (R465) -/
  | dlog (e : EKey) (launch : Bool)
  | digCmd (line : Nat)
  | progEntry (e : EKey)
  | modelLine (p : BitVec 4)
  /-- a model line read that was overtaken by a change of the line (R465): it serves these launches and is not kept -/
  | modelOnce (es : List EKey)
  /-- a dump write (R517) -/
  | dump (part : Nat)
  /-- Keeper's mailbox read or store access (R571); a pinned image reload (R170): its directory line, then its lines from 1 on -/
  | mbox (off : Nat)
  | pinReload (p : BitVec 4) (id : Nat) (off : Nat)
  /-- work that a reset discarded (R508) -/
  | orphan
deriving DecidableEq, Repr

/-- A request at MMP or FAP that has not been answered. `len` bytes of `data`, packed from the address up. -/
structure MReq where
  tag : Option (BitVec 8)
  cls : MClass
  gen : BitVec 4
  op : MOp
  addr : Addr
  len : Nat
  data : List Line
  why : Why
deriving DecidableEq, Repr

/-- An event as its unit reports it: what Reef keeps of it (R469), without time and sequence, which Reef adds when it takes it,
and what the unit's chapter has the event carry and R469's record has no field for: the handle of R96, and the operation index
of R191 and R381 or the index position of R341 (log entry 46). -/
structure Event where
  akind : BitVec 2
  addr : Addr
  unit : BitVec 8
  code : BitVec 8
  sev : Nat
  part : Option (BitVec 4)
  stream : Option (BitVec 14)
  ctx : Option (BitVec 24)
  func : Option (BitVec 12)
  handle : Option Word
  index : Option Nat
deriving DecidableEq, Repr

/-- The stream states (R142). -/
inductive StreamState where
  | disabled | idle | ready | fetching | blocked | paused | draining | faulted
deriving DecidableEq, Repr

/-- STATE codes of R142. -/
def StreamState.code : StreamState → Nat
  | .disabled => 0 | .idle => 1 | .ready => 2 | .fetching => 3 | .blocked => 4 | .paused => 5 | .draining => 6 | .faulted => 7

/-- One stream: its stream-table entry (R140), its configuration registers (R137), and what stages 1 to 3 hold for it. -/
structure StreamE where
  ringBase : BitVec 45
  phase : BitVec 1
  pause : Bool
  dbPending : Bool
  harbQ : Bool
  log2 : BitVec 5
  st : StreamState
  cons : BitVec 16
  fetchPos : BitVec 16
  hint : BitVec 16
  timeoutUs : BitVec 32
  /-- TIMEOUT as it was at the latest restart of the progress timer (R138) -/
  limitUs : BitVec 32
  faultCode : BitVec 8
  faultPos : BitVec 16
  progressT : Dword
  inflight : BitVec 17
  dbCount : BitVec 32
  /-- ENTRIES: entries released since the latest enable (R140, R446) -/
  entries : Dword
  waitValue : Dword
  waitTarget : Dword
  /-- FETCH.STREAM_CTRL.EN, which reads 0 from the write of 0 onward (R142) -/
  ctrlEn : Bool
  /-- FETCH.START (R137) -/
  startPhase : BitVec 1
  startPos : BitVec 16
  /-- the next header read is started by a doorbell (R126) -/
  dbStarted : Bool
  /-- units of the entry being fetched, from CONS (R117); a fetch is in progress -/
  got : List Line
  fetching : Bool
  /-- the SIGNAL entry that is pending (R114) -/
  sigPending : Option Dword
  /-- the entry between the end of stage 3 and stage 8 (R136) -/
  head : Option Dword
  /-- entries released since the block's reset, which names entries (EKey); it goes on where ENTRIES starts again (log entry 45) -/
  serial : Dword
deriving DecidableEq, Repr

/-- A stream-table entry after cold reset (R141). -/
def StreamE.reset : StreamE where
  ringBase := 0
  phase := 1
  pause := false
  dbPending := false
  harbQ := false
  log2 := 4
  st := .disabled
  cons := 0
  fetchPos := 0
  hint := 0
  timeoutUs := 1000000
  limitUs := 1000000
  faultCode := 0
  faultPos := 0
  progressT := 0
  inflight := 0
  dbCount := 0
  entries := 0
  waitValue := 0
  waitTarget := 0
  ctrlEn := false
  startPhase := 1
  startPos := 0
  dbStarted := false
  got := []
  fetching := false
  sigPending := none
  head := none
  serial := 0

/-- Entry types (R106). -/
inductive EType where
  | nop | pad | launch | templateLaunch | lookupLaunch | wait | signal | barrier | modelSwitch | tableUpdate | epochAdvance
deriving DecidableEq, Repr

/-- TYPE codes; `none` for a reserved code (R106). -/
def EType.ofCode : Nat → Option EType
  | 0x0 => some .nop | 0x1 => some .pad | 0x2 => some .launch | 0x3 => some .templateLaunch | 0x4 => some .lookupLaunch
  | 0x5 => some .wait | 0x6 => some .signal | 0x7 => some .barrier | 0x8 => some .modelSwitch | 0x9 => some .tableUpdate
  | 0xA => some .epochAdvance | _ => none

/-- The code of an entry type (R106). -/
def EType.code : EType → Nat
  | .nop => 0x0 | .pad => 0x1 | .launch => 0x2 | .templateLaunch => 0x3 | .lookupLaunch => 0x4 | .wait => 0x5
  | .signal => 0x6 | .barrier => 0x7 | .modelSwitch => 0x8 | .tableUpdate => 0x9 | .epochAdvance => 0xA

/-- LAUNCH, TEMPLATE_LAUNCH, LOOKUP_LAUNCH and TABLE_UPDATE share the launch layout (R109). -/
def EType.isLaunch : EType → Bool
  | .launch | .templateLaunch | .lookupLaunch | .tableUpdate => true
  | _ => false

/-- Where a released entry stands on its path (spec/01, stages 4 to 13). -/
inductive Stage where
  /-- stage 4: wants its context and its input lines (R179) -/
  | input
  /-- in the Harbour queue (R91, R182) -/
  | harbQueue
  /-- back from the Harbour queue, waiting for a fetch channel (R182) -/
  | reenter
  /-- ready for the Ferry, or part-way through it (R183) -/
  | ferry
  /-- left the Ferry for a handle-cache miss (R98) -/
  | miss
  /-- at stage 6 while the first read of a fence word is outstanding (R259) -/
  | fence
  /-- parked at stage 6 (R187) -/
  | parked
  /-- released from the park, its lines being read back (R187) -/
  | readback
  /-- stage 7: index list outstanding, or held in a Shoal window (R341) -/
  | shoal
  /-- stage 8: waits for a core, a load, a bank or a partition state (R200, R70) -/
  | place
  /-- its program runs (R227) -/
  | running
  /-- END has executed or the launch was aborted; commands are outstanding (R221, R82) -/
  | draining
  /-- t_done reached (R405): waits to enter the completion queue -/
  | finished
  /-- in Landing's completion queue or in steps 1 to 4 of R406 -/
  | landing
  /-- a non-launch entry that waits for its point (R112): SIGNAL, BARRIER, MODEL_SWITCH, EPOCH_ADVANCE, WAIT at stage 6 -/
  | point
  /-- completed -/
  | closed
deriving DecidableEq, Repr

/-- A failure of an entry, in the order met: STATUS (R416), CODE and OPIDX (R413). -/
structure Failure where
  status : Nat
  code : BitVec 8
  opidx : BitVec 8
deriving DecidableEq, Repr

/-- What became of an operation of a launch (R158, R220). -/
inductive OpState where
  /-- not issued by the program -/
  | idle
  /-- issued as a waiter on a sync object (R218) -/
  | waiter
  /-- issued, in the dependency window (R217) -/
  | window
  /-- a candidate (R309); `issuing` while its ISSUE has not left the thread (R217) -/
  | cand (issuing : Bool)
  /-- admitted to its group's queue, granted or sent, and not reported (R315, R370) -/
  | sent
  /-- its report has entered Landing, or it is a NOP that has been issued -/
  | done
  /-- skipped (R230) -/
  | skipped
deriving DecidableEq, Repr

/-- One released entry and, for a launch, everything Swisto holds of it. -/
structure Entry where
  stage : Stage
  etype : EType
  part : BitVec 4
  pos : BitVec 16
  /-- SEQ, the value of ENTRIES at the release (R445) -/
  seqNo : Dword
  /-- the entry's units, header first (R103, R109) -/
  units : List Line
  /-- the release write is acknowledged (R123) -/
  released : Bool
  fails : List Failure
  /-- the launch's own relocation failure lost its context (R193) -/
  ownReloc : Bool
  /-- Harbour slot the launch uses (R89) -/
  slot : Option Nat
  /-- pinned handle-table generation, and line 0x00 of the record, which holds the table's geometry (R97); the handle entries
  read for the launch once the context's geometry is another -/
  htGen : Option Word
  geom : Line
  ownH : List (Nat × BitVec 256)
  /-- pinned template: generation, image address, lines (R168) -/
  tgen : BitVec 16
  timg : Addr
  tlines : Nat
  tpinned : Bool
  /-- inputs (R179): parts requested and outstanding, image or command buffer, patch list, constant buffer -/
  asked : Nat
  waiting : Nat
  inErr : Bool
  cb : List Line
  pl : List Line
  cst : List Line
  cbAddr : Addr
  plAddr : Addr
  progAddr : Addr
  constAddr : Addr
  /-- the working copy is patched and checked (R175, R191) -/
  prepared : Bool
  /-- handle-table index whose read the launch waits for (R98) -/
  missIdx : Nat
  constIn : Bool
  skips : List Nat
  /-- Ferry: CCLKs still to spend on patch decoding (R184), lines emitted, lines in all -/
  decode : Nat
  lines : List Line
  total : Nat
  /-- lines that hold room in the expansion store (R179) -/
  store : Nat
  /-- parked: write acknowledgements outstanding; the park slot holds the lines -/
  parkAcks : Nat
  inPark : Bool
  /-- pairs of the wait unit already found to hold (R247) -/
  pairDone : Nat
  /-- stage 8 and later: core, thread, times (R200, R415) -/
  core : Option (BitVec 4)
  /-- the core whose operation pool holds the launch's operation lines, and how many were reserved (R200, R221) -/
  poolAt : Option (BitVec 4)
  poolN : Nat
  thread : Option (BitVec 3)
  tStart : Nat
  tDone : Nat
  executed : Bool
  aborted : Bool
  ops : List OpState
  issued : Nat
  completed : Nat
  ended : Bool
  /-- epoch stamp (R300) and window number of a lookup (R344) -/
  epoch : BitVec 48
  window : Option Nat
  /-- Landing: where the completion stands in R406. 0 waits for its function entry, 1 for its digest, 9 has its digest and waits to
  write its audit record, 2 waits for that write, 6 for its digest-log entry, 3 is at step 2, 4 waits for its record's write, 7 is at
  step 3 behind earlier signals (R244), 8 is there with its signals alone left (R426), 5 waits for its fence write. recDone: it has
  passed step 2 -/
  lstep : Nat
  recDone : Bool
  audIdx : Option (BitVec 32)
  audLost : Bool
  ldigest : Dword
  outBytes : Dword
  /-- the lists P_e of R322, by engine class, and the launch's live ports -/
  places : List (List Nat)
  model : BitVec 32
  engines : BitVec 32
  /-- INTEG.ENGINE_TIMEOUT and INTEG.NODE_ID at the start of the launch (R27, R59) -/
  waitUs : BitVec 20
  node : BitVec 12
deriving DecidableEq, Repr

/-- An entry as its release leaves it (R117). -/
def Entry.fresh (etype : EType) (part : BitVec 4) (pos : BitVec 16) (units : List Line) : Entry where
  stage := .point
  etype := etype
  part := part
  pos := pos
  seqNo := 0
  units := units
  released := false
  fails := []
  ownReloc := false
  slot := none
  htGen := none
  geom := 0
  ownH := []
  tgen := 0
  timg := 0
  tlines := 0
  tpinned := false
  asked := 0
  waiting := 0
  inErr := false
  cb := []
  pl := []
  cst := []
  cbAddr := 0
  plAddr := 0
  progAddr := 0
  constAddr := 0
  prepared := false
  missIdx := 0
  constIn := false
  skips := []
  decode := 0
  lines := []
  total := 0
  store := 0
  parkAcks := 0
  inPark := false
  pairDone := 0
  core := none
  poolAt := none
  poolN := 0
  thread := none
  tStart := 0
  tDone := 0
  executed := false
  aborted := false
  ops := []
  issued := 0
  completed := 0
  ended := false
  epoch := 0
  window := none
  lstep := 0
  recDone := false
  audIdx := none
  audLost := false
  ldigest := 0
  outBytes := 0
  places := []
  model := 0
  engines := 0
  waitUs := 0
  node := 0

/-- States of a Harbour slot (R89). -/
inductive SlotState where
  | free | loading | busy | idle
deriving DecidableEq, Repr

/-- One Harbour slot (R88): the four lines of its record, the handle cache (most recently used first), and whether a
HANDLE_INVAL with ALL = 1 waits for line 0x00 (R97). -/
structure Slot where
  st : SlotState
  part : BitVec 4
  ctx : BitVec 16
  recLines : List Line
  cache : List (Nat × BitVec 256)
  geomWait : Bool
  /-- the load's record lines that have not come back -/
  missing : Nat
deriving DecidableEq, Repr

/-- A slot after SRAM initialisation (R88). -/
def Slot.reset : Slot := ⟨.free, 0, 0, [0, 0, 0, 0], [], false, 0⟩

/-- Swisto-owned lines of a context staged for write-back, with the writes not yet acknowledged (R93): all of them, or line
0x40 alone; `again` when an update has been merged since they were written. -/
structure Staged where
  part : BitVec 4
  ctx : BitVec 16
  lines : List Line
  full : Bool
  again : Bool
  acks : Nat
deriving DecidableEq, Repr

/-- A context command in progress (R77): OP, context, arguments, and the point it has reached. -/
structure CtxCmd where
  op : BitVec 4
  ctx : BitVec 16
  bound : Bool
  all : Bool
  index : BitVec 24
  step : Nat
  acks : Nat
  htBase : Addr
  htCount : Nat
  sum : Dword
  line1 : Line
deriving DecidableEq, Repr

/-- A change to the record of a non-resident context that waits for the line's read (R75). -/
inductive CtxChange where
  | lose (reason : BitVec 8) (time : Dword) (stream : BitVec 20)
  | destroyed
  | genInc
  | relocInc
deriving DecidableEq, Repr

/-- A template directory entry (R162). -/
structure DirEntry where
  image : Addr
  gen : BitVec 16
  valid : Bool
  pinned : Bool
  lines : Nat
  prevImage : Addr
  prevValid : Bool
  prevGen : BitVec 16
  prevLines : Nat
deriving DecidableEq, Repr

/-- A directory entry as software zeroes it (R161). -/
def DirEntry.zero : DirEntry := ⟨0, 0, false, false, 0, 0, false, 0, 0⟩

/-- A template command in progress (R163). -/
structure TmplCmd where
  op : BitVec 4
  id : BitVec 12
  pin : Bool
  src : Addr
  step : Nat
  got : List Line
deriving DecidableEq, Repr

/-- Who waits on a sync object: the stream of an entry on a pair of its wait unit, or an operation of a launch (R248). -/
inductive Who where
  | pair (e : EKey) (pair : Nat)
  | op (e : EKey) (idx : Nat)
deriving DecidableEq, Repr

/-- The entry a waiter belongs to. -/
def Who.key : Who → EKey
  | .pair e _ => e
  | .op e _ => e

/-- A waiter in an object's list (R250). -/
structure Waiter where
  who : Who
  value : Dword
  void : Bool
deriving DecidableEq, Repr

/-- One sync object: value (R241), POISON (R274), MIN_WAIT (R250), waiter list in insertion order, and whether a pass over
the list is queued (R251). -/
structure SyncObj where
  value : Dword
  poison : Bool
  minWait : Dword
  waiters : List Waiter
  flagged : Bool
deriving DecidableEq, Repr

/-- A sync object after cold reset (R241, R250). -/
def SyncObj.reset : SyncObj := ⟨0, false, BitVec.allOnes 64, [], false⟩

/-- The updates of R241. -/
inductive UpdKind where
  | signal | add | force
deriving DecidableEq, Repr

/-- The update sources of R243, in the order of its table. -/
inductive Src where
  | landing | signalEntry | rdp | command | tide
deriving DecidableEq, Repr

/-- One pair of a signal unit, ready to be offered. -/
structure Upd where
  kind : UpdKind
  so : BitVec 14
  value : Dword
deriving DecidableEq, Repr

/-- An update offered to the sync block and held until its bank takes it (R244); `rest` are the later pairs of the same
unit, offered one after the other (R245); `entry` names the SIGNAL entry that ends when the last pair is applied (R112). -/
structure Offer where
  src : Src
  upd : Upd
  rest : List Upd
  entry : Option EKey
deriving DecidableEq, Repr

/-- A poll entry, or a stream that waits for one (R260, R262, R265). -/
structure Poll where
  who : EKey
  pair : Nat
  part : BitVec 4
  addr : Addr
  value : Dword
deriving DecidableEq, Repr

/-- A watch number (R264): the waiter it serves while it is held, and whether a cancel is outstanding. -/
structure Watch where
  held : Option Poll
  cancelling : Bool
deriving DecidableEq, Repr

/-- A mirror entry's write (R266, R267): outstanding, behind the latest value, failed. Its EN, object and address are the
banked registers MIRROR_OBJ, MIRROR_LO and MIRROR_HI. -/
structure Mirror where
  out : Bool
  stale : Bool
  failed : Bool
deriving DecidableEq, Repr

/-- The sync block (spec/07). -/
structure Sync where
  objs : Tbl SyncObj
  offers : List Offer
  /-- rotation pointers of banks 0 and 1: the source served last (R244) -/
  rot0 : Nat
  rot1 : Nat
  /-- objects flagged for a pass, oldest first (R251) -/
  passes : List Nat
  polls : List Poll
  pollQ : List Poll
  watches : Tbl Watch
  mirrors : Tbl Mirror
deriving DecidableEq, Repr

/-- The sync block after cold reset (R272). -/
def Sync.reset : Sync := ⟨[], [], 4, 4, [], [], [], [], []⟩

/-- A function entry in Landing's cache (R410): lines 0x00, 0x40, 0x80 and 0xC0, how many of them are still being read, and whether
line 0xC0 differs from its copy in memory. -/
structure Fev where
  func : BitVec 12
  lines : List Line
  missing : Nat
  dirty : Bool
deriving DecidableEq, Repr

/-- A vector's moderation state (R419, R422). -/
structure Vec where
  pend : BitVec 8
  last : Dword
  badSeen : Bool
deriving DecidableEq, Repr

/-- A vector that nothing has used. -/
def Vec.reset : Vec := ⟨0, 0, false⟩

/-- Landing (spec/12): the ports on which an engine presents a report, with the CCLK of its presentation plus 1 (R428 MAX_ACCEPT),
collectors' FIFOs, each report with that CCLK, completion queue, function event cache (most recently used first), vectors. -/
structure Landing where
  shown : Tbl Nat
  fifos : Tbl (List (Report × Nat))
  colPtr : Tbl Nat
  mergePtr : Nat
  queue : List EKey
  /-- completions that have reached step 2 of R406 and not begun its write, in the order in which they reached it (R411) -/
  step2 : List EKey
  /-- audited completions that wait for the hash engine, in completion order (R423) -/
  hashing : List EKey
  fev : List Fev
  /-- line 0x00 of each function's entry as Landing first read it or last refreshed it: what REFRESH compares with (R409) -/
  used : Tbl (Option Line)
  vecs : Tbl Vec
  /-- functions of stream faults that wait for their function entry (R419) -/
  faults : List (BitVec 12)
  /-- function of the FEV command in progress, with its OP (R428) -/
  cmd : Option (BitVec 4 × BitVec 12)
deriving DecidableEq, Repr

/-- Landing after reset. -/
def Landing.reset : Landing := ⟨[], [], [], 0, [], [], [], [], [], [], [], none⟩

/-- The fetch units (spec/04): which stream each channel holds, the four class queues (R135), launches that re-enter from
the Harbour queue (R182), and the descriptor cache, most recently used first (R131). -/
structure Fetch where
  chans : Tbl (Option (BitVec 14))
  q0 : List (BitVec 14)
  q1 : List (BitVec 14)
  q2 : List (BitVec 14)
  q3 : List (BitVec 14)
  reenter : List EKey
  cache : List (BitVec 14 × BitVec 16 × Line)
deriving DecidableEq, Repr

/-- The fetch units after reset. -/
def Fetch.reset : Fetch := ⟨[], [], [], [], [], [], []⟩

/-- The Ferry (spec/05): the channel served last (R183), the directory cache, most recently used first, pinned images
and the template commands of the partitions. -/
structure Ferry where
  last : BitVec 4
  dirs : List (BitVec 4 × BitVec 12 × DirEntry)
  pins : List (BitVec 4 × BitVec 12 × BitVec 16 × List Line)
  /-- input lines prefetched for the next entry of a stream (R181) -/
  ahead : List (EKey × Addr × Line)
  cmds : Tbl (Option TmplCmd)
  /-- launches that wait at stage 8, oldest first; their lines stay in the expansion store (R201) -/
  waits : List EKey
deriving DecidableEq, Repr

/-- The Ferry after reset. -/
def Ferry.reset : Ferry := ⟨15, [], [], [], [], []⟩

/-- Harbour (spec/03): slots, slots by idle time (oldest first, R91), the Harbour queue, staged write-backs (R93), context
commands (R77), changes to non-resident contexts that wait for their line (R75). -/
structure Harbour where
  slots : Tbl Slot
  lru : List Nat
  queue : List EKey
  staged : List Staged
  cmds : Tbl (Option CtxCmd)
  changes : List (BitVec 4 × BitVec 16 × CtxChange)
deriving DecidableEq, Repr

/-- Harbour after SRAM initialisation (R88). -/
def Harbour.reset : Harbour := ⟨[], [], [], [], [], []⟩

/-- An RDP access as it arrives (R580). -/
structure Access where
  write : Bool
  tag : BitVec 13
  addr : BitVec 26
  strb : BitVec 8
  data : Dword
deriving DecidableEq, Repr

/-- The RDP (spec/20 R580): the last answer, accesses held while PD1 is off or an entry holds RDP_READY low (R583) or while an
earlier access has not been answered (R582), and whether that is a write of the sync-object window that its bank has not applied
(R38, R246). -/
structure Rdp where
  adata : Dword
  aerr : BitVec 3
  held : List Access
  waits : Bool
deriving DecidableEq, Repr

/-- Reef's parts that no register holds (spec/15): events waiting in the page slots (R471), the FER and the history (R469),
when the quiet timer ends and the period it was started with (R475), the pages whose FAULT bit reads 1 with the time at which
it clears, all ones when only a move to CLEAR clears it (R477), and the map entries whose stored code is uncorrectable
(R481): whether of PMAP, whether of copy B, the index. `later` holds the events that a command of several CCLKs has made after
its first and that Reef has yet to meet (log entry 35). -/
structure Reef where
  waiting : List Event
  later : List Event
  fer : BitVec 256
  hist : Tbl (BitVec 256)
  quietEnd : Dword
  quietDur : Dword
  pageTimers : Tbl Dword
  bad : List (Bool × Bool × Nat)
deriving DecidableEq, Repr

/-- Reef after cold reset (R474). -/
def Reef.reset : Reef := ⟨[], [], 0, [], 0, 0, [], []⟩

/-- Why a reset runs: the CAUSE codes of CLKR.DUMP_STAT (R517). -/
inductive Cause where
  | s5 | s4 | command | block | escalation
deriving DecidableEq, Repr

/-- CAUSE codes (R517). -/
def Cause.code : Cause → Nat
  | .s5 => 1 | .s4 => 2 | .command => 3 | .block => 4 | .escalation => 5

/-- A reset in progress (R498, R503): the step it has reached, its cause, whether an event of the current fault caused it
(R475), and the device time at which the step began. -/
structure ResetRun where
  step : Nat
  cause : Cause
  fault : Bool
  t : Dword
deriving DecidableEq, Repr

/-- A section of a dump (R517): KIND, INSTANCE, its lines and bytes, and whether it has timed out. -/
structure DumpSec where
  kind : Nat
  inst : Nat
  lines : List Line
  bytes : Nat
  late : Bool
deriving DecidableEq, Repr

/-- A port's scratchpad on its way into a dump (R518, R596): the beats, latest first, and whether the section has ended. -/
structure DumpPort where
  port : Nat
  beats : List (BitVec 256)
  isOver : Bool
  late : Bool
deriving DecidableEq, Repr

/-- A dump that is being taken (R516 to R518): the partition of a partition reset, the cause, the device time of step 1, the
MMP tag then, the sections before and after the scratchpads, the scratchpads, whether the sections are being written, their
write acknowledgements outstanding, an error, and the header. -/
structure Dump where
  part : Option (BitVec 4)
  cause : Cause
  t : Dword
  gen : BitVec 4
  secs : List DumpSec
  ports : List DumpPort
  stage : Nat
  acks : Nat
  err : Bool
  trunc : Bool
  header : Line
deriving DecidableEq, Repr

/-- What the reset machinery holds beside its registers (spec/16): partition resets that were asked for and have not started,
the block reset asked for, the S5 stop, the resets in progress, whether Keeper has written BLOCK (R504), contexts that the
clean step will lose, the start times of R514, oldest first, each with whether it counts, and the dump. -/
structure Resets where
  partWant : List (BitVec 4 × Cause)
  blockWant : Option Cause
  stopped : Bool
  parts : Tbl (Option ResetRun)
  block : Option ResetRun
  keeperOk : Bool
  lost : List (BitVec 4 × BitVec 16 × BitVec 14)
  starts : List (Dword × Bool)
  dump : Option Dump
deriving DecidableEq, Repr

/-- No reset runs or is asked for. -/
def Resets.none : Resets := ⟨[], Option.none, false, [], Option.none, false, [], [], Option.none⟩

end Sys2Proof.Machine
end

