-- ==== Sys2Proof/Machine/Kinds2.lean ====
section
/-! DEFINITION. The records of the Skerry cores, of dispatch and the engine ports, of trace (spec/06_skerry_cores.md,
spec/09_dispatch_and_qos.md, spec/11_engine_ports_and_formats.md, spec/20_ports_and_signals.md R613). -/
namespace Sys2Proof.Machine

/-- Thread states (R227). -/
inductive ThrState where
  | free | running | stalled | waiting | brk | quiesced
deriving DecidableEq, Repr

/-- SKRY.THR_STAT.STATE codes (R227). -/
def ThrState.code : ThrState → Nat
  | .free => 0 | .running => 1 | .stalled => 2 | .waiting => 3 | .brk => 4 | .quiesced => 5

/-- Why a thread is STALLED (R217, R203, R200). -/
inductive Stall where
  /-- not stalled -/
  | none
  /-- the swap of a program load, then the launch block and the parameter lines -/
  | start
  /-- a line that has not arrived, by its place among the launch's lines -/
  | line (n : Nat)
  /-- an ISSUE that dispatch has not accepted -/
  | issue
  /-- a full dependency window -/
  | window
  /-- nothing any more: the instruction is tried again at the next grant (R226) -/
  | retry
deriving DecidableEq, Repr

/-- One hardware thread. -/
structure Thread where
  st : ThrState
  /-- the state that a quiesce holds (R227) -/
  saved : ThrState
  stall : Stall
  launch : Option EKey
  pc : Nat
  regs : Vector Dword 32
  progress : Dword
  bank : BitVec 1
  /-- the launch waits for the swap of a load (R200) -/
  wantSwap : Bool
  /-- the launch's lines, and how many of them are in DMEM (R203) -/
  lines : List Line
  arrived : Nat
  /-- parameter slots p0 to p31 and the scratch area (R202, R206) -/
  slots : Vector Word 32
  scratch : Vector Line 16
  cycle : Nat
  /-- CCLKs since the slot was last granted (R198) -/
  idle : Nat
  retired : Word
  /-- a long instruction that has lost the slot was counted -/
  counted : Bool
  /-- PATCHV has reported a PATCH_ISSUED of this instruction (R222) -/
  patched : Bool
  /-- first skip of the launch reported (R230) -/
  skipSeen : Bool
  /-- the breakpoint was passed at this instruction (R229) -/
  resumed : Bool
  /-- STEP is executing one whole instruction in BREAK (R229) -/
  stepping : Bool
deriving DecidableEq, Repr

/-- A free thread. -/
def Thread.reset : Thread where
  st := .free
  saved := .free
  stall := .none
  launch := none
  pc := 0
  regs := Vector.replicate 32 0
  progress := 0
  bank := 0
  wantSwap := false
  lines := []
  arrived := 0
  slots := Vector.replicate 32 0
  scratch := Vector.replicate 16 0
  cycle := 0
  idle := 0
  retired := 0
  counted := false
  patched := false
  skipSeen := false
  resumed := false
  stepping := false

/-- Key of a program (R200). -/
structure ProgKey where
  part : BitVec 6
  addr : Addr
  len : Nat
deriving DecidableEq, Repr

/-- A program directory entry (R231), with when a launch last started from it. -/
structure Prog where
  key : ProgKey
  valid : Bool
  lock : Bool
  off : Nat
  last : Nat
deriving DecidableEq, Repr

/-- One IMEM bank (R231). -/
structure Bank where
  progs : List Prog
  mem : Tbl Line
deriving DecidableEq, Repr

/-- A program load into the standby bank (R232). -/
structure Load where
  key : ProgKey
  lock : Bool
  soft : Bool
  got : List Line
  missing : Nat
  err : Bool
  /-- an INVAL or a reset covered it meanwhile: its entry loads with VALID = 0 (R236, R238) -/
  stale : Bool
deriving DecidableEq, Repr

/-- One Skerry core (spec/06). -/
structure Core where
  threads : Tbl Thread
  bankA : Bank
  bankB : Bank
  active : BitVec 1
  load : Option Load
  lastThread : BitVec 3
deriving DecidableEq, Repr

/-- A core after reset. -/
def Core.reset : Core := ⟨[], ⟨[], []⟩, ⟨[], []⟩, 0, none, 7⟩

/-- Whose command it is: an operation of a launch, or a gather command of a Shoal window (R353). -/
inductive CmdWho where
  | op (e : EKey) (idx : Nat)
  | gather (p : BitVec 4) (win : Nat) (n : Nat)
deriving DecidableEq, Repr

/-- A candidate (R309). `since` is the first CCLK in which it is one. Its header lacks GEN, CTAG and SCALE, which the grant
fills in (R367, R397). -/
structure Cand where
  who : CmdWho
  port : Nat
  cls : BitVec 2
  part : BitVec 4
  func : BitVec 12
  since : Nat
  retries : Nat
  hdr : List Dword
  body : List Dword
deriving DecidableEq, Repr

/-- Where an admitted command stands: in its group's queue, in the group adapter, or sent and not reported. -/
inductive CmdStage where
  | queued | granted | sent
deriving DecidableEq, Repr

/-- An admitted command that has not been reported: it holds an engine-queue entry and a CTAG (R311, R370). -/
structure Cmd where
  who : CmdWho
  port : Nat
  ctag : BitVec 6
  cls : BitVec 2
  part : BitVec 4
  func : BitVec 12
  since : Nat
  retries : Nat
  stage : CmdStage
  /-- CCLK of admission (R315), whether it was admitted aged (R318), and overtake counters for classes 0 to 2 (R319) -/
  stamp : Nat
  aged : Bool
  ovt : List Nat
  hdr : List Dword
  body : List Dword
  /-- device time of the ECP handshake (R494) -/
  sentT : Dword
deriving DecidableEq, Repr

/-- Dispatch: candidates in the order in which they became so, admitted commands in the order of admission, deficit counters
(key group * 16 + partition), ring pointers and last functions (R315). -/
structure Disp where
  cands : List Cand
  cmds : List Cmd
  deficit : Tbl Nat
  ptr : Tbl Nat
  rr : Tbl Nat
  /-- a register's word before the writes of the CCLK whose number plus 1 stands beside it (R326) -/
  prior : Tbl (Nat × Word)
deriving DecidableEq, Repr

/-- Dispatch after reset. -/
def Disp.reset : Disp := ⟨[], [], [], [], [], []⟩

/-- Port states (R510). -/
inductive PortState where
  | offline | inService | draining | resetting | ready | dead
deriving DecidableEq, Repr

/-- An engine port: service state, generation tag (R373), deferred change (R513: 1 ADD, 2 REMOVE, 3 READMIT), engine reset
requested at a device time, and what a partition or block reset waits for: 0 nothing, 1 its engine reset, 2 its engine reset
after which it returns to service (R510). -/
structure Port where
  st : PortState
  gen : BitVec 4
  defer : Nat
  reqT : Option Dword
  back : Nat
deriving DecidableEq, Repr

/-- A port after cold reset (R510). -/
def Port.reset : Port := ⟨.offline, 0, 0, none, 0⟩

/-- A scale entry (R396). -/
structure ScaleE where
  hist : List Word
  curMax : Word
  curClips : Word
  curElems : Word
  scale : BitVec 12
  clip : BitVec 8
  steps : Nat
  k : BitVec 3
  fmt : BitVec 6
  poison : Bool
  nonfin : Bool
deriving DecidableEq, Repr

/-- A scale entry after reset (R402). -/
def ScaleE.reset : ScaleE := ⟨List.replicate 8 0, 0, 0, 0, 0x7F0, 255, 0, 0, 3, false, false⟩

/-- Halt modes (R487). -/
inductive HaltMode where
  | run | paused | halted
deriving DecidableEq, Repr

/-- Lighthouse's parts that no register holds: the synchronised channels and mode (R487), the discrepancy counter and its
report (R488), ALIVE's level and whether it runs (R484 to R486), the device time of the latest heartbeat. -/
structure Lhse where
  a : Bool
  b : Bool
  mode : HaltMode
  disc : Nat
  discHeld : Bool
  alive : Bool
  aliveOn : Bool
  beatT : Dword
deriving DecidableEq, Repr

/-- Lighthouse after cold reset. -/
def Lhse.reset : Lhse := ⟨false, false, .run, 0, false, false, false, 0⟩

/-- The trace FIFO (R614), device-time bits [59:12] of the record sent last, and whether a TIME record must come next. -/
structure Trace where
  fifo : List Dword
  lastHi : Option (BitVec 48)
  gap : Bool
deriving DecidableEq, Repr

/-- Trace after reset. -/
def Trace.reset : Trace := ⟨[], none, true⟩

end Sys2Proof.Machine
end

