-- ==== Sys2Proof/Machine/Kinds3.lean ====
section
/-! DEFINITION. The records of Shoal (spec/10_shoal_lookup_coalescing.md) and of audit and digests
(spec/14_determinism_and_audit.md). -/
namespace Sys2Proof.Machine

/-! ## Shoal -/

/-- A lookup launch's index list (R337, R338): its block, N, S, the lines, and the reads that have not returned. `asked` once
the index store has had room for its words; `waits` once the launch has had to wait at stage 7 for a window of its own to open
(R342). -/
structure Lookup where
  e : EKey
  part : BitVec 4
  blk : Addr
  n : Nat
  segs : Nat
  lines : List Line
  asked : Bool
  missing : Nat
  err : Bool
  waits : Bool
deriving DecidableEq, Repr

/-- One gather entry of a window (R344, R350): shard, table, row, the intake position of the index that made it, its Lagoon
way (set * 4 + way; none for a pass-through entry), and once sealed its location and gather command. -/
structure GRow where
  shard : Nat
  table : Nat
  row : Nat
  pos : Nat
  way : Option Nat
  loc : Nat
  cmd : Nat
deriving DecidableEq, Repr

/-- One launch of a window: its indices as (table, row) in order, the gather entry of each inserted index, how many of them
passed through, and the map writes that are not acknowledged. -/
structure Member where
  e : EKey
  idx : List (Nat × Nat)
  asn : List Nat
  pass : Nat
  acks : Nat
deriving DecidableEq, Repr

/-- Window states (R360). -/
inductive WinState where
  | opened | sealing | gathering | releasing
deriving DecidableEq, Repr

/-- SHOL.WIN_STAT.STATE codes (R360). -/
def WinState.code : WinState → Nat
  | .opened => 1 | .sealing => 2 | .gathering => 3 | .releasing => 4

/-- A window (R341 to R360): partition, window number, plan slot, WIN_CFG and the closing time as they stood at its opening
(R346, in units of 2^-16 ns), launches, worst-case row bytes, what its closing fixed, gather entries, and the gather commands
that have not reported. -/
structure Win where
  part : BitVec 4
  num : Nat
  slot : Nat
  alone : Bool
  st : WinState
  cfg : Word
  tClose : Nat
  members : List Member
  worst : Nat
  epoch : BitVec 48
  cls : BitVec 2
  rows : List GRow
  left : List Nat
deriving DecidableEq, Repr

/-- A read of a partition's table directory (R340): by RELOAD or at enabling; it waits for sealed windows' gathers first. -/
structure TblRead where
  part : BitVec 4
  cmd : Bool
  started : Bool
  lines : List Line
  missing : Nat
  err : Bool
deriving DecidableEq, Repr

/-- Shoal: index lists, launches whose indices wait for the intake pipe, windows oldest first, closed windows that wait for
the seal pipe, window numbers of the partitions, directory copies, directory reads. -/
structure Shoal where
  lookups : List Lookup
  intake : List (BitVec 4 × Nat × EKey)
  wins : List Win
  sealQ : List (BitVec 4 × Nat)
  nextNum : Tbl Nat
  dirs : Tbl (Option (List Line))
  reads : List TblRead
deriving DecidableEq, Repr

/-- Shoal after reset. -/
def Shoal.reset : Shoal := ⟨[], [], [], [], [], [], []⟩

/-! ## Audit -/

/-- What Landing reads for one audited launch (R465): its program entry, the model line, PART.MODEL at the start. -/
structure AudIn where
  e : EKey
  prog : Option Line
  model : Option Line
  mid : Word
deriving DecidableEq, Repr

/-- A registration command in progress (R461): the step reached, the table line it acts on, lines still to hash, the address
of the next, and the hash so far. -/
structure DigCmd where
  op : BitVec 4
  part : BitVec 4
  step : Nat
  entry : Line
  left : Nat
  addr : Addr
  hash : List Word
deriving DecidableEq, Repr

/-- The hash engine's and the run's parts that no register holds (R452 to R465): reads of audited launches, kept model lines,
launches whose digest-log entry is not acknowledged, the registration command, the write-backs of ARM that are not
acknowledged, and whether GO waits for its edge. -/
structure Audit where
  ins : List AudIn
  models : Tbl (Option Line)
  logs : List EKey
  dig : Option DigCmd
  going : Bool
deriving DecidableEq, Repr

/-- No audit work. -/
def Audit.reset : Audit := ⟨[], [], [], none, false⟩

end Sys2Proof.Machine
end

