-- ==== Sys2Proof/Machine/Kinds4.lean ====
section
/-! DEFINITION. The records of power (spec/17_power_domains.md), Beacon (spec/13_beacon_interrupts.md), device time
(spec/18_clock_domains.md R555 to R560), Causeway (spec/20_ports_and_signals.md R601, R604) and Keeper
(spec/19_keeper_firmware.md). -/
namespace Sys2Proof.Machine

/-! ## Power -/

/-- A power domain's PWR_REQ, ISO_EN, RET_EN and synchronised PWR_ACK, and the device time of the latest change of PWR_REQ
(R526 to R528). -/
structure Dom where
  req : Bool
  iso : Bool
  ret : Bool
  ack : Bool
  reqT : Dword
deriving DecidableEq, Repr

/-- A domain while cold reset is asserted (R538). -/
def Dom.off : Dom := ⟨false, true, false, false, 0⟩

/-- The domain's supply is on and its isolation is released (R527). -/
def Dom.up (d : Dom) : Bool := d.req && d.ack && !d.iso

/-- Where the block stands among its power states (R523 to R537); `down` is DROWSE or OFF reached. -/
inductive PwrMode where
  | active | idle | entering | down | waking
deriving DecidableEq, Repr

/-- What an entry leads to, or what a wake comes from. -/
inductive Depth where
  | drowse | off | cold
deriving DecidableEq, Repr

/-- The power sequencer: the domains by number, the wake's wave (R533), whether a command started the entry, whether the
entry's step 3 has begun (R530), whether an entry is being undone (R528), a wake cause that waits for the power-down to end,
when the wake began, an S5 action that waits for a domain (R528, R529), consecutive quiet CCLKs and the device time at which
they began (R524, R530), and COLD_RST_N asserted. -/
structure Power where
  mode : PwrMode
  depth : Depth
  doms : Tbl Dom
  wave : Nat
  cmd : Bool
  flushed : Bool
  backOut : Bool
  want : Nat
  wakeT : Dword
  fatal : Bool
  quietC : Nat
  quietT : Dword
  coldHeld : Bool
deriving DecidableEq, Repr

/-- The sequencer at the release of cold reset (R538): wave 1 of the wake has been requested. -/
def Power.release : Power where
  mode := .waking
  depth := .cold
  doms := [(1, ⟨true, true, false, false, 0⟩), (2, ⟨true, true, false, false, 0⟩)]
  wave := 1
  cmd := false
  flushed := false
  backOut := false
  want := 0
  wakeT := 0
  fatal := false
  quietC := 0
  quietT := 0
  coldHeld := false

/-! ## Beacon -/

/-- Beacon's parts that no register holds: the conditions of the level sources as Beacon sees them (R439), the source each
target has claimed (R434), and the end of each group's hold-off, 0 when none runs (R437). -/
structure Beacon where
  seen : Tbl Bool
  claims : Tbl (Option Nat)
  hold : Tbl Dword
deriving DecidableEq, Repr

/-- Beacon after reset. -/
def Beacon.reset : Beacon := ⟨[], [], []⟩

/-! ## Device time -/

/-- Device time's corrections (R557, R560): nanoseconds left to slew, a step and a TIME.SET value that wait for the next ACLK
edge, and the device time of the latest pulse or of EN becoming 1 (R559). -/
structure TimeSync where
  slew : Int
  step : Dword
  set : Option Dword
  pulseT : Dword
deriving DecidableEq, Repr

/-- No correction. -/
def TimeSync.reset : TimeSync := ⟨0, 0, none, 0⟩

/-! ## Causeway -/

/-- Links in FDI state Active by number, credits returned to each group since its link became Active (R601), and the payloads of the
flits sent down each link since the latest CCLK edge (R599), oldest first. -/
structure Causeway where
  links : Tbl Bool
  credits : Tbl Nat
  down : Tbl (List Line)
deriving DecidableEq, Repr

/-- Causeway after reset. -/
def Causeway.reset : Causeway := ⟨[], [], []⟩

/-! ## Test ports (R612) -/

/-- The phases of a scan of the TAP controller. -/
inductive ScanPhase where
  | select | capture | shift | exit1 | pause | exit2 | update
deriving DecidableEq, Repr

/-- States of the TAP controller: Test-Logic-Reset, Run-Test/Idle, and the phases of a scan of the data or the instruction register. -/
inductive TapState where
  | reset | idle
  | scan (ir : Bool) (phase : ScanPhase)
deriving DecidableEq, Repr

/-- Instructions of the TAP; a private one by its code. -/
inductive TapInstr where
  | bypass | idcode
  | priv (code : List Bool)
deriving DecidableEq, Repr

/-- The TAP: its controller, the instruction in effect, and the shift register between TDI and TDO, nearest to TDO first. -/
structure Tap where
  st : TapState
  instr : TapInstr
  shift : List Bool
deriving DecidableEq, Repr

/-- The TAP in Test-Logic-Reset, where IDCODE is in effect. -/
def Tap.reset : Tap := ⟨.reset, .idcode, []⟩

/-- The test ports: TEST_MODE, whether TRST_N is asserted, the TAP, and the wrapper's bypass bit, which WSO shows. -/
structure TestPorts where
  mode : Bool
  trst : Bool
  tap : Tap
  wby : Bool
deriving DecidableEq, Repr

/-- As functional mode keeps them: TEST_MODE at 0, TRST_N at 0. -/
def TestPorts.reset : TestPorts := ⟨false, true, Tap.reset, false⟩

/-! ## Keeper -/

/-- A mailbox command in progress (R571): OP, slot, the step reached, lines copied, requests outstanding, the ERR with which a
LOAD that has failed will end, and the record that is being written. -/
structure MboxCmd where
  op : BitVec 4
  slot : BitVec 1
  step : Nat
  lines : List Line
  missing : Nat
  code : BitVec 4
  newRec : Line
deriving DecidableEq, Repr

/-- Keeper: a boot that is due (R567), the current state record, if any (R567), the running image's SVN, when it was started
(R572), and the mailbox command. -/
structure Keep where
  bootDue : Bool
  record : Option Line
  svn : Word
  jumpT : Dword
  cmd : Option MboxCmd
deriving DecidableEq, Repr

/-- Keeper before its first boot. -/
def Keep.reset : Keep := ⟨false, none, 0, 0, none⟩

end Sys2Proof.Machine
end

