-- ==== Sys2Proof/Machine/Regs.lean ====
section
/-! DEFINITION. The register map behind the RDP: the page index (spec/02_register_pages.md R47), the common page header (R43)
and, for every page, its functional registers with their access types and reset values as the tables of spec/02 to spec/20 give them. -/
namespace Sys2Proof.Machine

/-- The kinds of register page (R47). FTCH and FERY pages differ by instance (R137, R195, R196). -/
inductive PageKind where
  | glbl | clkr | pwrc | reef | bcon | lhse | keep | time
  | ftch | ftchRest | fery | ferySlices | feryRest
  | shol | sync | disp | harb | audt | dbug | scal | intg | part | eprt | skry
deriving DecidableEq, Repr

/-- One row of a page's register table: `count` registers of 32 bits from offset `off`, `stride` bytes apart. A bit in no
mask is RO or RSV. `keep` says that the row survives DROWSE, a block compute reset and a soft reset of its unit (R44, R522).
`rng` lists the fields with a range: low bit, width, least and greatest value. -/
structure RegSpec where
  off : Nat
  stride : Nat
  count : Nat
  rw : BitVec 32
  w1c : BitVec 32
  w1s : BitVec 32
  wo : BitVec 32
  reset : BitVec 32
  keep : Bool
  rng : List (Nat × Nat × Nat × Nat)
deriving DecidableEq, Repr

/-- The page at a slot of the first megabyte and its instance (R47); `none` for an unassigned slot (R31). -/
def pageAt (slot : Nat) : Option (PageKind × Nat) :=
  match slot with
  | 0x00 => some (.glbl, 0) | 0x01 => some (.clkr, 0) | 0x02 => some (.pwrc, 0) | 0x03 => some (.reef, 0)
  | 0x04 => some (.bcon, 0) | 0x05 => some (.lhse, 0) | 0x06 => some (.keep, 0) | 0x07 => some (.time, 0)
  | 0x08 => some (.ftch, 0) | 0x0C => some (.fery, 0) | 0x0D => some (.ferySlices, 1)
  | 0x10 => some (.shol, 0) | 0x11 => some (.sync, 0) | 0x12 => some (.disp, 0) | 0x13 => some (.harb, 0)
  | 0x14 => some (.audt, 0) | 0x15 => some (.dbug, 0) | 0x16 => some (.scal, 0) | 0x17 => some (.intg, 0)
  | n =>
    if 0x09 ≤ n ∧ n ≤ 0x0B then some (.ftchRest, n - 0x08)
    else if 0x0E ≤ n ∧ n ≤ 0x0F then some (.feryRest, n - 0x0C)
    else if 0x20 ≤ n ∧ n ≤ 0x2F then some (.part, n - 0x20)
    else if 0x30 ≤ n ∧ n ≤ 0xAF then some (.eprt, n - 0x30)
    else if 0xB0 ≤ n ∧ n ≤ 0xBF then some (.skry, n - 0xB0)
    else none

/-- `PG_ID.TYPE` (R47). -/
def PageKind.typeCode : PageKind → Nat
  | .glbl => 0x01 | .clkr => 0x02 | .pwrc => 0x03 | .reef => 0x04 | .bcon => 0x05 | .lhse => 0x06 | .keep => 0x07 | .time => 0x08
  | .ftch => 0x09 | .ftchRest => 0x09 | .fery => 0x0A | .ferySlices => 0x0A | .feryRest => 0x0A
  | .shol => 0x0B | .sync => 0x0C | .disp => 0x0D | .harb => 0x0E | .audt => 0x0F | .dbug => 0x10 | .scal => 0x11 | .intg => 0x12
  | .part => 0x20 | .eprt => 0x30 | .skry => 0x40

/-- The power domain that `PG_STAT.POWERED` reflects (R47). -/
def PageKind.domain (k : PageKind) (inst : Nat) : Nat :=
  match k with
  | .pwrc | .lhse | .time => 0
  | .glbl | .clkr | .reef | .bcon | .intg | .part => 1
  | .keep => 20
  | .ftch | .ftchRest => 4
  | .fery | .ferySlices | .feryRest => 3
  | .shol => 21 | .sync => 13 | .disp => 15 | .harb => 23 | .audt => 25 | .dbug => 31 | .scal => 30
  | .eprt => if inst < 64 then 26 else 27
  | .skry => 16 + inst / 4

/-- Pages whose `PG_CTRL` reads 1 and ignores writes (R44). -/
def PageKind.fixedCtrl : PageKind → Bool
  | .glbl | .clkr | .pwrc | .reef | .lhse | .time | .intg | .keep => true
  | _ => false

/-- `PG_CAP.RETAINED`: the page's RW configuration fields are kept across DROWSE and block compute reset (R43, R522). -/
def PageKind.retained : PageKind → Bool
  | .keep | .disp | .dbug | .scal | .skry => false
  | _ => true

/-- The functional registers of a `GLBL` page. -/
def glblRegs : List RegSpec := [
  /- HW_VERSION -/ ⟨0x40, 0, 1, 0x0, 0x0, 0x0, 0x0, 0x10000, false, []⟩,
  /- IF_CAP -/ ⟨0x44, 0, 1, 0x0, 0x0, 0x0, 0x0, 0x100, false, []⟩,
  /- IF_NEGOTIATE -/ ⟨0x48, 0, 1, 0xffff, 0x0, 0x0, 0x0, 0x0, true, []⟩,
  /- IF_VERSION -/ ⟨0x4c, 0, 1, 0x0, 0x0, 0x0, 0x0, 0x100, true, []⟩,
  /- FMT_RING -/ ⟨0x50, 0, 1, 0x0, 0x0, 0x0, 0x0, 0x101, false, []⟩,
  /- FMT_CMDBUF -/ ⟨0x54, 0, 1, 0x0, 0x0, 0x0, 0x0, 0x101, false, []⟩,
  /- FMT_TMPL -/ ⟨0x58, 0, 1, 0x0, 0x0, 0x0, 0x0, 0x101, false, []⟩,
  /- FMT_PATCH -/ ⟨0x5c, 0, 1, 0x0, 0x0, 0x0, 0x0, 0x101, false, []⟩,
  /- FMT_PROG -/ ⟨0x60, 0, 1, 0x0, 0x0, 0x0, 0x0, 0x101, false, []⟩,
  /- ID_WIDTH0 -/ ⟨0x64, 0, 1, 0x0, 0x0, 0x0, 0x0, 0x40c100e, false, []⟩,
  /- ID_WIDTH1 -/ ⟨0x68, 0, 1, 0x0, 0x0, 0x0, 0x0, 0x70e05, false, []⟩,
  /- CONFIG -/ ⟨0x6c, 0, 1, 0x0, 0x0, 0x0, 0x0, 0x0, false, []⟩,
  /- STATUS -/ ⟨0x70, 0, 1, 0x0, 0x0, 0x0, 0x0, 0x0, false, []⟩,
  /- REFUSED_COUNT -/ ⟨0x74, 0, 1, 0xffffffff, 0x0, 0x0, 0x0, 0x0, true, []⟩,
  /- REFUSED_TAG -/ ⟨0x78, 0, 1, 0x0, 0x80000000, 0x0, 0x0, 0x0, true, []⟩,
  /- REFUSED_ADDR -/ ⟨0x7c, 0, 1, 0x0, 0x0, 0x0, 0x0, 0x0, true, []⟩,
  /- SCRATCH -/ ⟨0x80, 0, 1, 0xffffffff, 0x0, 0x0, 0x0, 0x0, true, []⟩
]

/-- The functional registers of a `CLKR` page. -/
def clkrRegs : List RegSpec := [
  /- LOCK_CFG -/ ⟨0x40, 0, 1, 0xffe, 0x0, 0x0, 0x0, 0x0, true, []⟩,
  /- MULT0 -/ ⟨0x44, 0, 1, 0xffffffff, 0x0, 0x0, 0x0, 0x10100a10, true, [(0, 8, 1, 20), (8, 8, 1, 20), (16, 8, 1, 20), (24, 8, 1, 20)]⟩,
  /- MULT -/ ⟨0x48, 4, 2, 0xffffffff, 0x0, 0x0, 0x0, 0x10101010, true, [(0, 8, 1, 20), (8, 8, 1, 20), (16, 8, 1, 20), (24, 8, 1, 20)]⟩,
  /- ALIGN_STAT -/ ⟨0x50, 0, 1, 0x0, 0x0, 0x0, 0x0, 0x0, true, []⟩,
  /- ALIGN_FAILS -/ ⟨0x54, 0, 1, 0xffffffff, 0x0, 0x0, 0x0, 0x0, true, []⟩,
  /- ALIGN_LOSSES -/ ⟨0x58, 0, 1, 0xffffffff, 0x0, 0x0, 0x0, 0x0, true, []⟩,
  /- MEASURE(i) -/ ⟨0x60, 4, 12, 0x0, 0x0, 0x0, 0x0, 0x0, true, []⟩,
  /- RST_CMD -/ ⟨0x100, 0, 1, 0x3ff, 0x0, 0x0, 0xf0000000, 0x0, true, []⟩,
  /- RST_STAT -/ ⟨0x104, 0, 1, 0x0, 0x0, 0x0, 0x0, 0x0, true, []⟩,
  /- RST_DRAIN -/ ⟨0x108, 0, 1, 0xfffff, 0x0, 0x0, 0x0, 0x3e8, true, [(0, 20, 1, 1048575)]⟩,
  /- ENG_RST_TIME -/ ⟨0x10c, 0, 1, 0xfffff, 0x0, 0x0, 0x0, 0x3e8, true, [(0, 20, 1, 1048575)]⟩,
  /- KEEPER_GRACE -/ ⟨0x110, 0, 1, 0xfffff, 0x0, 0x0, 0x0, 0x3e8, true, [(0, 20, 1, 1048575)]⟩,
  /- STALL_TIME -/ ⟨0x114, 0, 1, 0xfffff, 0x0, 0x0, 0x0, 0x2710, true, [(0, 20, 1, 1048575)]⟩,
  /- STALL -/ ⟨0x118, 0, 1, 0x0, 0xffff, 0x0, 0x0, 0x0, true, []⟩,
  /- SUSPECT_SEL -/ ⟨0x11c, 0, 1, 0xf, 0x0, 0x0, 0x0, 0x0, true, []⟩,
  /- SUSPECT -/ ⟨0x120, 0, 1, 0x0, 0x0, 0x0, 0x0, 0x0, true, []⟩,
  /- SUSPECT_HI -/ ⟨0x124, 0, 1, 0x0, 0x0, 0x0, 0x0, 0x0, true, []⟩,
  /- DUMP_BASE_LO -/ ⟨0x128, 0, 1, 0xfffff001, 0x0, 0x0, 0x0, 0x0, true, []⟩,
  /- DUMP_BASE_HI -/ ⟨0x12c, 0, 1, 0x1ffffff, 0x0, 0x0, 0x0, 0x0, true, []⟩,
  /- DUMP_SIZE -/ ⟨0x130, 0, 1, 0xffffff, 0x0, 0x0, 0x0, 0x4000, true, [(0, 24, 128, 16777215)]⟩,
  /- DUMP_CFG -/ ⟨0x134, 0, 1, 0x4001ffff, 0x0, 0x80000000, 0x0, 0x10000, true, [(0, 17, 0, 65536)]⟩,
  /- DUMP_STAT -/ ⟨0x138, 0, 1, 0xffff, 0x0, 0x0, 0x0, 0x0, true, []⟩,
  /- WINDOW_COUNT -/ ⟨0x13c, 0, 1, 0x0, 0x0, 0x0, 0x0, 0x0, true, []⟩,
  /- PART_RESETS -/ ⟨0x140, 0, 1, 0xffffffff, 0x0, 0x0, 0x0, 0x0, true, []⟩,
  /- BLOCK_RESETS -/ ⟨0x144, 0, 1, 0xffffffff, 0x0, 0x0, 0x0, 0x0, true, []⟩,
  /- LATE_MMP -/ ⟨0x148, 0, 1, 0xffffffff, 0x0, 0x0, 0x0, 0x0, true, []⟩,
  /- LATE_FAP -/ ⟨0x14c, 0, 1, 0xffffffff, 0x0, 0x0, 0x0, 0x0, true, []⟩,
  /- PORT_STATE(w) -/ ⟨0x180, 4, 16, 0x0, 0x0, 0x0, 0x0, 0x0, true, []⟩
]

/-- The functional registers of a `PWRC` page. -/
def pwrcRegs : List RegSpec := [
  /- CMD -/ ⟨0x40, 0, 1, 0x0, 0x0, 0x0, 0xf0000000, 0x0, true, []⟩,
  /- STAT -/ ⟨0x44, 0, 1, 0x0, 0x0, 0x0, 0x0, 0x0, true, []⟩,
  /- CTRL -/ ⟨0x48, 0, 1, 0x3, 0x0, 0x0, 0x0, 0x1, true, []⟩,
  /- IDLE_DELAY -/ ⟨0x4c, 0, 1, 0xffff, 0x0, 0x0, 0x0, 0x100, true, [(0, 16, 16, 65535)]⟩,
  /- DROWSE_AFTER -/ ⟨0x50, 0, 1, 0xfffff, 0x0, 0x0, 0x0, 0x2710, true, [(0, 20, 1, 1048575)]⟩,
  /- WAKE_EN -/ ⟨0x54, 0, 1, 0x707, 0x0, 0x0, 0x0, 0x402, true, [(8, 3, 0, 5)]⟩,
  /- WAKE_AT_LO -/ ⟨0x58, 0, 1, 0xffffffff, 0x0, 0x0, 0x0, 0x0, true, []⟩,
  /- WAKE_AT_HI -/ ⟨0x5c, 0, 1, 0xffffffff, 0x0, 0x0, 0x0, 0x0, true, []⟩,
  /- ACK_TIMEOUT -/ ⟨0x60, 0, 1, 0xfffff, 0x0, 0x0, 0x0, 0x3e8, true, [(0, 20, 1, 1048575)]⟩,
  /- DOM_ON -/ ⟨0x64, 0, 1, 0x0, 0x0, 0x0, 0x0, 0x1, true, []⟩,
  /- IDLE_STAT -/ ⟨0x68, 0, 1, 0x0, 0x0, 0x0, 0x0, 0x0, true, []⟩,
  /- LAST_WAKE -/ ⟨0x6c, 0, 1, 0x0, 0x0, 0x0, 0x0, 0x0, true, []⟩,
  /- LAST_ACK -/ ⟨0x70, 0, 1, 0x0, 0x0, 0x0, 0x0, 0x0, true, []⟩,
  /- DROWSES -/ ⟨0x74, 0, 1, 0xffffffff, 0x0, 0x0, 0x0, 0x0, true, []⟩,
  /- ABORTS -/ ⟨0x78, 0, 1, 0xffffffff, 0x0, 0x0, 0x0, 0x0, true, []⟩,
  /- WAKES -/ ⟨0x7c, 0, 1, 0xffffffff, 0x0, 0x0, 0x0, 0x0, true, []⟩
]

/-- The functional registers of a `REEF` page. -/
def reefRegs : List RegSpec := [
  /- CTRL -/ ⟨0x40, 0, 1, 0x107, 0x0, 0x0, 0x0, 0x102, true, [(0, 3, 1, 5)]⟩,
  /- STAT -/ ⟨0x44, 0, 1, 0x0, 0x0, 0x0, 0x0, 0x0, true, []⟩,
  /- PEND -/ ⟨0x48, 0, 1, 0x0, 0x3f, 0x0, 0x0, 0x0, true, []⟩,
  /- QUIET_TIME -/ ⟨0x4c, 0, 1, 0xfffff, 0x0, 0x0, 0x0, 0x3e8, true, [(0, 20, 1, 1000000)]⟩,
  /- RECOVERY_COUNT -/ ⟨0x50, 0, 1, 0xffffffff, 0x0, 0x0, 0x0, 0x0, true, []⟩,
  /- MERGE_COUNT -/ ⟨0x54, 0, 1, 0x0, 0x0, 0x0, 0x0, 0x0, true, []⟩,
  /- FER_STAT -/ ⟨0x58, 0, 1, 0xffff, 0x40000000, 0x0, 0x0, 0x0, true, []⟩,
  /- HIST_CTRL -/ ⟨0x5c, 0, 1, 0x1f, 0x0, 0x0, 0x0, 0x0, true, []⟩,
  /- COUNT(s) -/ ⟨0x60, 4, 6, 0xffffffff, 0x0, 0x0, 0x0, 0x0, true, []⟩,
  /- EVENTS -/ ⟨0x78, 0, 1, 0xffffffff, 0x0, 0x0, 0x0, 0x0, true, []⟩,
  /- DROPPED -/ ⟨0x7c, 0, 1, 0xffffffff, 0x0, 0x0, 0x0, 0x0, true, []⟩,
  /- FER -/ ⟨0x80, 4, 8, 0x0, 0x0, 0x0, 0x0, 0x0, true, []⟩,
  /- HIST -/ ⟨0xa0, 4, 8, 0x0, 0x0, 0x0, 0x0, 0x0, true, []⟩,
  /- RESET_LIMIT -/ ⟨0xc0, 0, 1, 0xff, 0x0, 0x0, 0x0, 0x8, true, [(0, 8, 1, 255)]⟩,
  /- RESET_WINDOW -/ ⟨0xc4, 0, 1, 0xfffff, 0x0, 0x0, 0x0, 0xea60, true, [(0, 20, 1, 1000000)]⟩,
  /- SCRUB_PASSES -/ ⟨0xc8, 0, 1, 0xffffffff, 0x0, 0x0, 0x0, 0x0, true, []⟩,
  /- SCRUB_FIXES -/ ⟨0xcc, 0, 1, 0xffffffff, 0x0, 0x0, 0x0, 0x0, true, []⟩,
  /- INJECT -/ ⟨0xd0, 0, 1, 0x0, 0x0, 0x0, 0xf0000007, 0x0, true, []⟩
]

/-- The functional registers of a `BCON` page. -/
def bconRegs : List RegSpec := [
  /- CLAIM(t) -/ ⟨0x40, 4, 8, 0x0, 0x0, 0x0, 0x0, 0x3ff, false, []⟩,
  /- COMPLETE(t) -/ ⟨0x60, 4, 8, 0x0, 0x0, 0x0, 0x3ff, 0x0, false, []⟩,
  /- TGT_CTRL(t) -/ ⟨0x80, 4, 8, 0x1, 0x0, 0x0, 0x0, 0x0, true, []⟩,
  /- TGT_STAT(t) -/ ⟨0xa0, 4, 8, 0x0, 0x0, 0x0, 0x0, 0x3ff, false, []⟩,
  /- SPURIOUS_COUNT -/ ⟨0xc0, 0, 1, 0xffffffff, 0x0, 0x0, 0x0, 0x0, false, []⟩,
  /- BADCOMP_COUNT -/ ⟨0xc4, 0, 1, 0xffffffff, 0x0, 0x0, 0x0, 0x0, false, []⟩,
  /- CLAIMS -/ ⟨0xc8, 0, 1, 0xffffffff, 0x0, 0x0, 0x0, 0x0, false, []⟩,
  /- HOLDOFF(g) -/ ⟨0x100, 4, 32, 0xffff, 0x0, 0x0, 0x0, 0x0, true, []⟩,
  /- HOLDOFF_RUN -/ ⟨0x180, 0, 1, 0x0, 0x0, 0x0, 0x0, 0x0, false, []⟩,
  /- ENABLE(w) -/ ⟨0x200, 4, 16, 0xffffffff, 0x0, 0x0, 0x0, 0x0, true, []⟩,
  /- PENDING(w) -/ ⟨0x240, 4, 16, 0x0, 0x0, 0x0, 0x0, 0x0, false, []⟩,
  /- CLAIMED(w) -/ ⟨0x280, 4, 16, 0x0, 0x0, 0x0, 0x0, 0x0, false, []⟩,
  /- SW(j) -/ ⟨0x2c0, 4, 8, 0x0, 0x0, 0xffffffff, 0x0, 0x0, false, []⟩,
  /- SW_CLR(j) -/ ⟨0x2e0, 4, 8, 0x0, 0x0, 0x0, 0xffffffff, 0x0, false, []⟩,
  /- TMASK(s) -/ ⟨0x400, 4, 512, 0xff, 0x0, 0x0, 0x0, 0x0, true, []⟩
]

/-- The functional registers of a `LHSE` page. -/
def lhseRegs : List RegSpec := [
  /- ALIVE_DIV -/ ⟨0x40, 0, 1, 0xf, 0x0, 0x0, 0x0, 0x6, true, []⟩,
  /- HEARTBEAT -/ ⟨0x44, 0, 1, 0x0, 0x0, 0x0, 0xffffffff, 0x0, true, []⟩,
  /- HB_TIMEOUT -/ ⟨0x48, 0, 1, 0xfffff, 0x0, 0x0, 0x0, 0x2710, true, [(0, 20, 1, 1048575)]⟩,
  /- HALT_DISC_TIME -/ ⟨0x4c, 0, 1, 0xffff, 0x0, 0x0, 0x0, 0x64, true, [(0, 16, 1, 65535)]⟩,
  /- STAT -/ ⟨0x50, 0, 1, 0x0, 0x0, 0x0, 0x0, 0x0, true, []⟩,
  /- HALT_EVENTS -/ ⟨0x54, 0, 1, 0xffffffff, 0x0, 0x0, 0x0, 0x0, true, []⟩,
  /- DISC_MAX -/ ⟨0x58, 0, 1, 0xffff, 0x0, 0x0, 0x0, 0x0, true, []⟩
]

/-- The functional registers of a `KEEP` page. -/
def keepRegs : List RegSpec := [
  /- CTRL -/ ⟨0x40, 0, 1, 0x0, 0x0, 0x0, 0x1, 0x0, false, []⟩,
  /- BOOT_STAT -/ ⟨0x44, 0, 1, 0x0, 0x0, 0x0, 0x0, 0x0, false, []⟩,
  /- SLOT_STAT -/ ⟨0x48, 0, 1, 0x0, 0x0, 0x0, 0x0, 0x0, false, []⟩,
  /- MIN_SVN -/ ⟨0x4c, 0, 1, 0x0, 0x0, 0x0, 0x0, 0x0, false, []⟩,
  /- HB_PERIOD -/ ⟨0x50, 0, 1, 0xfffff, 0x0, 0x0, 0x0, 0x3e8, false, [(0, 20, 10, 1048575)]⟩,
  /- TRIAL_TIME -/ ⟨0x54, 0, 1, 0xffff, 0x0, 0x0, 0x0, 0x7d0, false, [(0, 16, 1, 65535)]⟩,
  /- POLICY -/ ⟨0x58, 0, 1, 0xffff, 0x0, 0x0, 0x0, 0x0, false, []⟩,
  /- MBOX_CMD -/ ⟨0x5c, 0, 1, 0x1, 0x0, 0x0, 0xf0000000, 0x0, false, []⟩,
  /- MBOX_ADDR_LO -/ ⟨0x60, 0, 1, 0xffffffc0, 0x0, 0x0, 0x0, 0x0, false, []⟩,
  /- MBOX_ADDR_HI -/ ⟨0x64, 0, 1, 0x1ffffff, 0x0, 0x0, 0x0, 0x0, false, []⟩,
  /- MBOX_BYTES -/ ⟨0x68, 0, 1, 0x3ffff, 0x0, 0x0, 0x0, 0x0, false, []⟩,
  /- MBOX_SO -/ ⟨0x6c, 0, 1, 0x800fffff, 0x0, 0x0, 0x0, 0x0, false, []⟩,
  /- HB_COUNT -/ ⟨0x70, 0, 1, 0x0, 0x0, 0x0, 0x0, 0x0, false, []⟩
]

/-- The functional registers of a `TIME` page. -/
def timeRegs : List RegSpec := [
  /- NOW -/ ⟨0x40, 0, 1, 0x0, 0x0, 0x0, 0x0, 0x0, true, []⟩,
  /- NOW_HI -/ ⟨0x44, 0, 1, 0x0, 0x0, 0x0, 0x0, 0x0, true, []⟩,
  /- SET -/ ⟨0x48, 0, 1, 0x0, 0x0, 0x0, 0xffffffff, 0x0, true, []⟩,
  /- SET_HI -/ ⟨0x4c, 0, 1, 0x0, 0x0, 0x0, 0xffffffff, 0x0, true, []⟩,
  /- SYNC_VALUE -/ ⟨0x50, 0, 1, 0xffffffff, 0x0, 0x0, 0x0, 0x0, true, []⟩,
  /- SYNC_VALUE_HI -/ ⟨0x54, 0, 1, 0xffffffff, 0x0, 0x0, 0x0, 0x0, true, []⟩,
  /- SYNC_CTRL -/ ⟨0x58, 0, 1, 0xc0ffffff, 0x0, 0x0, 0x0, 0x400003e8, true, [(0, 24, 1, 16777215)]⟩,
  /- SYNC_PERIOD -/ ⟨0x5c, 0, 1, 0xffffffff, 0x0, 0x0, 0x0, 0x3b9aca00, true, [(0, 32, 1000, 4294967295)]⟩,
  /- SYNC_OFFSET -/ ⟨0x60, 0, 1, 0x0, 0x0, 0x0, 0x0, 0x0, true, []⟩,
  /- SYNC_STAT -/ ⟨0x64, 0, 1, 0x0, 0x0, 0x0, 0x0, 0x0, true, []⟩,
  /- SYNC_PULSES -/ ⟨0x68, 0, 1, 0xffffffff, 0x0, 0x0, 0x0, 0x0, true, []⟩
]

/-- The functional registers of a `FTCH` page. -/
def ftchRegs : List RegSpec := [
  /- STREAM_SEL -/ ⟨0x40, 0, 1, 0xfffff, 0x0, 0x0, 0x0, 0x0, true, []⟩,
  /- RING_BASE_LO -/ ⟨0x44, 0, 1, 0xfffff000, 0x0, 0x0, 0x0, 0x0, true, []⟩,
  /- RING_BASE_HI -/ ⟨0x48, 0, 1, 0x1ffffff, 0x0, 0x0, 0x0, 0x0, true, []⟩,
  /- RING_SIZE -/ ⟨0x4c, 0, 1, 0x1f, 0x0, 0x0, 0x0, 0x4, true, []⟩,
  /- TIMEOUT -/ ⟨0x50, 0, 1, 0xffffffff, 0x0, 0x0, 0x0, 0xf4240, true, [(0, 32, 1, 4294967295)]⟩,
  /- START -/ ⟨0x54, 0, 1, 0x1ffff, 0x0, 0x0, 0x0, 0x10000, true, []⟩,
  /- STREAM_CTRL -/ ⟨0x58, 0, 1, 0x1, 0x0, 0x0, 0x0, 0x0, true, []⟩,
  /- STREAM_STAT -/ ⟨0x5c, 0, 1, 0x0, 0x0, 0x0, 0x0, 0x40000, true, []⟩,
  /- DB_DROPPED -/ ⟨0x60, 0, 1, 0xffffffff, 0x0, 0x0, 0x0, 0x0, true, []⟩,
  /- EMPTY_DB -/ ⟨0x64, 0, 1, 0xffffffff, 0x0, 0x0, 0x0, 0x0, true, []⟩,
  /- STREAM_FAULTS -/ ⟨0x68, 0, 1, 0xffffffff, 0x0, 0x0, 0x0, 0x0, true, []⟩,
  /- TIMEOUTS -/ ⟨0x6c, 0, 1, 0xffffffff, 0x0, 0x0, 0x0, 0x0, true, []⟩,
  /- CH_STAT(j) -/ ⟨0x70, 4, 4, 0x0, 0x0, 0x0, 0x0, 0x0, true, []⟩
]

/-- The functional registers of a `FERY` page. -/
def feryRegs : List RegSpec := [
  /- SLICE -/ ⟨0x40, 0, 1, 0x7f, 0x0, 0x0, 0x0, 0x8, true, [(0, 7, 4, 64)]⟩,
  /- CTRL -/ ⟨0x44, 0, 1, 0x2, 0x0, 0x0, 0x0, 0x2, true, []⟩,
  /- PART_SEL -/ ⟨0x48, 0, 1, 0x3f, 0x0, 0x0, 0x0, 0x0, true, []⟩,
  /- TDIR_BASE_LO -/ ⟨0x4c, 0, 1, 0xfffff000, 0x0, 0x0, 0x0, 0x0, true, []⟩,
  /- TDIR_BASE_HI -/ ⟨0x50, 0, 1, 0x1ffffff, 0x0, 0x0, 0x0, 0x0, true, []⟩,
  /- TDIR_COUNT -/ ⟨0x54, 0, 1, 0x1fff, 0x0, 0x0, 0x0, 0x0, true, [(0, 13, 0, 4096)]⟩,
  /- TMPL_CMD -/ ⟨0x58, 0, 1, 0x4000fff, 0x0, 0x0, 0xf0000000, 0x0, true, []⟩,
  /- TMPL_SRC_LO -/ ⟨0x5c, 0, 1, 0xffffffc0, 0x0, 0x0, 0x0, 0x0, true, []⟩,
  /- TMPL_SRC_HI -/ ⟨0x60, 0, 1, 0x1ffffff, 0x0, 0x0, 0x0, 0x0, true, []⟩,
  /- TMPL_SO -/ ⟨0x64, 0, 1, 0x800fffff, 0x0, 0x0, 0x0, 0x0, true, []⟩,
  /- TMPL_DIAG -/ ⟨0x68, 0, 1, 0x0, 0x0, 0x0, 0x0, 0x0, true, []⟩,
  /- PARK_BASE_LO -/ ⟨0x6c, 0, 1, 0xfffff001, 0x0, 0x0, 0x0, 0x0, true, []⟩,
  /- PARK_BASE_HI -/ ⟨0x70, 0, 1, 0x1ffffff, 0x0, 0x0, 0x0, 0x0, true, []⟩,
  /- PINNED -/ ⟨0x74, 0, 1, 0x0, 0x0, 0x0, 0x0, 0x0, true, []⟩,
  /- EXPANSIONS -/ ⟨0x78, 0, 1, 0xffffffff, 0x0, 0x0, 0x0, 0x0, true, []⟩,
  /- CB_FAULTS -/ ⟨0x7c, 0, 1, 0xffffffff, 0x0, 0x0, 0x0, 0x0, true, []⟩,
  /- PATCH_FAULTS -/ ⟨0x80, 0, 1, 0xffffffff, 0x0, 0x0, 0x0, 0x0, true, []⟩,
  /- OPS_SKIPPED -/ ⟨0x84, 0, 1, 0xffffffff, 0x0, 0x0, 0x0, 0x0, true, []⟩,
  /- PARKS -/ ⟨0x88, 0, 1, 0xffffffff, 0x0, 0x0, 0x0, 0x0, true, []⟩
]

/-- The functional registers of a `SHOL` page. -/
def sholRegs : List RegSpec := [
  /- INDICES -/ ⟨0x40, 0, 1, 0xffffffff, 0x0, 0x0, 0x0, 0x0, false, []⟩,
  /- UNIQUE -/ ⟨0x44, 0, 1, 0xffffffff, 0x0, 0x0, 0x0, 0x0, false, []⟩,
  /- PASS_THROUGH -/ ⟨0x48, 0, 1, 0xffffffff, 0x0, 0x0, 0x0, 0x0, false, []⟩,
  /- WINDOWS -/ ⟨0x4c, 0, 1, 0xffffffff, 0x0, 0x0, 0x0, 0x0, false, []⟩,
  /- GATHER_CMDS -/ ⟨0x50, 0, 1, 0xffffffff, 0x0, 0x0, 0x0, 0x0, false, []⟩,
  /- GATHER_FAILS -/ ⟨0x54, 0, 1, 0xffffffff, 0x0, 0x0, 0x0, 0x0, false, []⟩,
  /- IDX_FAULTS -/ ⟨0x58, 0, 1, 0xffffffff, 0x0, 0x0, 0x0, 0x0, false, []⟩,
  /- CLOSES(k) -/ ⟨0x60, 4, 8, 0xffffffff, 0x0, 0x0, 0x0, 0x0, false, []⟩,
  /- LAGOON_USED -/ ⟨0x80, 0, 1, 0x0, 0x0, 0x0, 0x0, 0x0, false, []⟩,
  /- IDX_STORE -/ ⟨0x84, 0, 1, 0x0, 0x0, 0x0, 0x0, 0x0, false, []⟩,
  /- TBL_CMD -/ ⟨0x88, 0, 1, 0x3f, 0x0, 0x0, 0xf0000000, 0x0, true, []⟩,
  /- WIN_TIME(p) -/ ⟨0x100, 32, 16, 0xffffff, 0x0, 0x0, 0x0, 0x7d0, true, [(0, 24, 1, 16777215)]⟩,
  /- WIN_CFG(p) -/ ⟨0x104, 32, 16, 0xc0ff3fff, 0x0, 0x0, 0x0, 0xc0ff0400, true, [(16, 8, 1, 255), (0, 14, 64, 8192)]⟩,
  /- TBL_BASE_LO(p) -/ ⟨0x108, 32, 16, 0xfffff000, 0x0, 0x0, 0x0, 0x0, true, []⟩,
  /- TBL_BASE_HI(p) -/ ⟨0x10c, 32, 16, 0x1ffffff, 0x0, 0x0, 0x0, 0x0, true, []⟩,
  /- TBL_COUNT(p) -/ ⟨0x110, 32, 16, 0x7f, 0x0, 0x0, 0x0, 0x0, true, [(0, 7, 0, 64)]⟩,
  /- PLAN_BASE_LO(p) -/ ⟨0x114, 32, 16, 0xfffff001, 0x0, 0x0, 0x0, 0x0, true, []⟩,
  /- PLAN_BASE_HI(p) -/ ⟨0x118, 32, 16, 0x1ffffff, 0x0, 0x0, 0x0, 0x0, true, []⟩,
  /- PLAN_CFG(p) -/ ⟨0x11c, 32, 16, 0x1fffff, 0x0, 0x0, 0x0, 0x20100, true, [(16, 5, 2, 16), (0, 16, 1, 65535)]⟩,
  /- GATHER_WCET(p) -/ ⟨0x300, 4, 16, 0xffffffff, 0x0, 0x0, 0x0, 0x3e8, true, [(0, 32, 1, 4294967295)]⟩,
  /- WIN_STAT(p) -/ ⟨0x340, 4, 16, 0x0, 0x0, 0x0, 0x0, 0x0, false, []⟩,
  /- SHARD_PORT(p)(q) -/ ⟨0x400, 4, 64, 0xffffffff, 0x0, 0x0, 0x0, 0x0, true, []⟩,
  /- TIDE_CUR_LO(p) -/ ⟨0x800, 32, 16, 0x0, 0x0, 0x0, 0x0, 0x0, true, []⟩,
  /- TIDE_CUR_HI(p) -/ ⟨0x804, 32, 16, 0x0, 0x0, 0x0, 0x0, 0x0, true, []⟩,
  /- TIDE_STAT(p) -/ ⟨0x808, 32, 16, 0x0, 0x40000000, 0x0, 0x0, 0x0, true, []⟩,
  /- TIDE_LIVE(p) -/ ⟨0x80c, 32, 16, 0x0, 0x0, 0x0, 0x0, 0x0, true, []⟩,
  /- TIDE_SO(p) -/ ⟨0x810, 32, 16, 0x800fffff, 0x0, 0x0, 0x0, 0x0, true, []⟩,
  /- TIDE_ADVANCES(p) -/ ⟨0x814, 32, 16, 0xffffffff, 0x0, 0x0, 0x0, 0x0, true, []⟩,
  /- TIDE_REFUSED(p) -/ ⟨0x818, 32, 16, 0xffffffff, 0x0, 0x0, 0x0, 0x0, true, []⟩,
  /- OPT_OUT(j) -/ ⟨0xa00, 4, 128, 0xffffffff, 0x0, 0x0, 0x0, 0x0, true, []⟩
]

/-- The functional registers of a `SYNC` page. -/
def syncRegs : List RegSpec := [
  /- CTRL -/ ⟨0x40, 0, 1, 0x2, 0x0, 0x0, 0x0, 0x2, true, []⟩,
  /- POLL_INTERVAL -/ ⟨0x44, 0, 1, 0xffffff, 0x0, 0x0, 0x0, 0x1f40, true, [(0, 24, 256, 16777215)]⟩,
  /- POLL_LIMIT -/ ⟨0x48, 0, 1, 0x3ff, 0x0, 0x0, 0x0, 0x20, true, [(0, 10, 1, 512)]⟩,
  /- POLL_USED -/ ⟨0x4c, 0, 1, 0x0, 0x0, 0x0, 0x0, 0x0, true, []⟩,
  /- POLL_QUEUED -/ ⟨0x50, 0, 1, 0x0, 0x0, 0x0, 0x0, 0x0, true, []⟩,
  /- WAITERS -/ ⟨0x54, 0, 1, 0x0, 0x0, 0x0, 0x0, 0x0, true, []⟩,
  /- WAKE_STAT -/ ⟨0x58, 0, 1, 0x0, 0x0, 0x0, 0x0, 0x0, true, []⟩,
  /- MAX_PASS -/ ⟨0x5c, 0, 1, 0x1fff, 0x0, 0x0, 0x0, 0x0, true, []⟩,
  /- MIRROR_SEL -/ ⟨0x60, 0, 1, 0x3ff, 0x0, 0x0, 0x0, 0x0, true, []⟩,
  /- MIRROR_OBJ -/ ⟨0x64, 0, 1, 0x800fffff, 0x0, 0x0, 0x0, 0x0, true, []⟩,
  /- MIRROR_LO -/ ⟨0x68, 0, 1, 0xfffffff8, 0x0, 0x0, 0x0, 0x0, true, []⟩,
  /- MIRROR_HI -/ ⟨0x6c, 0, 1, 0x1ffffff, 0x0, 0x0, 0x0, 0x0, true, []⟩,
  /- ATOM_CMD -/ ⟨0x70, 0, 1, 0x0, 0x0, 0x0, 0xf0000000, 0x0, true, []⟩,
  /- POLL_READS -/ ⟨0x74, 0, 1, 0xffffffff, 0x0, 0x0, 0x0, 0x0, true, []⟩,
  /- ATOM_ADDR -/ ⟨0x78, 0, 1, 0xfffffff8, 0x0, 0x0, 0x0, 0x0, true, []⟩,
  /- ATOM_ADDR_HI -/ ⟨0x7c, 0, 1, 0x1ffffff, 0x0, 0x0, 0x0, 0x0, true, []⟩,
  /- ATOM_OPERAND -/ ⟨0x80, 0, 1, 0xffffffff, 0x0, 0x0, 0x0, 0x0, true, []⟩,
  /- ATOM_OPERAND_HI -/ ⟨0x84, 0, 1, 0xffffffff, 0x0, 0x0, 0x0, 0x0, true, []⟩,
  /- ATOM_COMPARE -/ ⟨0x88, 0, 1, 0xffffffff, 0x0, 0x0, 0x0, 0x0, true, []⟩,
  /- ATOM_COMPARE_HI -/ ⟨0x8c, 0, 1, 0xffffffff, 0x0, 0x0, 0x0, 0x0, true, []⟩,
  /- ATOM_RESULT -/ ⟨0x90, 0, 1, 0x0, 0x0, 0x0, 0x0, 0x0, true, []⟩,
  /- ATOM_RESULT_HI -/ ⟨0x94, 0, 1, 0x0, 0x0, 0x0, 0x0, 0x0, true, []⟩,
  /- UPDATES -/ ⟨0x98, 0, 1, 0xffffffff, 0x0, 0x0, 0x0, 0x0, true, []⟩,
  /- RELEASES -/ ⟨0x9c, 0, 1, 0xffffffff, 0x0, 0x0, 0x0, 0x0, true, []⟩,
  /- OVERFLOWS -/ ⟨0xa0, 0, 1, 0xffffffff, 0x0, 0x0, 0x0, 0x0, true, []⟩,
  /- STALE_WATCH -/ ⟨0xa4, 0, 1, 0xffffffff, 0x0, 0x0, 0x0, 0x0, true, []⟩
]

/-- The functional registers of a `DISP` page. -/
def dispRegs : List RegSpec := [
  /- ADMIT_AGE -/ ⟨0x40, 0, 1, 0xffff, 0x0, 0x0, 0x0, 0x400, false, [(0, 16, 64, 65535)]⟩,
  /- BURST(k) -/ ⟨0x44, 0, 1, 0x3ff, 0x0, 0x0, 0x0, 0x8, false, []⟩,
  /- BURST(k) -/ ⟨0x48, 0, 1, 0x3ff, 0x0, 0x0, 0x0, 0x8, false, []⟩,
  /- BURST(k) -/ ⟨0x4c, 0, 1, 0x3ff, 0x0, 0x0, 0x0, 0x4, false, []⟩,
  /- AHEAD_LIMIT(c) -/ ⟨0x54, 0, 1, 0x3f, 0x0, 0x0, 0x0, 0x20, false, [(0, 6, 1, 56)]⟩,
  /- AHEAD_LIMIT(c) -/ ⟨0x58, 0, 1, 0x3f, 0x0, 0x0, 0x0, 0x18, false, [(0, 6, 1, 56)]⟩,
  /- AHEAD_LIMIT(c) -/ ⟨0x5c, 0, 1, 0x3f, 0x0, 0x0, 0x0, 0x10, false, [(0, 6, 1, 56)]⟩,
  /- AHEAD_LIMIT(c) -/ ⟨0x60, 0, 1, 0x3f, 0x0, 0x0, 0x0, 0x8, false, [(0, 6, 1, 56)]⟩,
  /- EQ_RESERVE(c) -/ ⟨0x64, 0, 1, 0x7f, 0x0, 0x0, 0x0, 0x2, false, [(0, 7, 1, 64)]⟩,
  /- EQ_RESERVE(c) -/ ⟨0x68, 0, 1, 0x7f, 0x0, 0x0, 0x0, 0x4, false, [(0, 7, 1, 64)]⟩,
  /- EQ_RESERVE(c) -/ ⟨0x6c, 0, 1, 0x7f, 0x0, 0x0, 0x0, 0x8, false, [(0, 7, 1, 64)]⟩,
  /- EQ_RESERVE(c) -/ ⟨0x70, 0, 1, 0x7f, 0x0, 0x0, 0x0, 0x10, false, [(0, 7, 1, 64)]⟩,
  /- QUANTUM(p) -/ ⟨0x80, 4, 16, 0xff, 0x0, 0x0, 0x0, 0x4, false, [(0, 8, 1, 255)]⟩,
  /- GRP_STAT(g) -/ ⟨0xc0, 4, 8, 0x0, 0x0, 0x0, 0x0, 0x0, false, []⟩,
  /- GRANTS(c) -/ ⟨0xe0, 4, 4, 0xffffffff, 0x0, 0x0, 0x0, 0x0, false, []⟩,
  /- MAX_ARB(c) -/ ⟨0xf0, 4, 4, 0xffff, 0x0, 0x0, 0x0, 0x0, false, []⟩,
  /- MAX_EQ(c) -/ ⟨0x100, 4, 4, 0xffffffff, 0x0, 0x0, 0x0, 0x0, false, []⟩,
  /- AGED_COUNT -/ ⟨0x110, 0, 1, 0xffffffff, 0x0, 0x0, 0x0, 0x0, false, []⟩,
  /- STAT -/ ⟨0x114, 0, 1, 0x0, 0x0, 0x0, 0x0, 0x0, false, []⟩
]

/-- The functional registers of a `HARB` page. -/
def harbRegs : List RegSpec := [

]

/-- The functional registers of a `AUDT` page. -/
def audtRegs : List RegSpec := [
  /- FEV_BASE_LO -/ ⟨0x40, 0, 1, 0xfffff001, 0x0, 0x0, 0x0, 0x0, true, []⟩,
  /- FEV_BASE_HI -/ ⟨0x44, 0, 1, 0x1ffffff, 0x0, 0x0, 0x0, 0x0, true, []⟩,
  /- FEV_CMD -/ ⟨0x48, 0, 1, 0xfff, 0x0, 0x0, 0xf0000000, 0x0, true, []⟩,
  /- LAND_STAT -/ ⟨0x4c, 0, 1, 0x0, 0x0, 0x0, 0x0, 0x0, false, []⟩,
  /- RECORDS -/ ⟨0x50, 0, 1, 0xffffffff, 0x0, 0x0, 0x0, 0x0, false, []⟩,
  /- MESSAGES -/ ⟨0x54, 0, 1, 0xffffffff, 0x0, 0x0, 0x0, 0x0, false, []⟩,
  /- MSG_HELD -/ ⟨0x58, 0, 1, 0xffffffff, 0x0, 0x0, 0x0, 0x0, false, []⟩,
  /- MSG_DROPPED -/ ⟨0x5c, 0, 1, 0xffffffff, 0x0, 0x0, 0x0, 0x0, false, []⟩,
  /- LAND_ERRS -/ ⟨0x60, 0, 1, 0xffffffff, 0x0, 0x0, 0x0, 0x0, false, []⟩,
  /- MAX_ACCEPT -/ ⟨0x64, 0, 1, 0xffff, 0x0, 0x0, 0x0, 0x0, false, []⟩,
  /- ARING_BASE_LO(p) -/ ⟨0x100, 16, 16, 0xfffff000, 0x0, 0x0, 0x0, 0x0, true, []⟩,
  /- ARING_BASE_HI(p) -/ ⟨0x104, 16, 16, 0x1ffffff, 0x0, 0x0, 0x0, 0x0, true, []⟩,
  /- ARING_CFG(p) -/ ⟨0x108, 16, 16, 0xc000001f, 0x0, 0x0, 0x0, 0x20000006, true, [(0, 5, 6, 16)]⟩,
  /- ARING_CONS(p) -/ ⟨0x10c, 16, 16, 0xffffffff, 0x0, 0x0, 0x0, 0x0, true, []⟩,
  /- REPRO_CMD -/ ⟨0x200, 0, 1, 0x0, 0x0, 0x0, 0xf0000000, 0x0, false, []⟩,
  /- REPRO_STAT -/ ⟨0x204, 0, 1, 0x0, 0x0, 0x0, 0x0, 0x0, false, []⟩,
  /- REPRO_T0_LO -/ ⟨0x208, 0, 1, 0x0, 0x0, 0x0, 0x0, 0x0, false, []⟩,
  /- REPRO_T0_HI -/ ⟨0x20c, 0, 1, 0x0, 0x0, 0x0, 0x0, 0x0, false, []⟩,
  /- DIG_CMD -/ ⟨0x210, 0, 1, 0x3f, 0x0, 0x0, 0xf0000000, 0x0, true, []⟩,
  /- DIG_ADDR_LO -/ ⟨0x214, 0, 1, 0xffffffc0, 0x0, 0x0, 0x0, 0x0, true, []⟩,
  /- DIG_ADDR_HI -/ ⟨0x218, 0, 1, 0x1ffffff, 0x0, 0x0, 0x0, 0x0, true, []⟩,
  /- DIG_LINES -/ ⟨0x21c, 0, 1, 0xffffffff, 0x0, 0x0, 0x0, 0x0, true, []⟩,
  /- DIG_MODEL -/ ⟨0x220, 0, 1, 0xffffffff, 0x0, 0x0, 0x0, 0x0, true, []⟩,
  /- DIG_SO -/ ⟨0x224, 0, 1, 0x800fffff, 0x0, 0x0, 0x0, 0x0, true, []⟩,
  /- UNREG -/ ⟨0x228, 0, 1, 0xffffffff, 0x0, 0x0, 0x0, 0x0, false, []⟩,
  /- DIG_RESULT(i) -/ ⟨0x240, 4, 8, 0x0, 0x0, 0x0, 0x0, 0x0, false, []⟩,
  /- REPRO(p) -/ ⟨0x280, 4, 16, 0xc0000000, 0x10000000, 0x0, 0x0, 0x0, true, [(30, 2, 0, 2)]⟩,
  /- ENGSIG(p) -/ ⟨0x2c0, 4, 16, 0x0, 0x0, 0x0, 0x0, 0x0, false, []⟩,
  /- BREAKS(p) -/ ⟨0x300, 4, 16, 0xffffffff, 0x0, 0x0, 0x0, 0x0, false, []⟩,
  /- DTAB_BASE_LO(p) -/ ⟨0x400, 16, 16, 0xfffff001, 0x0, 0x0, 0x0, 0x0, true, []⟩,
  /- DTAB_BASE_HI(p) -/ ⟨0x404, 16, 16, 0x1ffffff, 0x0, 0x0, 0x0, 0x0, true, []⟩,
  /- DTAB_CFG(p) -/ ⟨0x408, 16, 16, 0xf, 0x0, 0x0, 0x0, 0x4, true, [(0, 4, 4, 12)]⟩,
  /- DLOG_BASE_LO(p) -/ ⟨0x500, 16, 16, 0xfffff000, 0x0, 0x0, 0x0, 0x0, true, []⟩,
  /- DLOG_BASE_HI(p) -/ ⟨0x504, 16, 16, 0x1ffffff, 0x0, 0x0, 0x0, 0x0, true, []⟩,
  /- DLOG_CFG(p) -/ ⟨0x508, 16, 16, 0xcf00001f, 0x0, 0x0, 0x0, 0x2f00000a, true, [(0, 5, 6, 16)]⟩,
  /- DLOG_CONS(p) -/ ⟨0x50c, 16, 16, 0xffffffff, 0x0, 0x0, 0x0, 0x0, true, []⟩
]

/-- The functional registers of a `DBUG` page. -/
def dbugRegs : List RegSpec := [
  /- TRACE_CTRL -/ ⟨0x40, 0, 1, 0x8000ffff, 0x0, 0x0, 0x0, 0x3e, false, []⟩,
  /- TRACE_PARTS -/ ⟨0x44, 0, 1, 0xffff, 0x0, 0x0, 0x0, 0xffff, false, []⟩,
  /- TRACE_RECORDS -/ ⟨0x48, 0, 1, 0xffffffff, 0x0, 0x0, 0x0, 0x0, false, []⟩,
  /- TRACE_DROPPED -/ ⟨0x4c, 0, 1, 0xffffffff, 0x0, 0x0, 0x0, 0x0, false, []⟩
]

/-- The functional registers of a `SCAL` page. -/
def scalRegs : List RegSpec := [
  /- SEL -/ ⟨0x40, 0, 1, 0x3fff, 0x0, 0x0, 0x0, 0x0, false, []⟩,
  /- CFG -/ ⟨0x44, 0, 1, 0x7003f, 0x0, 0x0, 0x0, 0x3, false, [(0, 6, 0, 15)]⟩,
  /- INIT -/ ⟨0x48, 0, 1, 0x0, 0x0, 0x0, 0xfff, 0x0, false, []⟩,
  /- STAT -/ ⟨0x4c, 0, 1, 0x0, 0x400000, 0x0, 0x0, 0xff0007f0, false, []⟩,
  /- HIST(i) -/ ⟨0x50, 4, 8, 0x0, 0x0, 0x0, 0x0, 0x0, false, []⟩,
  /- CUR_MAX -/ ⟨0x70, 0, 1, 0x0, 0x0, 0x0, 0x0, 0x0, false, []⟩,
  /- CUR_CLIPS -/ ⟨0x74, 0, 1, 0x0, 0x0, 0x0, 0x0, 0x0, false, []⟩,
  /- CUR_ELEMS -/ ⟨0x78, 0, 1, 0x0, 0x0, 0x0, 0x0, 0x0, false, []⟩,
  /- STEPS -/ ⟨0x7c, 0, 1, 0xffffffff, 0x0, 0x0, 0x0, 0x0, false, []⟩,
  /- NONFINITE -/ ⟨0x80, 0, 1, 0xffffffff, 0x0, 0x0, 0x0, 0x0, false, []⟩
]

/-- The functional registers of a `INTG` page. -/
def intgRegs : List RegSpec := [
  /- CTRL -/ ⟨0x40, 0, 1, 0x0, 0x0, 0x1, 0x0, 0x0, true, []⟩,
  /- MEMLAT -/ ⟨0x44, 0, 1, 0xffff, 0x0, 0x0, 0x0, 0xfa0, true, []⟩,
  /- ENGINE_TIMEOUT -/ ⟨0x48, 0, 1, 0xfffff, 0x0, 0x0, 0x0, 0x3e8, true, []⟩,
  /- FABRIC_LAT -/ ⟨0x4c, 0, 1, 0xffffff, 0x0, 0x0, 0x0, 0x4e20, true, []⟩,
  /- NODE_ID -/ ⟨0x50, 0, 1, 0xfff, 0x0, 0x0, 0x0, 0x0, true, []⟩,
  /- CCLK_MHZ -/ ⟨0x54, 0, 1, 0xfff, 0x0, 0x0, 0x0, 0x640, true, []⟩,
  /- HCLK_MHZ -/ ⟨0x58, 0, 1, 0xfff, 0x0, 0x0, 0x0, 0x3e8, true, []⟩,
  /- DECL_STATUS -/ ⟨0x5c, 0, 1, 0x0, 0x0, 0x0, 0x0, 0x0, true, []⟩,
  /- MEMLAT_CYC -/ ⟨0x60, 0, 1, 0x0, 0x0, 0x0, 0x0, 0x1900, true, []⟩
]

/-- The functional registers of a `PART` page. -/
def partRegs : List RegSpec := [
  /- CTRL -/ ⟨0x40, 0, 1, 0x1, 0x0, 0x0, 0x0, 0x0, true, []⟩,
  /- FUNC_RANGE -/ ⟨0x44, 0, 1, 0x1fff0fff, 0x0, 0x0, 0x0, 0x0, true, []⟩,
  /- SO_RANGE -/ ⟨0x48, 0, 1, 0x7fff3fff, 0x0, 0x0, 0x0, 0x0, true, []⟩,
  /- HARB_QUOTA -/ ⟨0x4c, 0, 1, 0x7f, 0x0, 0x0, 0x0, 0x0, true, []⟩,
  /- PORT_MASK -/ ⟨0x50, 4, 4, 0xffffffff, 0x0, 0x0, 0x0, 0x0, true, []⟩,
  /- CTX_BASE_LO -/ ⟨0x60, 0, 1, 0xffffff00, 0x0, 0x0, 0x0, 0x0, true, []⟩,
  /- CTX_BASE_HI -/ ⟨0x64, 0, 1, 0x1ffffff, 0x0, 0x0, 0x0, 0x0, true, []⟩,
  /- CTX_COUNT -/ ⟨0x68, 0, 1, 0x1ffff, 0x0, 0x0, 0x0, 0x0, true, [(0, 17, 0, 65536)]⟩,
  /- OWNER_FUNC -/ ⟨0x6c, 0, 1, 0xfff, 0x0, 0x0, 0x0, 0x0, true, []⟩,
  /- MODEL -/ ⟨0x70, 0, 1, 0x0, 0x0, 0x0, 0x0, 0x0, true, []⟩,
  /- STATE -/ ⟨0x74, 0, 1, 0x0, 0x0, 0x0, 0x0, 0x0, true, []⟩,
  /- CTX_CMD -/ ⟨0x78, 0, 1, 0xffff, 0x0, 0x0, 0xf4000000, 0x0, true, []⟩,
  /- CMD_ARG -/ ⟨0x7c, 0, 1, 0x80ffffff, 0x0, 0x0, 0x0, 0x0, true, []⟩,
  /- CMD_SO -/ ⟨0x80, 0, 1, 0x800fffff, 0x0, 0x0, 0x0, 0x0, true, []⟩,
  /- RELOC_FAULTS -/ ⟨0x84, 0, 1, 0xffffffff, 0x0, 0x0, 0x0, 0x0, true, []⟩,
  /- CTX_LOST -/ ⟨0x88, 0, 1, 0xffffffff, 0x0, 0x0, 0x0, 0x0, true, []⟩
]

/-- The functional registers of a `EPRT` page. -/
def eprtRegs : List RegSpec := [
  /- CFG -/ ⟨0x40, 0, 1, 0xf, 0x0, 0x0, 0x0, 0x0, true, []⟩,
  /- DEPTH -/ ⟨0x44, 0, 1, 0x0, 0x0, 0x0, 0x0, 0x0, false, []⟩,
  /- OCC -/ ⟨0x48, 0, 1, 0x0, 0x0, 0x0, 0x0, 0x0, false, []⟩,
  /- RETRY -/ ⟨0x4c, 0, 1, 0xf, 0x0, 0x0, 0x0, 0x2, true, []⟩,
  /- COMMANDS -/ ⟨0x50, 0, 1, 0xffffffff, 0x0, 0x0, 0x0, 0x0, false, []⟩,
  /- REPORTS -/ ⟨0x54, 0, 1, 0xffffffff, 0x0, 0x0, 0x0, 0x0, false, []⟩,
  /- RETRIES -/ ⟨0x58, 0, 1, 0xffffffff, 0x0, 0x0, 0x0, 0x0, false, []⟩,
  /- STALE -/ ⟨0x5c, 0, 1, 0xffffffff, 0x0, 0x0, 0x0, 0x0, false, []⟩,
  /- BAD_TAG -/ ⟨0x60, 0, 1, 0xffffffff, 0x0, 0x0, 0x0, 0x0, false, []⟩,
  /- ENGINE_ERRS -/ ⟨0x64, 0, 1, 0xffffffff, 0x0, 0x0, 0x0, 0x0, false, []⟩,
  /- BODY_REJECTS -/ ⟨0x68, 0, 1, 0xffffffff, 0x0, 0x0, 0x0, 0x0, false, []⟩,
  /- LAST_ERR -/ ⟨0x6c, 0, 1, 0x0, 0x80000000, 0x0, 0x0, 0x0, false, []⟩,
  /- BUSY_LO -/ ⟨0x70, 0, 1, 0xffffffff, 0x0, 0x0, 0x0, 0x0, false, []⟩,
  /- BUSY_HI -/ ⟨0x74, 0, 1, 0xffffffff, 0x0, 0x0, 0x0, 0x0, false, []⟩
]

/-- The functional registers of a `SKRY` page. -/
def skryRegs : List RegSpec := [
  /- CTRL -/ ⟨0x40, 0, 1, 0xffff, 0x0, 0x0, 0x0, 0x100, false, [(0, 16, 16, 65535)]⟩,
  /- BANK_STAT -/ ⟨0x44, 0, 1, 0x0, 0x0, 0x0, 0x0, 0x0, false, []⟩,
  /- FREE -/ ⟨0x48, 0, 1, 0x0, 0x0, 0x0, 0x0, 0x1400008, false, []⟩,
  /- IMEM_CMD -/ ⟨0x4c, 0, 1, 0x600003f, 0x0, 0x0, 0xf0000000, 0x0, false, []⟩,
  /- IMEM_ADDR_LO -/ ⟨0x50, 0, 1, 0xffffffc0, 0x0, 0x0, 0x0, 0x0, false, []⟩,
  /- IMEM_ADDR_HI -/ ⟨0x54, 0, 1, 0x1ffffff, 0x0, 0x0, 0x0, 0x0, false, []⟩,
  /- IMEM_LEN -/ ⟨0x58, 0, 1, 0xffff, 0x0, 0x0, 0x0, 0x0, false, []⟩,
  /- BRK_CTRL -/ ⟨0x5c, 0, 1, 0xc00001ff, 0x0, 0x0, 0x0, 0x0, false, []⟩,
  /- BRK_TAG -/ ⟨0x60, 0, 1, 0xffffffff, 0x0, 0x0, 0x0, 0x0, false, []⟩,
  /- BRK_MASK -/ ⟨0x64, 0, 1, 0xffffffff, 0x0, 0x0, 0x0, 0x0, false, []⟩,
  /- BRK_STAT -/ ⟨0x68, 0, 1, 0x0, 0x80000000, 0x0, 0x0, 0x0, false, []⟩,
  /- THR_SEL -/ ⟨0x6c, 0, 1, 0x7, 0x0, 0x0, 0x0, 0x0, false, []⟩,
  /- THR_CTRL -/ ⟨0x70, 0, 1, 0x0, 0x0, 0x0, 0xf0000000, 0x0, false, []⟩,
  /- THR_STAT -/ ⟨0x74, 0, 1, 0x0, 0x0, 0x0, 0x0, 0x0, false, []⟩,
  /- THR_STREAM -/ ⟨0x78, 0, 1, 0x0, 0x0, 0x0, 0x0, 0x0, false, []⟩,
  /- THR_OPS -/ ⟨0x7c, 0, 1, 0x0, 0x0, 0x0, 0x0, 0x0, false, []⟩,
  /- THR_PROGRESS_LO -/ ⟨0x80, 0, 1, 0x0, 0x0, 0x0, 0x0, 0x0, false, []⟩,
  /- THR_PROGRESS_HI -/ ⟨0x84, 0, 1, 0x0, 0x0, 0x0, 0x0, 0x0, false, []⟩,
  /- THR_RETIRED -/ ⟨0x88, 0, 1, 0x0, 0x0, 0x0, 0x0, 0x0, false, []⟩,
  /- INSN_SKIPPED -/ ⟨0x8c, 0, 1, 0xffffffff, 0x0, 0x0, 0x0, 0x0, false, []⟩,
  /- LOADS -/ ⟨0x90, 0, 1, 0xffffffff, 0x0, 0x0, 0x0, 0x0, false, []⟩,
  /- PREEMPTS -/ ⟨0x94, 0, 1, 0xffffffff, 0x0, 0x0, 0x0, 0x0, false, []⟩,
  /- THR_X(n) -/ ⟨0x100, 8, 32, 0xffffffff, 0x0, 0x0, 0x0, 0x0, false, []⟩,
  /- THR_X(n)_HI -/ ⟨0x104, 8, 32, 0xffffffff, 0x0, 0x0, 0x0, 0x0, false, []⟩
]

/-- The functional registers of pages 0x009 to 0x00B (R137). -/
def ftchRestRegs : List RegSpec := [⟨0x70, 4, 4, 0x0, 0x0, 0x0, 0x0, 0x0, true, []⟩]

/-- The functional registers of page 0x00D (R196). -/
def ferySliceRegs : List RegSpec := [⟨0x40, 4, 16, 0xffffffff, 0x0, 0x0, 0x0, 0x0, true, []⟩]

/-- The functional registers of a page. -/
def PageKind.regs : PageKind → List RegSpec

  | .glbl => glblRegs
  | .clkr => clkrRegs
  | .pwrc => pwrcRegs
  | .reef => reefRegs
  | .bcon => bconRegs
  | .lhse => lhseRegs
  | .keep => keepRegs
  | .time => timeRegs
  | .ftch => ftchRegs
  | .fery => feryRegs
  | .shol => sholRegs
  | .sync => syncRegs
  | .disp => dispRegs
  | .harb => harbRegs
  | .audt => audtRegs
  | .dbug => dbugRegs
  | .scal => scalRegs
  | .intg => intgRegs
  | .part => partRegs
  | .eprt => eprtRegs
  | .skry => skryRegs
  | .ftchRest => ftchRestRegs
  | .ferySlices => ferySliceRegs
  | .feryRest => []

/-- The row that holds an offset. -/
def RegSpec.covers (r : RegSpec) (off : Nat) : Bool :=
  decide (r.off ≤ off) && (if r.count ≤ 1 then decide (off = r.off)
    else decide ((off - r.off) % r.stride = 0) && decide ((off - r.off) / r.stride < r.count))

/-- The row of a page's table that holds an offset; `none` for an RSV offset. -/
def PageKind.spec (k : PageKind) (off : Nat) : Option RegSpec := k.regs.find? (fun r => r.covers off)

/-- The access masks of a header register (R43): RW, RW1C and RW1S bits. -/
def headerSpec (off : Nat) : RegSpec :=
  match off with
  | 0x0C => ⟨off, 0, 1, 0x1, 0x0, 0x2, 0x0, 0x0, true, []⟩
  | 0x14 => ⟨off, 0, 1, 0x0, 0xffff001f, 0x0, 0x0, 0x0, true, []⟩
  | 0x18 => ⟨off, 0, 1, 0xffff001f, 0x0, 0x0, 0x0, 0x0, true, []⟩
  | _ => ⟨off, 0, 1, 0x0, 0x0, 0x0, 0x0, 0x0, true, []⟩

/-- Reset value of the 32-bit register word at RDP byte address `a` below 1 MiB: the stored word of a header register
(PG_CTRL.EN as R632 states) or of a functional register. -/
def wordReset (a : Nat) : BitVec 32 :=
  match pageAt (a / 0x1000) with
  | none => 0
  | some (k, _) =>
    let off := a % 0x1000
    if off < 0x40 then (if off = 0x0C then (if k = .part then 0 else 1) else 0)
    else match k.spec off with
      | some r => r.reset
      | none => 0

/-- Key of a register in the register file: its RDP address, and a bank for a register that a selector chooses
among several (FERRY.PART_SEL, SYNC.MIRROR_SEL and the like). -/
def bankKey (bank addr : Nat) : Nat := bank * 0x4000000 + addr

/-- What a register that nothing has changed reads as: its reset value, in every bank. -/
def regReset (key : Nat) : BitVec 32 := wordReset (key % 0x4000000)

/-- Address of offset `off` of page slot `page` (R30). -/
def pageAddr (page off : Nat) : Nat := page * 0x1000 + off

end Sys2Proof.Machine
end

