-- ==== Sys2Proof/Machine/State.lean ====
section
/-! DEFINITION. The state of the block: its registers, and everything its units hold, as plain data. -/
namespace Sys2Proof.Machine

/-- Reasons for which the model stops. -/
inductive Fault where
  /-- a command whose operands no port of the block can carry (Sys2Proof/WellFormed.lean); raised by exec's meanings that
  take lists of lines; safe: nothing is claimed of such a command -/
  | illFormed
deriving DecidableEq, Repr

/-- Reasons for which the model refuses a command. -/
inductive Refusal where
  /-- no meaning yet; raised by Dispatch's refused arms only; safe -/
  | notModelled (mnemonic : String)
deriving DecidableEq, Repr

/-- The state of the block (INVENTORY.md, State). -/
structure State where
  /-- commands that wait, first in, first out -/
  pending : List Instr
  /-- the model's counter of open values (log entry 3) -/
  freeCtr : Nat
  /-- the model's count of CCLKs (log entry 5) -/
  cclk : Nat
  /-- RTL parameters ECP_COUNT, CW_MAP and KEEP_STORE_ADDR (spec/21 R617) -/
  ecpCount : Nat
  cwMap : BitVec 16
  keepStore : Addr
  /-- the register file: every RDP register that is stored as a word, by bank and address -/
  regs : Tbl Word
  rdp : Rdp
  /-- both copies of the function-to-partition map: none is unbound (R67, R480), and of the partition map's entries -/
  fpmA : Tbl (BitVec 16)
  fpmB : Tbl (BitVec 16)
  pmapA : Tbl (BitVec 256)
  pmapB : Tbl (BitVec 256)
  streams : Tbl StreamE
  entries : Tbl (Option Entry)
  fetch : Fetch
  ferry : Ferry
  harb : Harbour
  /-- Skerry cores by number -/
  cores : Tbl Core
  disp : Disp
  /-- engine ports by number -/
  ports : Tbl Port
  /-- scale entries (R396) and a grant's samples of them; Lighthouse -/
  scales : Tbl ScaleE
  lhse : Lhse
  trace : Trace
  /-- device time of each partition's latest progress (R496) -/
  progT : Tbl Dword
  sync : Sync
  land : Landing
  shoal : Shoal
  aud : Audit
  reef : Reef
  /-- requests outstanding at MMP and FAP, oldest first, and the generation tags (R507) -/
  mmp : List MReq
  fap : List MReq
  mmpGen : BitVec 4
  fapGen : BitVec 4
  rst : Resets
  /-- device time (R555), its corrections, and its CCLK view (R556): 2^-16 ns units, and whether the view holds still -/
  time : Dword
  tsync : TimeSync
  view : Nat
  viewHeld : Bool
  pwr : Power
  bcon : Beacon
  cw : Causeway
  keep : Keep
  test : TestPorts
deriving DecidableEq, Repr

/-- The machine right after reset: COLD_RST_N has just been released and wave 1 of the power-up is requested (R538); no command
waits, the RTL parameters have their defaults (R617) and every store reads as its chapter says for cold reset. Inputs that the
outside drives (PWR_ACK, HALT, ALIGN_REQ, the links) are at their inactive level (log entry 34). -/
def State.reset : State where
  pending := []
  freeCtr := 0
  cclk := 0
  ecpCount := 128
  cwMap := 0
  keepStore := 0
  regs := []
  rdp := ⟨0, 0, [], false⟩
  fpmA := []
  fpmB := []
  pmapA := []
  pmapB := []
  streams := []
  entries := []
  fetch := Fetch.reset
  ferry := Ferry.reset
  harb := Harbour.reset
  cores := []
  disp := Disp.reset
  ports := []
  scales := []
  lhse := Lhse.reset
  trace := Trace.reset
  progT := []
  sync := Sync.reset
  land := Landing.reset
  shoal := Shoal.reset
  aud := Audit.reset
  reef := Reef.reset
  mmp := []
  fap := []
  mmpGen := 0
  fapGen := 0
  rst := Resets.none
  time := 0
  tsync := TimeSync.reset
  view := 0
  viewHeld := false
  pwr := Power.release
  bcon := Beacon.reset
  cw := Causeway.reset
  keep := Keep.reset
  test := TestPorts.reset

end Sys2Proof.Machine
end

