-- ==== Sys2Proof/Machine/Ops.lean ====
section
/-! DEFINITION. The shared operations over the state: registers and their fields, streams, entries, slots, ownership lookups,
events, and memory and fabric requests. -/
namespace Sys2Proof.Machine

/-- AUDT.REPRO[p].TIMING_BROKEN (R466). -/
def tmBroken : Nat := 28

/-! ## Registers -/

/-- The stored word of a register (log entry 6). -/
def State.rd (s : State) (key : Nat) : Word := Tbl.get regReset s.regs key

/-- Store a register's word. -/
def State.wr (s : State) (key : Nat) (v : Word) : State := { s with regs := Tbl.set regReset s.regs key v }

/-- A field of a register. -/
def State.fld (s : State) (key lo w : Nat) : BitVec w := (s.rd key).extractLsb' lo w

/-- A field of a register, as a number. -/
def State.num (s : State) (key lo w : Nat) : Nat := (s.fld key lo w).toNat

/-- Set a field of a register. -/
def State.setF {w : Nat} (s : State) (key lo : Nat) (v : BitVec w) : State := s.wr key (putBits (s.rd key) lo v)

/-- One bit of a register. -/
def State.flag (s : State) (key i : Nat) : Bool := (s.rd key).getLsbD i

/-- Set or clear one bit of a register. -/
def State.setBit (s : State) (key i : Nat) (b : Bool) : State := s.setF key i (BitVec.ofBool b)

/-- Add to a 32-bit counter that saturates. -/
def State.bump (s : State) (key : Nat) (n : Nat := 1) : State := s.wr key (satAdd (s.rd key) n)

/-- Add to a 32-bit counter that wraps. -/
def State.bumpWrap (s : State) (key : Nat) : State := s.wr key (s.rd key + 1)

/-- Add one to a counter field of `w` bits that saturates. -/
def State.bumpF (s : State) (key lo w : Nat) : State := s.setF key lo (satAdd (s.fld key lo w) 1)

/-- Hold the greater of a field and `n`, saturating. -/
def State.maxF (s : State) (key lo w n : Nat) : State :=
  s.setF key lo (BitVec.ofNat w (max (s.num key lo w) (min n (2 ^ w - 1))))

/-- A 64-bit register held as two words. -/
def State.rd64 (s : State) (key : Nat) : Dword := s.rd (key + 4) ++ s.rd key

/-- Store a 64-bit register. -/
def State.wr64 (s : State) (key : Nat) (v : Dword) : State :=
  (s.wr key (v.extractLsb' 0 32)).wr (key + 4) (v.extractLsb' 32 32)

/-- An address register pair: LO holds bits [31:lo], HI bits [56:32]. -/
def State.addrPair (s : State) (key lo : Nat) : Addr :=
  ((s.rd (key + 4)).extractLsb' 0 25 ++ s.rd key) &&& ~~~(BitVec.ofNat 57 (2 ^ lo - 1))

/-- Set a bit of a page's PG_ERR (R43). -/
def State.setErr (s : State) (page bit : Nat) : State := s.setBit (pageAddr page 0x14) bit true

/-- PG_ERR.RO_WRITE (R41). -/
def roWrite : Nat := 2

/-- PG_ERR.CTRL_CONFLICT (R43). -/
def ctrlConflict : Nat := 3

/-- A page's PG_CTRL.EN (R632). -/
def State.pageEn (s : State) (page : Nat) : Bool := s.flag (pageAddr page 0x0C) 0

/-- Page slots (R47). -/
abbrev pGLBL := 0x00
abbrev pCLKR := 0x01
abbrev pPWRC := 0x02
abbrev pREEF := 0x03
abbrev pBCON := 0x04
abbrev pLHSE := 0x05
abbrev pKEEP := 0x06
abbrev pTIME := 0x07
abbrev pFTCH := 0x08
abbrev pFERY := 0x0C
abbrev pSHOL := 0x10
abbrev pSYNC := 0x11
abbrev pDISP := 0x12
abbrev pHARB := 0x13
abbrev pAUDT := 0x14
abbrev pDBUG := 0x15
abbrev pSCAL := 0x16
abbrev pINTG := 0x17
/-- Page of partition `p`, of engine port `n`, of core `k`. -/
def pPART (p : BitVec 4) : Nat := 0x20 + p.toNat
def pEPRT (n : Nat) : Nat := 0x30 + n
def pSKRY (k : BitVec 4) : Nat := 0xB0 + k.toNat

/-- Register `off` of partition `p`'s page. -/
def rPART (p : BitVec 4) (off : Nat) : Nat := pageAddr (pPART p) off
/-- Register `off` of port `n`'s page. -/
def rEPRT (n off : Nat) : Nat := pageAddr (pEPRT n) off
/-- Register `off` of core `k`'s page. -/
def rSKRY (k : BitVec 4) (off : Nat) : Nat := pageAddr (pSKRY k) off

/-- INTEG values in force (R56, R59). -/
def State.cclkMhz (s : State) : Nat := s.num (pageAddr pINTG 0x54) 0 12

/-- Nanoseconds to CCLK, rounded up (R59). -/
def State.nsToCclk (s : State) (ns : Nat) : Nat := ceilDiv (ns * s.cclkMhz) 1000

/-! ## Streams, entries, slots -/

/-- A stream's entry of the stream table. -/
def State.stream (s : State) (n : BitVec 14) : StreamE := Tbl.get (fun _ => StreamE.reset) s.streams n.toNat

/-- Write a stream's entry. -/
def State.setStream (s : State) (n : BitVec 14) (v : StreamE) : State :=
  { s with streams := Tbl.set (fun _ => StreamE.reset) s.streams n.toNat v }

/-- Change a stream's entry. -/
def State.updStream (s : State) (n : BitVec 14) (f : StreamE → StreamE) : State := s.setStream n (f (s.stream n))

/-- Place of an entry in the entry table. -/
def EKey.idx (k : EKey) : Nat := k.stream.toNat * 2 ^ 64 + k.seq.toNat

/-- An entry that Swisto holds. -/
def State.entry (s : State) (k : EKey) : Option Entry := Tbl.get (fun _ => none) s.entries k.idx

/-- Hold an entry, or let it go. -/
def State.setEntry (s : State) (k : EKey) (v : Option Entry) : State :=
  { s with entries := Tbl.set (fun _ => none) s.entries k.idx v }

/-- Change an entry that is held. -/
def State.updEntry (s : State) (k : EKey) (f : Entry → Entry) : State :=
  match s.entry k with
  | none => s
  | some e => s.setEntry k (some (f e))

/-- The entries that are held, by key. -/
def State.allEntries (s : State) : List (EKey × Entry) :=
  s.entries.filterMap (fun x => x.2.map (fun e => (⟨BitVec.ofNat 14 (x.1 / 2 ^ 64), BitVec.ofNat 64 x.1⟩, e)))

/-- The entries of one stream, in ring order. -/
def State.entriesOf (s : State) (n : BitVec 14) : List (EKey × Entry) := s.allEntries.filter (fun x => x.1.stream = n)

/-- Class of a stream (R20). -/
def classOf (n : BitVec 14) : BitVec 2 := n.extractLsb' 0 2

/-- Function of a stream (R20). -/
def funcOf (n : BitVec 14) : BitVec 12 := n.extractLsb' 2 12

/-- Stream of a function and a class (R20). -/
def streamOf (f : BitVec 12) (c : BitVec 2) : BitVec 14 := f ++ c

/-- A Harbour slot. -/
def State.slot (s : State) (k : Nat) : Slot := Tbl.get (fun _ => Slot.reset) s.harb.slots k

/-- Write a Harbour slot. -/
def State.setSlot (s : State) (k : Nat) (v : Slot) : State :=
  { s with harb := { s.harb with slots := Tbl.set (fun _ => Slot.reset) s.harb.slots k v } }

/-- A stream is enabled in every state but DISABLED (R142). -/
def State.streamOn (s : State) (n : BitVec 14) : Bool := decide ((s.stream n).st ≠ .disabled)

/-- Some stream is enabled. -/
def State.anyStreamOn (s : State) : Bool := s.streams.any (fun x => decide (x.2.st ≠ .disabled))

/-! ## Ownership (R67, R480, R481): lookups read copy A, or copy B where copy A is uncorrectable -/

/-- A copy of a function's entry, and of a partition's entry. -/
def State.fpm (s : State) (b : Bool) (f : Nat) : BitVec 16 := Tbl.get (fun _ => 0#16) (if b then s.fpmB else s.fpmA) f
def State.pmapOf (s : State) (b : Bool) (p : Nat) : BitVec 256 := Tbl.get (fun _ => 0#256) (if b then s.pmapB else s.pmapA) p

/-- The copy of a map entry is uncorrectable (R481). -/
def State.mapBad (s : State) (pmap b : Bool) (i : Nat) : Bool := s.reef.bad.contains (pmap, b, i)

/-- The partition a function is bound to. -/
def State.partOf (s : State) (f : BitVec 12) : Option (BitVec 4) :=
  let e := s.fpm (s.mapBad false false f.toNat) f.toNat
  if e.getLsbD 6 then some (e.extractLsb' 0 4) else none

/-- A partition's entry of the partition map. -/
def State.pmap (s : State) (p : BitVec 4) : BitVec 256 := s.pmapOf (s.mapBad true false p.toNat) p.toNat

/-- The partition is enabled. -/
def State.partEn (s : State) (p : BitVec 4) : Bool := (s.pmap p).getLsbD 79

/-- A sync object lies in the partition's range (R271). -/
def State.soIn (s : State) (p : BitVec 4) (n : Nat) : Bool :=
  let b := ((s.pmap p).extractLsb' 32 14).toNat
  decide (b ≤ n) && decide (n < b + ((s.pmap p).extractLsb' 52 15).toNat)

/-- The partition that owns a sync object. -/
def State.soOwner (s : State) (n : Nat) : Option (BitVec 4) :=
  ((List.range 16).map (BitVec.ofNat 4)).find? (fun p => s.soIn p n)

/-- A port belongs to the partition. -/
def State.portIn (s : State) (p : BitVec 4) (n : Nat) : Bool :=
  decide (n < s.ecpCount) && (s.pmap p).getLsbD (128 + n)

/-- The partition that owns a port (R21). -/
def State.portOwner (s : State) (n : Nat) : Option (BitVec 4) :=
  ((List.range 16).map (BitVec.ofNat 4)).find? (fun p => s.portIn p n)

/-- The partition's ports in ascending order (R154). -/
def State.portsOf (s : State) (p : BitVec 4) : List Nat := (List.range 128).filter (fun n => s.portIn p n)

/-- Write both copies of a function's entry (R481). -/
def State.setFpm (s : State) (f : Nat) (v : BitVec 16) : State :=
  { s with fpmA := Tbl.set (fun _ => 0#16) s.fpmA f v, fpmB := Tbl.set (fun _ => 0#16) s.fpmB f v,
           reef := { s.reef with bad := s.reef.bad.filter (fun x => !(!x.1 && decide (x.2.2 = f))) } }

/-- Write both copies of a partition's entry (R481). -/
def State.setPmap (s : State) (p : BitVec 4) (v : BitVec 256) : State :=
  { s with pmapA := Tbl.set (fun _ => 0#256) s.pmapA p.toNat v, pmapB := Tbl.set (fun _ => 0#256) s.pmapB p.toNat v,
           reef := { s.reef with bad := s.reef.bad.filter (fun x => !(x.1 && decide (x.2.2 = p.toNat))) } }

/-! ## Open values -/

/-- The next open value (log entry 3). -/
def State.fresh (s : State) : BitVec 64 := Config.freeValue s.freeCtr

/-- Step past an open value that has been used. -/
def State.used (s : State) : State := { s with freeCtr := s.freeCtr + 1 }

/-! ## Time and power -/

/-- The CCLK view of device time, in nanoseconds (R556). -/
def State.viewTime (s : State) : Dword := BitVec.ofNat 64 (s.view / 65536)

/-- A power domain. -/
def State.dom (s : State) (d : Nat) : Dom := Tbl.get (fun _ => Dom.off) s.pwr.doms d

/-- A power domain's supply is on and its isolation released; PD0 always is (R520, R527). -/
def State.powered (s : State) (d : Nat) : Bool := decide (d = 0) || (s.dom d).up

/-! ## Trace, progress and timing breaks (R613, R496, R455) -/

/-- Produce a trace record for a partition: KIND in [63:60], the low 12 bits of device time below the fields (R613, R614). -/
def State.traceRec (s : State) (kind : Nat) (part : Option (BitVec 4)) (fields : Dword) : State :=
  let ctl := s.rd (pageAddr pDBUG 0x40)
  let parts := s.rd (pageAddr pDBUG 0x44)
  if s.pageEn pDBUG && bit ctl 31 && bit ctl kind && (match part with | some p => bit parts p.toNat | none => true) then
    let r := (BitVec.ofNat 64 kind <<< 60) ||| fields ||| (s.viewTime &&& 0xFFF)
    let hi := s.viewTime.extractLsb' 12 48
    let t : Dword := 0xF000000000000000#64 ||| (s.viewTime &&& 0x0FFFFFFFFFFFFFFF)
    let need := s.trace.gap || decide (s.trace.lastHi ≠ some hi)
    if s.trace.fifo.length + (if need then 2 else 1) ≤ 64 then
      { s with trace := ⟨s.trace.fifo ++ (if need then [t, r] else [r]), some hi, false⟩ }
    else
      (({ s with trace := { s.trace with gap := true } }).bump (pageAddr pDBUG 0x4C)).setErr pDBUG 16
  else s

/-- A partition makes progress now (R496). -/
def State.progress (s : State) (p : BitVec 4) : State := { s with progT := Tbl.set (fun _ => 0) s.progT p.toNat s.time }

/-- The run of R452 is RUNNING. -/
def State.runOn (s : State) : Bool := decide (s.fld (pageAddr pAUDT 0x204) 30 2 = 3#2)

/-- Partition p belongs to the run. -/
def State.inRun (s : State) (p : BitVec 4) : Bool := s.flag (pageAddr pAUDT 0x204) p.toNat

/-- Record a timing break for a partition of a running run (R455). -/
def State.timingBreak (s : State) (p : BitVec 4) : State :=
  if s.runOn && s.inRun p then
    ((s.setBit (pageAddr pAUDT (0x280 + 4 * p.toNat)) tmBroken true).bump (pageAddr pAUDT (0x300 + 4 * p.toNat))).setErr pAUDT 23
  else s

/-- A timing break for every partition of the run (R455). -/
def State.timingBreakAll (s : State) : State :=
  ((List.range 16).map (BitVec.ofNat 4)).foldl (fun s p => s.timingBreak p) s

/-- Every clock runs again (R525), which is a power-state change (R455). -/
def State.idleExit (s : State) : State :=
  if s.pwr.mode = .idle then { s.timingBreakAll with pwr := { s.pwr with mode := .active, quietC := 0 } } else s

/-! ## Resets in progress -/

/-- A partition's reset in progress (R498). -/
def State.partRun (s : State) (p : BitVec 4) : Option ResetRun := Tbl.get (fun _ => none) s.rst.parts p.toNat

/-- The partition's work is being discarded, by a reset of its own or of the block (R498, R503). -/
def State.resetting (s : State) (p : BitVec 4) : Bool := (s.partRun p).isSome || s.rst.block.isSome

/-! ## Cores and threads -/

/-- A core. -/
def State.core (s : State) (k : BitVec 4) : Core := Tbl.get (fun _ => Core.reset) s.cores k.toNat

/-- Write a core. -/
def State.setCore (s : State) (k : BitVec 4) (c : Core) : State :=
  { s with cores := Tbl.set (fun _ => Core.reset) s.cores k.toNat c }

/-- A thread of a core. -/
def Core.thread (c : Core) (t : BitVec 3) : Thread := Tbl.get (fun _ => Thread.reset) c.threads t.toNat

/-- A thread. -/
def State.thread (s : State) (k : BitVec 4) (t : BitVec 3) : Thread := (s.core k).thread t

/-- Write a thread. -/
def State.setThread (s : State) (k : BitVec 4) (t : BitVec 3) (v : Thread) : State :=
  let c := s.core k
  s.setCore k { c with threads := Tbl.set (fun _ => Thread.reset) c.threads t.toNat v }

/-- A candidate whose ISSUE has not left its thread is withdrawn (R226): the ISSUE stays unexecuted, and is tried again. -/
def State.withdrawIssue (s : State) (c : BitVec 4) (t : BitVec 3) : State :=
  match (s.thread c t).launch with
  | none => s
  | some k => match s.entry k with
    | none => s
    | some e =>
      let idx := (List.range e.ops.length).filter (fun i => decide (e.ops.getD i .idle = .cand true))
      idx.foldl (fun s i =>
        let s := { s with disp := { s.disp with cands := s.disp.cands.filter (fun x => decide (x.who ≠ CmdWho.op k i)) } }
        s.updEntry k (fun e => { e with ops := e.ops.set i .idle })) s

/-- Quiesce every thread of the block (R226, R487): each keeps the state that it held, and an ISSUE that was waiting is tried again. -/
def State.quiesceAll (s : State) : State :=
  (List.range 128).foldl (fun s i =>
    let c : BitVec 4 := BitVec.ofNat 4 (i / 8)
    let t : BitVec 3 := BitVec.ofNat 3 i
    let th := s.thread c t
    if th.st = .running ∨ th.st = .stalled ∨ th.st = .waiting then
      let s := s.withdrawIssue c t
      let th := s.thread c t
      s.setThread c t { th with st := .quiesced, saved := th.st, stall := (if th.stall = .issue then .retry else th.stall) }
    else s) s

/-- Release the quiesce: every thread returns to the state it held (R487). -/
def State.unquiesceAll (s : State) : State :=
  (List.range 128).foldl (fun s i =>
    let c : BitVec 4 := BitVec.ofNat 4 (i / 8)
    let t : BitVec 3 := BitVec.ofNat 3 i
    let th := s.thread c t
    if th.st = .quiesced then s.setThread c t { th with st := th.saved } else s) s

/-! ## Ports -/

/-- A port that is in service or draining (R510). -/
def Port.serves (p : Port) : Bool := decide (p.st = .inService) || decide (p.st = .draining)

/-- An engine port. -/
def State.port (s : State) (n : Nat) : Port := Tbl.get (fun _ => Port.reset) s.ports n

/-- Write an engine port. -/
def State.setPort (s : State) (n : Nat) (p : Port) : State := { s with ports := Tbl.set (fun _ => Port.reset) s.ports n p }

/-! ## Events (R468 to R473) -/

/-- An event of a page with a code and a severity, naming nothing. -/
def ev (unit code sev : Nat) : Event :=
  ⟨0, 0, BitVec.ofNat 8 unit, BitVec.ofNat 8 code, sev, none, none, none, none, none, none⟩

/-- An event of the S4 or S5 kind takes the page's second slot (R471). -/
def Event.grave (e : Event) : Bool := decide (4 ≤ e.sev)

/-- An event is dropped (R471). -/
def State.dropEvent (s : State) : State := (s.bump (pageAddr pREEF 0x7C)).setErr pREEF 16

/-- Put an event into its page's waiting slot (R471). -/
def State.intake (s : State) (e : Event) : State :=
  let same := fun (w : Event) => decide (w.unit = e.unit) && decide (w.grave = e.grave)
  match s.reef.waiting.find? same with
  | none => { s with reef := { s.reef with waiting := s.reef.waiting ++ [e] } }
  | some w =>
    if w.sev < e.sev then
      { s with reef := { s.reef with waiting := (s.reef.waiting.filter (fun x => !same x)) ++ [e] } }.dropEvent
    else s.dropEvent

/-- Ask for a partition reset (R473, R498); none while one is asked for or runs already. -/
def State.wantPart (s : State) (p : BitVec 4) (c : Cause) : State :=
  if s.resetting p || s.rst.partWant.any (fun x => decide (x.1 = p)) then s
  else { s with rst := { s.rst with partWant := s.rst.partWant ++ [(p, c)] } }

/-- Ask for a block compute reset (R503); the first cause asked for stands, and none is asked for while one runs. -/
def State.wantBlock (s : State) (c : Cause) : State :=
  if s.rst.block.isSome then s else { s with rst := { s.rst with blockWant := some (s.rst.blockWant.getD c) } }

/-- The S5 action: the block stops, and every thread is quiesced (R473). -/
def State.stopBlock (s : State) : State := ({ s with rst := { s.rst with stopped := true } }).quiesceAll.wantBlock .s5

/-- Report an event and take the action of its severity that does not name a stream or a context (R468, R473). An S4 that
names no partition is handled as S5. -/
def State.raise (s : State) (e : Event) : State :=
  let s := s.intake e
  if e.sev = 5 then s.stopBlock
  else if e.sev = 4 then (match e.part with | some p => s.wantPart p .s4 | none => s.stopBlock)
  else s

/-- The page's waiting slot of the event's kind is free. -/
def State.slotFree (s : State) (e : Event) : Bool :=
  !s.reef.waiting.any (fun w => decide (w.unit = e.unit) && decide (w.grave = e.grave))

/-- Report an event of severity S0 to S3 that a command of several CCLKs makes, each in a CCLK of its own: Reef takes one per
CCLK, so a later one waits for the earlier ones (R471, log entry 35). -/
def State.raiseLater (s : State) (e : Event) : State :=
  if s.reef.later.isEmpty && s.slotFree e then s.raise e else { s with reef := { s.reef with later := s.reef.later ++ [e] } }

/-- Reef meets the next of the later events once its slot is free. -/
def State.meetLater (s : State) : State :=
  match s.reef.later with
  | e :: r => if s.slotFree e then { s with reef := { s.reef with later := r } }.intake e else s
  | [] => s

/-! ## Memory and fabric requests (R584 to R590, R605 to R607) -/

/-- Tags of a class (R586). -/
def MClass.tags : MClass → List Nat
  | .fetch => List.range 256
  | .writeback => List.range 192
  | .atomic => (List.range 32).map (· + 192)
  | .dump => (List.range 32).map (· + 224)

/-- Reads go by the read channel, everything else by the write channel. -/
def MClass.isRead (c : MClass) : Bool := decide (c = .fetch)

/-- The lowest tag of a class that no outstanding request of its channel holds (log entry 9). -/
def freeTag (l : List MReq) (c : MClass) : Option (BitVec 8) :=
  (c.tags.find? (fun t => !l.any (fun r => decide (r.cls.isRead = c.isRead) && decide (r.tag = some (BitVec.ofNat 8 t))))).map (BitVec.ofNat 8)

/-- Issue a request at MMP. -/
def State.issue (s : State) (c : MClass) (op : MOp) (addr : Addr) (len : Nat) (data : List Line) (why : Why) : State :=
  { s with mmp := s.mmp ++ [⟨freeTag s.mmp c, c, s.mmpGen, op, addr, len, data, why⟩] }

/-- Issue a read of `n` lines, in class FETCH (R586). -/
def State.read (s : State) (addr : Addr) (n : Nat) (why : Why) : State := s.issue .fetch .read addr (64 * n) [] why

/-- Issue a write of bytes packed in lines, in class WRITEBACK (R586). -/
def State.write (s : State) (addr : Addr) (len : Nat) (data : List Line) (why : Why) : State :=
  s.issue .writeback .write addr len data why

/-- Issue a request at FAP (R605, R606). -/
def State.issueFap (s : State) (op : MOp) (addr : Addr) (why : Why) : State :=
  { s with fap := s.fap ++ [⟨freeTag s.fap .fetch, .fetch, s.fapGen, op, addr, 8, [], why⟩] }

/-- A global address is local when bits [56:45] are INTEG.NODE_ID (R60). -/
def State.isLocal (s : State) (a : Addr) : Bool := decide (a.extractLsb' 45 12 = s.fld (pageAddr pINTG 0x50) 0 12)

/-- An atomic on a global word: MMP class ATOMIC when local, FAP otherwise (R60). -/
def State.atomic (s : State) (op : MOp) (a : Addr) (why : Why) : State :=
  if s.isLocal a then s.issue .atomic op a 8 [] why else s.issueFap op a why

/-- Give the tags of answered requests to requests of their class that wait for one. -/
def retag (l : List MReq) : List MReq :=
  l.foldl (fun acc r => acc ++ [match r.tag with
    | some _ => r
    | none => { r with tag := freeTag (acc ++ l) r.cls }]) []

/-- Find and take out the request that an answer with `tag` and `gen` ends. -/
def takeReq (l : List MReq) (read : Bool) (tag : BitVec 8) (gen : BitVec 4) : Option (MReq × List MReq) :=
  match l.find? (fun r => decide (r.cls.isRead = read) && decide (r.tag = some tag) && decide (r.gen = gen)) with
  | none => none
  | some r => some (r, retag (l.filter (fun x => !(decide (x.cls.isRead = read) && decide (x.tag = some tag) && decide (x.gen = gen)))))

/-- An MMP answer. Nothing is heard while PD2 is unpowered (R579). One with an old generation tag, or for work that a reset discarded, is dropped before any effect and
counted in CLKR.LATE_MMP (R507, R508, R589); one that no outstanding request wants changes nothing (log entry 4). -/
def State.answer (s : State) (read : Bool) (tag : BitVec 8) (gen : BitVec 4) : State × Option MReq :=
  if !s.powered 2 then (s, none) else
  let s := s.idleExit
  match takeReq s.mmp read tag gen with
  | none => if gen = s.mmpGen then (s, none) else (s.bump (pageAddr pCLKR 0x148), none)
  | some (r, l) =>
    let s := { s with mmp := l }
    if gen ≠ s.mmpGen ∨ r.why = .orphan then (s.bump (pageAddr pCLKR 0x148), none) else (s, some r)

/-- A FAP answer (R507, R607), as `State.answer` with CLKR.LATE_FAP. -/
def State.answerFap (s : State) (tag : BitVec 8) (gen : BitVec 4) : State × Option MReq :=
  if !s.powered 29 then (s, none) else
  let s := s.idleExit
  match takeReq s.fap true tag gen with
  | none => if gen = s.fapGen then (s, none) else (s.bump (pageAddr pCLKR 0x14C), none)
  | some (r, l) =>
    let s := { s with fap := l }
    if gen ≠ s.fapGen ∨ r.why = .orphan then (s.bump (pageAddr pCLKR 0x14C), none) else (s, some r)

/-- An answer from MMP's write channel or from FAP. -/
def State.answerAtom (s : State) (fab : Bool) (tag : BitVec 8) (gen : BitVec 4) : State × Option MReq :=
  if fab then s.answerFap tag gen else s.answer false tag gen

/-- Take requests of discarded work out of account: their answers will be late (R508). -/
def State.orphan (s : State) (f : Why → Bool) : State :=
  let g := fun (r : MReq) => if f r.why then { r with why := .orphan } else r
  { s with mmp := s.mmp.map g, fap := s.fap.map g }

end Sys2Proof.Machine
end

