-- ==== Sys2Proof/Machine/Flow.lean ====
section
/-! DEFINITION. What moves streams and entries along their path: class queues, stream states, failures, and Landing's
events, messages and steps (spec/04_streams_and_rings.md, spec/12_completion_and_events.md). -/
namespace Sys2Proof.Machine

/-! ## Unaligned extents -/

/-- `n` lines from byte offset `off` (below 64) of a run of lines. -/
def alignLines (ls : List Line) (off n : Nat) : List Line :=
  if off = 0 then (List.range n).map (fun i => ls.getD i 0)
  else (List.range n).map (fun i => (ls.getD i 0 >>> (8 * off)) ||| (ls.getD (i + 1) 0 <<< (512 - 8 * off)))

/-- Lines that `len` bytes from an address touch. -/
def linesOfExtent (a : Addr) (len : Nat) : Nat := ceilDiv (a.toNat % 64 + len) 64

/-! ## Long requests: at most 8 lines each (R584) -/

/-- Read `n` lines in requests of at most 8. -/
def State.readLines (s : State) (addr : Addr) (n : Nat) (why : Nat → Why) : State :=
  (List.range (ceilDiv n 8)).foldl
    (fun s i => s.read (addr + BitVec.ofNat 57 (512 * i)) (min 8 (n - 8 * i)) (why (8 * i))) s

/-- Write whole lines in requests of at most 8. -/
def State.writeLines (s : State) (addr : Addr) (ls : List Line) (why : Why) : State :=
  (List.range (ceilDiv ls.length 8)).foldl
    (fun s i => s.write (addr + BitVec.ofNat 57 (512 * i)) (64 * min 8 (ls.length - 8 * i)) ((ls.drop (8 * i)).take 8) why) s

/-- Put lines that have arrived in their place. -/
def setLines (dst : List Line) (off : Nat) (src : List Line) : List Line :=
  dst.take off ++ src ++ dst.drop (off + src.length)

/-- Device time at CCLK resolution, in units of 2^-16 ns (R415, R556). -/
def State.nowFine (s : State) : Nat := s.view

/-! ## Streams (R135, R136, R142) -/

/-- The class queue of a class. -/
def Fetch.queue (f : Fetch) : Nat → List (BitVec 14)
  | 0 => f.q0 | 1 => f.q1 | 2 => f.q2 | _ => f.q3

/-- Replace a class queue. -/
def Fetch.setQueue (f : Fetch) (c : Nat) (q : List (BitVec 14)) : Fetch :=
  match c with
  | 0 => { f with q0 := q } | 1 => { f with q1 := q } | 2 => { f with q2 := q } | _ => { f with q3 := q }

/-- Make a stream READY at the tail of its class queue; `db` says that a doorbell starts its next header read (R126). -/
def State.queueReady (s : State) (n : BitVec 14) (db : Bool) : State :=
  let c := (classOf n).toNat
  let q := s.fetch.queue c
  let s := s.updStream n (fun x => { x with st := .ready, dbStarted := db })
  if n ∈ q then s else { s with fetch := s.fetch.setQueue c (q ++ [n]) }

/-- Take a stream out of its class queue. -/
def State.unqueue (s : State) (n : BitVec 14) : State :=
  let c := (classOf n).toNat
  { s with fetch := s.fetch.setQueue c ((s.fetch.queue c).filter (· ≠ n)) }

/-- The channel that holds a stream lets it go (R136, R182). -/
def State.freeChan (s : State) (n : BitVec 14) : State :=
  { s with fetch := { s.fetch with chans := s.fetch.chans.filter (fun x => x.2 ≠ some n) } }

/-- DRAINING ends once no entry is in flight and no fetch is in progress (R142). -/
def State.drained (s : State) (n : BitVec 14) : State :=
  let st := s.stream n
  if st.st = .draining ∧ st.inflight = 0 ∧ st.fetching = false then s.setStream n { st with st := .disabled, pause := st.pause }
  else s

/-- The head entry has started its program or has taken effect: the stream returns to its class queue (R136, R142). -/
def State.headLeaves (s : State) (k : EKey) : State :=
  let st := s.stream k.stream
  if st.head = some k.seq then
    let s := s.setStream k.stream { st with head := none }
    if st.st = .blocked then
      if st.pause then s.updStream k.stream (fun x => { x with st := .paused }) else s.queueReady k.stream false
    else s
  else s

/-- The progress timer of a stream restarts (R138, R144). -/
def State.timerRestart (s : State) (n : BitVec 14) : State := s.updStream n (fun x => { x with progressT := s.time, limitUs := x.timeoutUs })

/-! ## Entries -/

/-- The header's control word (R103). -/
def Entry.ctl (e : Entry) : Word := Line.w32 (e.units.getD 0 0) 0

/-- The header's CTX (R103). -/
def Entry.ctx (e : Entry) : BitVec 24 := (Line.w32 (e.units.getD 0 0) 4).extractLsb' 0 24

/-- The header's COOKIE (R103). -/
def Entry.cookie (e : Entry) : Dword := Line.w64 (e.units.getD 0 0) 8

/-- FENCE, IRQ, XU, INLC, SU, WU and REC (R103). -/
def Entry.fence (e : Entry) : Bool := bit e.ctl 6
def Entry.irq (e : Entry) : Bool := bit e.ctl 5
def Entry.xu (e : Entry) : Bool := bit e.ctl 4
def Entry.inlc (e : Entry) : Bool := bit e.ctl 3
def Entry.su (e : Entry) : Bool := bit e.ctl 2
def Entry.wu (e : Entry) : Bool := bit e.ctl 1
def Entry.recBit (e : Entry) : Bool := bit e.ctl 0

/-- The wait unit of the entry, if it has one (R109, R112). -/
def Entry.waitUnit (e : Entry) : Option Line :=
  if e.etype = .wait ∨ (e.etype.isLaunch ∧ e.wu) then some (e.units.getD 1 0) else none

/-- The signal unit of the entry, if it has one. -/
def Entry.signalUnit (e : Entry) : Option Line :=
  if e.etype = .signal then some (e.units.getD 1 0)
  else if e.etype.isLaunch ∧ e.su then some (e.units.getD (if e.wu then 2 else 1) 0) else none

/-- The first unit after the wait and signal units. -/
def Entry.afterUnits (e : Entry) : Nat := 1 + (if e.wu then 1 else 0) + (if e.su then 1 else 0)

/-- The four constant-buffer units (R109). -/
def Entry.constUnits (e : Entry) : List Line := (e.units.drop e.afterUnits).take 4

/-- The extension unit (R109). -/
def Entry.extUnit (e : Entry) : Option Line :=
  if e.xu then some (e.units.getD (e.afterUnits + if e.inlc then 4 else 0) 0) else none

/-- The status that R193 selects, with the code and operation index of the first failure of that status (R414). -/
def Entry.status (e : Entry) : Failure :=
  let order : List Nat := if e.ownReloc then [5, 4, 3, 2, 1, 7] else [6, 5, 4, 3, 2, 1, 7]
  match order.findSome? (fun st => e.fails.find? (fun f => f.status == st)) with
  | some f => f
  | none => ⟨0, 0, 0⟩

/-- Note a failure. -/
def Entry.failed (e : Entry) (f : Failure) : Entry := { e with fails := e.fails ++ [f] }

/-- The event fields of an entry: stream, context, partition. -/
def Event.ofEntry (v : Event) (k : EKey) (e : Entry) : Event :=
  { v with stream := some k.stream, part := some e.part, ctx := some e.ctx }

/-- A launch uses its Harbour slot between stage 4 and its completion record and is not parked at stage 6 (R89, R15). -/
def Entry.busy (e : Entry) : Bool :=
  e.slot.isSome && !e.recDone && !(e.stage = .parked) && !(e.stage = .readback ∧ e.inPark)

/-- Launches between stage 8 and their completion record (PART.STATE.RUNNING, R70). -/
def Entry.running (e : Entry) : Bool := e.executed && !e.recDone

/-- Recompute whether a Harbour slot is BUSY or IDLE: a slot that becomes IDLE is marked most recently used (R89). -/
def State.slotIdle (s : State) (k : Nat) : State :=
  let sl := s.slot k
  if sl.st = .busy ∧ !s.allEntries.any (fun x => x.2.slot = some k && x.2.busy) then
    let s := s.setSlot k { sl with st := .idle }
    { s with harb := { s.harb with lru := (s.harb.lru.filter (· ≠ k)) ++ [k] } }
  else s

/-- The entry's slot may have become idle. -/
def State.entrySlotIdle (s : State) (k : EKey) : State :=
  match (s.entry k).bind (·.slot) with
  | some n => s.slotIdle n
  | none => s

/-! ## Offers to the sync block (R243, R245) -/

/-- The used pairs of a signal unit, in pair order. -/
def unitUpds (u : Line) : List Upd :=
  (List.range 4).filterMap (fun i =>
    let w := Line.w64 u (16 * i + 8)
    if bit w 63 then
      some ⟨if w.extractLsb' 60 3 = 0#3 then .signal else .add, w.extractLsb' 0 14, Line.w64 u (16 * i)⟩
    else none)

/-- Offer a chain of updates from a source. -/
def State.offer (s : State) (src : Src) (us : List Upd) (entry : Option EKey) : State :=
  match us with
  | [] => s
  | u :: rest => { s with sync := { s.sync with offers := s.sync.offers ++ [⟨src, u, rest, entry⟩] } }

/-! ## Function event entries (R408, R410) -/

/-- Register addresses of Landing on the AUDT page (R428). -/
def rAUDT (off : Nat) : Nat := pageAddr pAUDT off

/-- A failure of R426: S1 with a code, LAND_ERR, and AUDT.LAND_ERRS. -/
def State.landErr (s : State) (k : EKey) (part : Option (BitVec 4)) (code : Nat) : State :=
  ((s.bump (rAUDT 0x60)).setErr pAUDT 17).raise
    { ev pAUDT code 1 with stream := some k.stream, func := some (funcOf k.stream), part := part }

/-- A function's entry in the cache, once all four lines are in. -/
def State.fev (s : State) (f : BitVec 12) : Option Fev :=
  s.land.fev.find? (fun x => decide (x.func = f) && decide (x.missing = 0))

/-- Change a cached entry. -/
def State.updFev (s : State) (f : BitVec 12) (g : Fev → Fev) : State :=
  { s with land := { s.land with fev := s.land.fev.map (fun x => if x.func = f then g x else x) } }

/-- Change line 0xC0 of a cached entry. -/
def State.updFev3 (s : State) (f : BitVec 12) (g : Line → Line) : State :=
  s.updFev f (fun x => { x with lines := x.lines.modify 3 g, dirty := true })

/-- Move a cached entry to the front of the order of use. -/
def State.touchFev (s : State) (f : BitVec 12) : State :=
  { s with land := { s.land with fev := s.land.fev.filter (fun x => x.func = f) ++ s.land.fev.filter (fun x => x.func ≠ f) } }

/-- Address of a function's entry (R407). -/
def State.fevAddr (s : State) (f : BitVec 12) : Addr := s.addrPair (rAUDT 0x40) 12 + BitVec.ofNat 57 (f.toNat * 256)

/-- A vector's moderation state. -/
def State.vec (s : State) (f : BitVec 12) (v : BitVec 2) : Vec := Tbl.get (fun _ => Vec.reset) s.land.vecs (f.toNat * 4 + v.toNat)

/-- Write a vector's moderation state. -/
def State.setVec (s : State) (f : BitVec 12) (v : BitVec 2) (x : Vec) : State :=
  { s with land := { s.land with vecs := Tbl.set (fun _ => Vec.reset) s.land.vecs (f.toNat * 4 + v.toNat) x } }

/-- MASK of a vector (R408). -/
def Fev.masked (x : Fev) (v : BitVec 2) : Bool := bit (Line.w32 (x.lines.getD 1 0) (16 * v.toNat + 0xC)) 0

/-- A function's record, audit or fence write is in flight. -/
def State.fevInFlight (s : State) (f : BitVec 12) : Bool :=
  let g := fun (r : MReq) => match r.why with
    | .record k | .audit k | .fence k => decide (funcOf k.stream = f)
    | _ => false
  s.mmp.any g || s.fap.any g

/-- A cache entry is pinned (R410). -/
def State.fevPinned (s : State) (x : Fev) : Bool :=
  decide (x.missing ≠ 0) || s.fevInFlight x.func ||
    [0#2, 1#2, 2#2, 3#2].any (fun v => !x.masked v && decide ((s.vec x.func v).pend ≠ 0))

/-- Line 0xC0 of an entry as Swisto writes it: every bit that R408 has written 0 is 0. -/
def swLine (l : Line) : Line :=
  let cq := fun (c : Nat) => Line.w32 l (4 * c) &&& 0x1FFFF#32
  let l' := (List.range 4).foldl (fun (a : Line) c => Line.put a (4 * c) (cq c)) 0#512
  Line.put (Line.put (Line.put l' 0x10 (Line.w32 l 0x10 &&& 0xF#32)) 0x18 (Line.w64 l 0x18)) 0x20 (Line.w64 l 0x20)

/-- Write line 0xC0 of a cached entry back (R407, R408, R410). -/
def State.fevBack (s : State) (x : Fev) : State :=
  (s.updFev x.func (fun x => { x with dirty := false })).write (s.fevAddr x.func + 0xC0) 64 [swLine (x.lines.getD 3 0)] (.fevWrite x.func)

/-- Start the read of a function's entry when it is not cached: a free place or the least recently used entry that is not
pinned is taken; with none, the completion waits (R410). -/
def State.fevMiss (s : State) (f : BitVec 12) : State :=
  if s.land.fev.any (fun x => decide (x.func = f)) then s
  else
    let go := fun (s : State) =>
      { s with land := { s.land with fev := ⟨f, [0, 0, 0, 0], 4, false⟩ :: s.land.fev } }.read (s.fevAddr f) 4 (.fevRead f)
    if s.land.fev.length < 256 then go s
    else match s.land.fev.reverse.find? (fun x => !s.fevPinned x) with
      | none => s
      | some x =>
        let s := s.fevBack x
        go { s with land := { s.land with fev := s.land.fev.filter (fun y => y.func ≠ x.func) } }

/-! ## Events and messages (R419 to R422) -/

/-- The message address has bits that no message address may have (R422). -/
def Fev.badAddr (x : Fev) (v : BitVec 2) : Bool :=
  let lo := Line.w32 (x.lines.getD 1 0) (16 * v.toNat)
  let hi := Line.w32 (x.lines.getD 1 0) (16 * v.toNat + 4)
  decide (lo.extractLsb' 0 2 ≠ 0#2) || decide (hi.extractLsb' 25 7 ≠ 0#7)

/-- Issue a vector's message at a device time, or drop its events when its address is bad (R421, R422). -/
def State.message (s : State) (x : Fev) (v : BitVec 2) (now : Dword) : State :=
  let vv := s.vec x.func v
  if x.badAddr v then
    let s := (s.wr (rAUDT 0x5C) (satAdd (s.rd (rAUDT 0x5C)) vv.pend.toNat)).setVec x.func v { vv with pend := 0, badSeen := true }
    if vv.badSeen then s
    else s.raise { ev pAUDT 0x76 1 with func := some x.func, part := s.partOf x.func }
  else
    let lo := Line.w32 (x.lines.getD 1 0) (16 * v.toNat)
    let hi := Line.w32 (x.lines.getD 1 0) (16 * v.toNat + 4)
    let data := Line.w32 (x.lines.getD 1 0) (16 * v.toNat + 8)
    let s := s.setVec x.func v { vv with pend := 0, last := now }
    let s := (s.bump (rAUDT 0x54)).updFev3 x.func (fun l => Line.put l 0x20 (Line.w64 l 0x20 + 1))
    s.write (hi.extractLsb' 0 25 ++ lo) 4 [data.setWidth 512] (.message x.func v.toNat)

/-- An unmasked vector with pending events issues its message when R421 lets it; `now` is the device time at which the hold-off is
evaluated, in the CCLK view (R556), none when only its other two conditions are. -/
def State.tryMessageAt (s : State) (f : BitVec 12) (v : BitVec 2) (now : Option Dword) : State :=
  match s.fev f with
  | none => s
  | some x =>
    let vv := s.vec f v
    let w := Line.w32 (x.lines.getD 2 0) (4 * v.toNat)
    let cnt := w.extractLsb' 24 8
    let hold := (w.extractLsb' 0 16).toNat
    let past : Bool := match now with | some t => decide (vv.last.toNat + hold * 64 ≤ t.toNat) | none => false
    if !x.masked v ∧ vv.pend ≠ 0 ∧ (hold = 0 ∨ (cnt ≠ 0#8 ∧ cnt ≤ vv.pend) ∨ past) then s.message x v (now.getD s.viewTime)
    else s

/-- The evaluation when an event arrives (R421). -/
def State.tryMessage (s : State) (f : BitVec 12) (v : BitVec 2) : State := s.tryMessageAt f v (some s.viewTime)

/-- An event on a vector of a function whose entry is cached (R419, R420). -/
def State.vecEvent (s : State) (f : BitVec 12) (v : BitVec 2) : State :=
  match s.fev f with
  | none => s
  | some x =>
    if x.masked v then
      (s.bump (rAUDT 0x58)).updFev3 f (fun l => Line.put l 0x10 (Line.w32 l 0x10 ||| (1#32 <<< v.toNat)))
    else
      let vv := s.vec f v
      (s.setVec f v { vv with pend := satAdd vv.pend 1 }).tryMessage f v

/-- AUDT.FEV_BASE_LO.VALID. -/
def State.fevValid (s : State) : Bool := s.flag (rAUDT 0x40) 0

/-- A stream fault of a function whose entry is in the cache is an event when FAULT_EN = 1 (R419). -/
def State.faultVec (s : State) (f : BitVec 12) : State :=
  match s.fev f with
  | none => s
  | some x =>
    let w := Line.w32 (x.lines.getD 2 0) 0x10
    if bit w 3 then s.vecEvent f (w.extractLsb' 0 2) else s

/-- The event of a stream fault (R419): the function's entry is read first when it is not cached. -/
def State.faultEvent (s : State) (f : BitVec 12) : State :=
  if !s.fevValid then s
  else match s.fev f with
    | some _ => s.faultVec f
    | none => { s with land := { s.land with faults := s.land.faults ++ [f] } }.fevMiss f

/-- A stream fault (R146, R473): FAULT_CODE and FAULT_POS, FETCH.STREAM_FAULTS, the S2 event, and state FAULTED, except
from DRAINING. A RELEASE_WRITE of an entry that does not count in INFLIGHT may come back once the stream is DISABLED: the codes are
recorded and the stream stays DISABLED, since R142 has no way from there to FAULTED (DESIGN CHOICE, log entry 48). -/
def State.streamFault (s : State) (n : BitVec 14) (code : BitVec 8) (pos : BitVec 16) : State :=
  let s := s.unqueue n
  let s := s.updStream n (fun x => { x with
    faultCode := code, faultPos := pos, fetching := false, got := [], fetchPos := x.cons,
    st := if x.st = .draining ∨ x.st = .disabled then x.st else .faulted })
  let s := s.bump (pageAddr pFTCH 0x68)
  let s := s.raise { ev pFTCH code.toNat 2 with stream := some n, func := some (funcOf n), part := s.partOf (funcOf n) }
  (s.faultEvent (funcOf n)).drained n

/-! ## Tide and windows at completion (spec/08 R291, R304, spec/10 R359) -/

/-- Tide register `off` of partition p (R307). -/
def rTIDE (p : BitVec 4) (off : Nat) : Nat := pageAddr pSHOL (0x800 + 0x20 * p.toNat + off)

/-- CUR of a partition. -/
def State.cur (s : State) (p : BitVec 4) : BitVec 48 := (s.rd64 (rTIDE p 0)).extractLsb' 0 48

/-- A launch is no longer live (R291): LIVE_CUR or LIVE_OLD, and UPD_RUN, fall. -/
def State.liveEnds (s : State) (e : Entry) : State :=
  if e.executed then
    let lo := if e.epoch = s.cur e.part then 0 else 16
    let s := s.setF (rTIDE e.part 0xC) lo (s.fld (rTIDE e.part 0xC) lo 16 - 1)
    if e.etype = .tableUpdate then s.setF (rTIDE e.part 8) 0 (s.fld (rTIDE e.part 8) 0 16 - 1) else s
  else s

/-- A launch has written its completion record, or has left Swisto. -/
def State.gone (s : State) (k : EKey) : Bool := match s.entry k with | none => true | some e => e.recDone

/-- Closed windows of which every launch has written its completion record give their plan slots back (R359). -/
def State.winSweep (s : State) : State :=
  { s with shoal := { s.shoal with
    wins := s.shoal.wins.filter (fun w => decide (w.st = .opened) || w.members.any (fun m => !s.gone m.e)) } }

/-- A lookup launch gives its index-store words back, unless it is in a window whose scatter pass is to come (R338). -/
def State.dropLookup (s : State) (k : EKey) : State :=
  let held := s.shoal.wins.any (fun w => (decide (w.st = .opened) || decide (w.st = .sealing)) && w.members.any (fun m => decide (m.e = k)))
  if held then s else { s with shoal := { s.shoal with lookups := s.shoal.lookups.filter (fun l => decide (l.e ≠ k)) } }

/-! ## Completion (R405, R406) -/

/-- The entry has passed step 2 of R406: its launch frees its slot and thread count, and its stream's progress timer
restarts (R89, R144), as it does at the record of any other entry. -/
def State.recPassed (s : State) (k : EKey) : State :=
  match s.entry k with
  | none => s
  | some e =>
    let s := ((s.setEntry k (some { e with recDone := true })).liveEnds e).winSweep
    let s := if e.etype.isLaunch ∨ e.lstep = 4 then s.timerRestart k.stream else s
    let s := match e.slot with
      | none => s
      | some n =>
        let sl := s.slot n
        s.setSlot n { sl with recLines := sl.recLines.modify 1 (fun l => Line.put l 8 (Line.w64 l 8 + 1)) }
    s.entrySlotIdle k

/-- The entry is complete: it leaves Swisto, and INFLIGHT falls unless it is a PAD or NOP (R142). -/
def State.closeEntry (s : State) (k : EKey) : State :=
  match s.entry k with
  | none => s
  | some e =>
    let s := { (s.setEntry k none).dropLookup k with
      aud := { s.aud with ins := s.aud.ins.filter (fun x => x.e ≠ k) }
      land := { s.land with queue := s.land.queue.filter (· ≠ k), step2 := s.land.step2.filter (· ≠ k) } }.winSweep
    let s := if e.etype = .nop ∨ e.etype = .pad then s
      else s.updStream k.stream (fun x => { x with inflight := x.inflight - 1 })
    (s.drained k.stream)

/-- Step 4 (R406): the event becomes pending on the stream's vector. -/
def State.land4 (s : State) (k : EKey) : State :=
  match s.entry k with
  | none => s
  | some e =>
    let f := funcOf k.stream
    let s := match s.fev f with
      | none => s
      | some x =>
        if e.irq then s.vecEvent f ((Line.w64 (x.lines.getD 0 0) (16 * (classOf k.stream).toNat)).extractLsb' 62 2) else s
    s.closeEntry k

/-- The fence write (R417): local or not by the NODE_ID of the launch's start (R27, R60), or by the present one. -/
def State.raiseFence (s : State) (e : Entry) (a : Addr) (k : EKey) : State :=
  if (if e.executed then decide (a.extractLsb' 45 12 = e.node) else s.isLocal a) then s.issue .atomic (.max e.cookie) a 8 [] (.fence k)
  else s.issueFap (.max e.cookie) a (.fence k)

/-- Landing holds a signal whose bank has not taken it (R244). -/
def State.signalsHeld (s : State) : Bool := s.sync.offers.any (fun o => decide (o.src = .landing))

/-- Offer the signals of a launch (R243). -/
def State.offerSignals (s : State) (e : Entry) : State :=
  if e.etype.isLaunch then (match e.signalUnit with | some u => s.offer .landing (unitUpds u) none | none => s) else s

/-- Step 3 (R406): offer the signals of a launch, then issue the fence write. A completion that raises a fence word or an event
needs its function's entry, which may have been evicted since (R410). -/
def State.land3Go (s : State) (k : EKey) : State :=
  match s.entry k with
  | none => s
  | some e => match s.fev (funcOf k.stream) with
    | none =>
      if e.fence ∨ e.irq then (s.updEntry k (fun e => { e with lstep := 7 })).fevMiss (funcOf k.stream)
      else (s.offerSignals e).land4 k
    | some x =>
      let s := s.offerSignals e
      let w := Line.w64 (x.lines.getD 0 0) (16 * (classOf k.stream).toNat + 8)
      if e.fence ∧ bit w 63 then
        let s := s.updEntry k (fun e => { e with lstep := 5 })
        s.raiseFence e (w.extractLsb' 0 57) k
      else s.land4 k

/-- A completion reaches step 3: Landing holds it behind signals of earlier ones that no bank has taken (R244). -/
def State.land3 (s : State) (k : EKey) : State :=
  if s.signalsHeld then s.updEntry k (fun e => { e with lstep := 7 }) else s.land3Go k

/-- A completion of which the signals alone are left (R426). -/
def State.signalsGo (s : State) (k : EKey) : State :=
  match s.entry k with
  | none => s
  | some e => (s.offerSignals e).closeEntry k

/-- It, too, is held behind earlier signals (R244). -/
def State.signalsLeft (s : State) (k : EKey) : State :=
  if s.signalsHeld then s.updEntry k (fun e => { e with lstep := 8 }) else s.signalsGo k

/-- A bank has taken the last signal that Landing held: the completions behind it go on, oldest first, until one holds signals
again (R244). -/
def State.land3Next (s : State) : State :=
  s.land.queue.foldl (fun s k => if s.signalsHeld then s else match s.entry k with
    | some e => if e.lstep = 7 then s.land3Go k else if e.lstep = 8 then s.signalsGo k else s
    | none => s) s

/-- DUR (R415). -/
def Entry.dur (e : Entry) : Word :=
  if e.executed then BitVec.ofNat 32 (min ((e.tDone - e.tStart) / (4 * 65536)) 0xFFFFFFFF) else 0

/-- The completion record (R413). -/
def Entry.record (e : Entry) (phase : BitVec 1) : BitVec 256 :=
  let st := e.status
  let launch := e.etype.isLaunch
  let aud := e.audIdx.isSome
  let w0c : Word := phase ++ BitVec.ofNat 4 e.etype.code ++ ofBool aud ++ ofBool e.audLost ++ 0#1 ++ BitVec.ofNat 8 st.status
    ++ (if launch then st.code else 0#8) ++ (if launch then st.opidx else 0#8)
  (if launch then e.ldigest else 0) ++ (e.audIdx.getD 0) ++ (e.pos.setWidth 32) ++ w0c ++ (if launch then e.dur else 0#32) ++ e.cookie

/-- The entry writes a completion record (R106, R414). -/
def Entry.writesRecord (e : Entry) : Bool :=
  e.etype.isLaunch || decide (e.etype = .modelSwitch) || (e.recBit && decide (e.etype ≠ .pad))

/-- REFRESH reads a function's lines again (R409): until they are in, no completion of the function begins a step. -/
def State.refreshing (s : State) (f : BitVec 12) : Bool :=
  decide (s.land.cmd = some (1, f)) && s.mmp.any (fun r => decide (r.why = .fevRead f) && decide (r.len = 192))

/-- A completion leaves step 2's order. -/
def State.leave2 (s : State) (k : EKey) : State := { s with land := { s.land with step2 := s.land.step2.filter (· ≠ k) } }

/-- A completion is at step 2 (R411). -/
def State.reach2 (s : State) (k : EKey) : State :=
  let s := s.updEntry k (fun e => { e with lstep := 3 })
  if k ∈ s.land.step2 then s else { s with land := { s.land with step2 := s.land.step2 ++ [k] } }

/-- Step 2 (R406, R411): write the record, once the release write is acknowledged (R123) and no completion of the stream that
reached this step earlier is still at it. An entry that has been evicted since is read again first (R410). -/
def State.land2 (s : State) (k : EKey) : State :=
  match s.entry k, (s.reach2 k).fev (funcOf k.stream) with
  | some _, none => (s.reach2 k).fevMiss (funcOf k.stream)
  | some e, some x =>
    let s := s.reach2 k
    let c := (classOf k.stream).toNat
    let w := Line.w64 (x.lines.getD 0 0) (16 * c)
    if s.refreshing (funcOf k.stream) then s
    else if e.writesRecord ∧ bit w 61 then
      let ahead := (s.land.step2.takeWhile (· ≠ k)).any (fun j => decide (j.stream = k.stream) && (match s.entry j with
        | some e' => e'.writesRecord | none => false))
      if e.released ∧ !ahead then
        let s := s.leave2 k
        let q := Line.w32 (x.lines.getD 3 0) (4 * c)
        let pos := q.extractLsb' 0 16
        let ph := q.extractLsb' 16 1
        let log2 := (w.extractLsb' 0 5).toNat
        let wrap := pos.toNat + 1 = 2 ^ log2
        let q' : Word := 0#15 ++ (if wrap then ph ^^^ 1#1 else ph) ++ (if wrap then 0#16 else pos + 1)
        let base : Addr := w.extractLsb' 12 45 ++ 0#12
        let s := s.updFev3 (funcOf k.stream) (fun l => Line.put (Line.put l (4 * c) q') 0x18 (Line.w64 l 0x18 + 1))
        let s := (s.bump (rAUDT 0x50)).updEntry k (fun e => { e with lstep := 4 })
        s.write (base + BitVec.ofNat 57 (pos.toNat * 32)) 32 [(e.record ph).setWidth 512] (.record k)
      else s
    else ((s.leave2 k).recPassed k).land3 k
  | none, _ => s

/-- The launch is to be audited (R423). -/
def Entry.audited (e : Entry) (s : State) (k : EKey) (x : Fev) : Bool :=
  e.etype.isLaunch && e.executed && bit (Line.w64 (x.lines.getD 0 0) (16 * (classOf k.stream).toNat)) 60 &&
    s.flag (rAUDT (0x108 + 0x10 * e.part.toNat)) 31

/-- Write a digest-log entry, or drop it when the log is full (R458, R459). -/
def State.dlogWrite (s : State) (k : EKey) (e : Entry) (launch : Bool) (digest : Dword) (bytes : Word) (info : BitVec 8) : State :=
  let r := fun off => rAUDT (off + 0x10 * e.part.toNat)
  let cfg := s.rd (r 0x508)
  if bit cfg 31 ∧ bit cfg (24 + (classOf k.stream).toNat) then
    let size := 2 ^ (cfg.extractLsb' 0 5).toNat
    let prod := (cfg.extractLsb' 8 16).toNat
    if (prod + 1) % size = s.num (r 0x50C) 0 16 then (s.bumpF (r 0x50C) 16 16).setErr pAUDT 24
    else
      let ph := cfg.extractLsb' 29 1
      let wrap := decide (prod + 1 = size)
      let s := s.wr (r 0x508) (putBits (putBits cfg 8 (BitVec.ofNat 16 (if wrap then 0 else prod + 1))) 29 (if wrap then ph ^^^ 1#1 else ph))
      let w3 : Dword := ph ++ ofBool (!launch) ++ 0#6 ++ info ++ e.epoch
      let data : BitVec 256 := w3 ++ bytes ++ (k.stream.setWidth 32) ++ digest ++ e.seqNo
      let s := if launch then { s with aud := { s.aud with logs := s.aud.logs ++ [k] } } else s
      s.write (s.addrPair (r 0x500) 12 + BitVec.ofNat 57 (32 * prod)) 32 [data.setWidth 512] (.dlog k launch)
  else s

/-- Step 1 is over once the launch's digest-log entry is acknowledged as well (R458). -/
def State.land1b (s : State) (k : EKey) : State :=
  if k ∈ s.aud.logs then s.updEntry k (fun e => { e with lstep := 6 }) else s.land2 k

/-- Step 1 (R406, R423, R458): the launch's digest-log entry is written; an audited completion waits for its digest. -/
def State.land1 (s : State) (k : EKey) : State :=
  match s.entry k, s.fev (funcOf k.stream) with
  | some e, some x =>
    let s := if e.etype.isLaunch then
        s.dlogWrite k e true e.ldigest (BitVec.ofNat 32 (min e.outBytes.toNat 0xFFFFFFFF)) (BitVec.ofNat 8 e.status.status) else s
    if e.audited s k x then
      let s := s.updEntry k (fun e => { e with lstep := 1 })
      { s with land := { s.land with hashing := s.land.queue.filter (fun j => decide (j = k) || s.land.hashing.contains j) } }
    else s.land1b k
  | _, _ => s

/-- A completion of which only the signals are applied (R426). -/
def State.landSignals (s : State) (k : EKey) : State := ((s.leave2 k).recPassed k).signalsLeft k

/-- A completion enters Landing's steps: its function's entry is looked up (R406, R410, R426). -/
def State.land0 (s : State) (k : EKey) : State :=
  match s.entry k with
  | none => s
  | some e =>
    if !(e.writesRecord || e.fence || e.irq) then s.closeEntry k
    else if !s.fevValid then
      let s := (s.bump (rAUDT 0x60)).setErr pAUDT 16
      let s := s.raise { ev pAUDT 0x75 1 with stream := some k.stream, func := some (funcOf k.stream), part := some e.part }
      s.landSignals k
    else match s.fev (funcOf k.stream) with
      | some _ => if s.refreshing (funcOf k.stream) then s else (s.touchFev (funcOf k.stream)).land1 k
      | none => s.fevMiss (funcOf k.stream)

/-- An entry enters Landing's completion queue, which has room (R405). -/
def State.landIn (s : State) (k : EKey) : State :=
  let s := s.updEntry k (fun e => { e with stage := .landing, lstep := 0 })
  ({ s with land := { s.land with queue := s.land.queue ++ [k] } }).land0 k

/-- An entry completes: it enters the completion queue, or waits for room there (R405); one that has nothing to tell takes no
place. -/
def State.enterLanding (s : State) (k : EKey) : State :=
  match s.entry k with
  | none => s
  | some e =>
    if (e.writesRecord || e.fence || e.irq) && decide (1024 ≤ s.land.queue.length) then s.updEntry k (fun e => { e with stage := .finished })
    else s.landIn k

/-- A launch reaches t_done (R405): it waits to enter the completion queue. -/
def State.done (s : State) (k : EKey) : State :=
  s.updEntry k (fun e => { e with stage := .finished, tDone := s.nowFine, store := 0 })

/-- A launch that completes without executing (R405): its status is decided now, its channel lets the stream go, and the
stream goes on (R136). -/
def State.refuseLaunch (s : State) (k : EKey) (f : Failure) : State :=
  let s := (s.updEntry k (fun e => e.failed f)).dropLookup k
  (((s.done k).freeChan k.stream).entrySlotIdle k).headLeaves k

/-- A failed check of a whole launch at stage 4 (R191, R194): S1, FERRY.CB_FAULTS, status CB_FAULT. -/
def State.cbFault (s : State) (k : EKey) (code : Nat) : State :=
  match s.entry k with
  | none => s
  | some e =>
    let s := (s.bump (pageAddr pFERY 0x7C)).raise ((ev pFERY code 1).ofEntry k e)
    s.refuseLaunch k ⟨4, BitVec.ofNat 8 code, 0⟩

end Sys2Proof.Machine
end

