-- ==== Sys2Proof/Machine/Sync.lean ====
section
/-! DEFINITION. Sync objects, waits, the wake engine, fences, mirrors and software atomics (spec/07_sync_objects.md). -/
namespace Sys2Proof.Machine

/-- Register addresses of the SYNC page (R276). -/
def rSYNC (off : Nat) : Nat := pageAddr pSYNC off

/-- A sync object. -/
def State.obj (s : State) (n : Nat) : SyncObj := Tbl.get (fun _ => SyncObj.reset) s.sync.objs n

/-- Write a sync object. -/
def State.setObj (s : State) (n : Nat) (o : SyncObj) : State :=
  { s with sync := { s.sync with objs := Tbl.set (fun _ => SyncObj.reset) s.sync.objs n o } }

/-- Value of a pair's target word: the sync object (R110). -/
def pairSo (w : Dword) : Nat := (w.extractLsb' 0 14).toNat

/-- A value satisfies a waited-for value (unsigned); a poisoned object satisfies nothing (R274). -/
def SyncObj.holds (o : SyncObj) (v : Dword) : Bool := !o.poison && decide (v ≤ o.value)

/-- MIN_WAIT over a list (R250). -/
def minWaitOf (ws : List Waiter) : Dword :=
  ws.foldl (fun m w => if !w.void ∧ w.value < m then w.value else m) (BitVec.allOnes 64)

/-- Append a waiter to an object's list (R250). -/
def SyncObj.append (o : SyncObj) (w : Waiter) : SyncObj :=
  { o with waiters := o.waiters ++ [w], minWait := if w.value < o.minWait then w.value else o.minWait }

/-! ## Stage 6 (R247) and the park (R187) -/

/-- Lines the expansion store holds (2,048 in all). -/
def State.storeUsed (s : State) : Nat := s.allEntries.foldl (fun n x => n + x.2.store) 0

/-- Stream s's park slot (R188). -/
def State.parkAddr (s : State) (n : BitVec 14) : Addr :=
  s.addrPair (pageAddr pFERY 0x6C) 12 + BitVec.ofNat 57 (n.toNat * 0x4200)

/-- FERRY.PARK_BASE_LO.VALID (R189). -/
def State.parkValid (s : State) : Bool := s.flag (pageAddr pFERY 0x6C) 0

/-- Issue the read-back of a released launch once its writes are acknowledged and the store has room (R187). -/
def State.tryReadback (s : State) (k : EKey) : State :=
  match s.entry k with
  | none => s
  | some e =>
    if e.stage = .readback ∧ e.inPark ∧ e.parkAcks = 0 ∧ e.waiting = 0 ∧ s.storeUsed + e.total ≤ 2048 then
      let s := s.updEntry k (fun e => { e with waiting := ceilDiv e.total 8, store := e.total })
      s.readLines (s.parkAddr k.stream) e.total (.unpark k)
    else s

/-- Stage 7 for a lookup launch, stage 8 for any other (spec/01, stages). -/
def State.enter7 (s : State) (k : EKey) : State :=
  s.updEntry k (fun e => { e with stage := if e.etype = .lookupLaunch then .shoal else .place, inPark := false })

/-- The wait unit's last used pair holds: a WAIT entry takes effect (R112); a launch that was parked is read back; any other
goes on to stage 7. -/
def State.leave6 (s : State) (k : EKey) : State :=
  match s.entry k with
  | none => s
  | some e =>
    if e.etype = .wait then (s.headLeaves k).enterLanding k
    else if e.inPark then (s.updEntry k (fun e => { e with stage := .readback })).tryReadback k
    else s.enter7 k

/-- The stream parks on pair `i` (R247, R248): a launch's lines go to the park slot the first time (R187, R189). Every time, its
Harbour slot is IDLE if no launch that uses it is left unparked (R15, R89). -/
def State.park (s : State) (k : EKey) (i : Nat) (value target : Dword) : State :=
  match s.entry k with
  | none => s
  | some e =>
    if e.etype.isLaunch ∧ !e.inPark ∧ !s.parkValid then s.cbFault k 0x09
    else
      let s := s.updStream k.stream (fun x => { x with waitValue := value, waitTarget := target })
      if e.etype.isLaunch ∧ !e.inPark then
        let s := s.bump (pageAddr pFERY 0x88)
        let s := s.updEntry k (fun e => { e with
          stage := .parked, pairDone := i, inPark := true, parkAcks := ceilDiv e.lines.length 8, total := e.lines.length })
        let s := s.writeLines (s.parkAddr k.stream) e.lines (.park k)
        s.entrySlotIdle k
      else (s.updEntry k (fun e => { e with stage := .parked, pairDone := i })).entrySlotIdle k

/-- Evaluate the used pairs of a wait unit from pair `i` on (R247, R259); `n` pairs are left. -/
def State.evalPairs (s : State) (k : EKey) (u : Line) (i : Nat) : Nat → State
  | 0 => s.leave6 k
  | n + 1 =>
    let v := Line.w64 u (16 * i)
    let w := Line.w64 u (16 * i + 8)
    if !bit w 63 then s.evalPairs k u (i + 1) n
    else if w.extractLsb' 60 3 = 0#3 then
      let o := s.obj (pairSo w)
      if o.holds v then s.evalPairs k u (i + 1) n
      else if (match s.entry k with | some e => e.etype.isLaunch && !e.inPark && !s.parkValid | none => false) then s.cbFault k 0x09
      else (s.setObj (pairSo w) (o.append ⟨.pair k i, v, false⟩)).park k i v w
    else
      let a : Addr := w.extractLsb' 0 57
      let s := (s.bump (rSYNC 0x74)).updEntry k (fun e => { e with stage := .fence, pairDone := i })
      if s.isLocal a then s.read (a &&& ~~~63#57) 1 (.fenceRead k i)
      else s.issueFap (.fetchAdd 0) a (.fenceRead k i)

/-- Stage 6 (R247): evaluate the entry's wait unit from pair `i` on. -/
def State.stage6 (s : State) (k : EKey) (i : Nat) : State :=
  match s.entry k with
  | none => s
  | some e => match e.waitUnit with
    | none => s.leave6 k
    | some u => s.evalPairs k u i (4 - i)

/-- A released waiter takes effect (R253). A parked launch whose context has been evicted meanwhile re-enters stage 5 when
its lines have been read back (R16). -/
def State.release (s : State) (w : Who) : State :=
  let s := s.bump (rSYNC 0x9C)
  match w with
  | .pair k i =>
    let s := s.updStream k.stream (fun x => { x with waitValue := 0, waitTarget := 0 })
    s.stage6 k (i + 1)
  | .op k i => s.updEntry k (fun e => { e with ops := e.ops.set i .window })

/-! ## Updates (R241 to R246) and mirrors (R266) -/

/-- Rotation order of the sources (R244). -/
def Src.index : Src → Nat
  | .landing => 0 | .signalEntry => 1 | .rdp => 2 | .command => 3 | .tide => 4

/-- A mirror entry. -/
def State.mirrorE (s : State) (m : Nat) : Mirror := Tbl.get (fun _ => ⟨false, false, false⟩) s.sync.mirrors m

/-- Write a mirror entry. -/
def State.setMirror (s : State) (m : Nat) (x : Mirror) : State :=
  { s with sync := { s.sync with mirrors := Tbl.set (fun _ => ⟨false, false, false⟩) s.sync.mirrors m x } }

/-- SYNC.MIRROR_OBJ of entry m. -/
def State.mirrorObj (s : State) (m : Nat) : Word := s.rd (bankKey m (rSYNC 0x64))

/-- The mirror entries whose EN = 1 (R277). -/
def State.mirrorsOn (s : State) : List Nat := (List.range 1024).filter (fun m => bit (s.mirrorObj m) 31)

/-- The active mirror entry of an object. -/
def State.mirrorOf (s : State) (n : Nat) : Option Nat :=
  s.mirrorsOn.find? (fun m => ((s.mirrorObj m).extractLsb' 0 14).toNat = n)

/-- Address of a mirror entry's word. -/
def State.mirrorAddr (s : State) (m : Nat) : Addr := s.addrPair (bankKey m (rSYNC 0x68)) 3

/-- Write a mirrored value as an atomic max, or leave it for the write that is outstanding to follow up (R266). -/
def State.mirrorWrite (s : State) (m : Nat) : State :=
  if !s.flag (rSYNC 0x40) 1 then s
  else
    let x := s.mirrorE m
    if x.out then s.setMirror m { x with stale := true }
    else
      let v := (s.obj ((s.mirrorObj m).extractLsb' 0 14).toNat).value
      (s.setMirror m ⟨true, false, x.failed⟩).atomic (.max v) (s.mirrorAddr m) (.mirror m)

/-- The RDP byte address of an object's window (R242). -/
def soAddr (n : Nat) : Addr := BitVec.ofNat 57 (0x2000000 + n * 64)

/-- An event that names an object (R242). -/
def State.soEvent (s : State) (n code sev : Nat) : State :=
  s.raise { ev pSYNC code sev with akind := 2, addr := soAddr n, part := s.soOwner n }

/-- New value of an update (R241). -/
def UpdKind.value (k : UpdKind) (old v : Dword) : Dword :=
  match k with
  | .signal => if old ≤ v then v else old
  | .add => satAdd old v.toNat
  | .force => v

/-- Flag the object for a pass (R251): not twice while its pass has not started. -/
def State.flagPass (s : State) (n : Nat) : State :=
  if (s.obj n).flagged then s
  else { s.setObj n { s.obj n with flagged := true } with
    sync := { (s.setObj n { s.obj n with flagged := true }).sync with passes := s.sync.passes ++ [n] } }

/-- FORCE takes effect only with no waiter and no pass (R270); no poll entry or watch ever refers to an object, because they
refer to memory words. -/
def SyncObj.forceOk (o : SyncObj) : Bool := !o.waiters.any (fun w => !w.void) && !o.flagged

/-- Apply one update (R241, R242, R251, R266, R270, R274). -/
def State.applyUpd (s : State) (u : Upd) : State :=
  let n := u.so.toNat
  let o := s.obj n
  match u.kind with
  | .force =>
    if o.forceOk then
      let s := (s.setObj n { o with value := u.value, poison := false }).bump (rSYNC 0x98)
      if o.value = u.value then s else (match s.mirrorOf n with | some m => s.mirrorWrite m | none => s)
    else s.setErr pSYNC 16
  | k =>
    if o.poison then s
    else
      let v := k.value o.value u.value
      let s := (s.setObj n { o with value := v }).bump (rSYNC 0x98)
      let s := if k = .add ∧ 2 ^ 64 ≤ o.value.toNat + u.value.toNat then (s.bump (rSYNC 0xA0)).soEvent n 0x60 1 else s
      let s := if o.value < v ∧ o.minWait ≤ v then s.flagPass n else s
      if v = o.value then s else (match s.mirrorOf n with | some m => s.mirrorWrite m | none => s)

/-- The offer a bank takes: the first source after the one it served last, oldest offer of that source (R244). -/
def bankPick (offers : List Offer) (bank : BitVec 1) (last : Nat) : Option Offer :=
  let mine := offers.filter (fun o => o.upd.so.extractLsb' 0 1 = bank)
  ((List.range 5).map (fun i => (last + 1 + i) % 5)).findSome? (fun i => mine.find? (fun o => o.src.index = i))

/-- The offer that a bank takes next. -/
def State.bankNext (s : State) (bank : BitVec 1) : Option Offer :=
  bankPick s.sync.offers bank (if bank = 0#1 then s.sync.rot0 else s.sync.rot1)

/-- A bank takes an offer and applies it (R244, R245): the next pair of its unit is offered; the last pair of a SIGNAL entry
completes the entry (R112, R114), and the last pair of a launch lets Landing's next completion go on (R244). -/
def State.bankApply (s : State) (bank : BitVec 1) (o : Offer) : State :=
  let y := if bank = 0#1 then { s.sync with rot0 := o.src.index } else { s.sync with rot1 := o.src.index }
  let s := { s with sync := { y with offers := y.offers.erase o } }
  let s := s.applyUpd o.upd
  match o.rest, o.entry with
  | [], none => s.land3Next
  | [], some k =>
    let st := s.stream k.stream
    let s := s.setStream k.stream { st with sigPending := none }
    let s := if st.st = .blocked ∧ st.head = none then
        (if st.pause then s.updStream k.stream (fun x => { x with st := .paused }) else s.queueReady k.stream false) else s
    s.enterLanding k
  | rest, e => s.offer o.src rest e

/-! ## Fences (R258 to R265) -/

/-- Watch number n. -/
def State.watch (s : State) (n : Nat) : Watch := Tbl.get (fun _ => ⟨none, false⟩) s.sync.watches n

/-- Write a watch number. -/
def State.setWatch (s : State) (n : Nat) (w : Watch) : State :=
  { s with sync := { s.sync with watches := Tbl.set (fun _ => ⟨none, false⟩) s.sync.watches n w } }

/-- A watch number that may be used (R607): held by no waiter, no cancel outstanding. -/
def State.freeWatch (s : State) : Option Nat :=
  (List.range 256).find? (fun n => decide (s.watch n = ⟨none, false⟩))

/-- Take a poll entry, or wait in the poll queue (R260, R262). -/
def State.addPoll (s : State) (p : Poll) : State :=
  let mine := (s.sync.polls.filter (fun x => x.part = p.part)).length
  if s.sync.polls.length < 512 ∧ mine < s.num (rSYNC 0x48) 0 10 then { s with sync := { s.sync with polls := s.sync.polls ++ [p] } }
  else { s with sync := { s.sync with pollQ := s.sync.pollQ ++ [p] } }

/-- Streams of the poll queue take entries that have become free, oldest first (R262). -/
def State.fillPolls (s : State) : State :=
  let q := s.sync.pollQ
  q.foldl (fun s p => { s with sync := { s.sync with pollQ := s.sync.pollQ.erase p } }.addPoll p)
    { s with sync := { s.sync with pollQ := [] } }

/-- Subscribe a watch, or take a poll entry when the watch table is full (R264, R265). -/
def State.addWatch (s : State) (p : Poll) : State :=
  match s.freeWatch with
  | none => s.addPoll p
  | some n => (s.setWatch n ⟨some p, false⟩).issueFap (.watch (BitVec.ofNat 8 n) p.value) p.addr (.watch n)

/-- The entry is at stage 6 and waits for the first read of pair i's word (R259). A launch that was lost meanwhile is not: the
read's value releases and parks nothing (R249). -/
def Entry.awaits (e : Entry) (i : Nat) : Bool := decide (e.stage = .fence) && decide (e.pairDone = i)

/-- A fence word's value is known for a pair that waits on it: the pair holds, or the stream parks on it. -/
def State.fenceValue (s : State) (k : EKey) (i : Nat) (old : Dword) : State :=
  match s.entry k with
  | none => s
  | some e => match e.waitUnit with
    | none => s
    | some u =>
      let v := Line.w64 u (16 * i)
      let w := Line.w64 u (16 * i + 8)
      let a : Addr := w.extractLsb' 0 57
      if v ≤ old then s.stage6 k (i + 1)
      else if e.etype.isLaunch ∧ !e.inPark ∧ !s.parkValid then s.cbFault k 0x09
      else
        let p : Poll := ⟨k, i, e.part, a, v⟩
        let s := if s.isLocal a then s.addPoll p else s.addWatch p
        s.park k i v w

/-- A fence read failed (R274): a stream fault with code RING_READ at the entry's position; the entry is dropped without a
record (R146; log entry 20). -/
def State.fenceError (s : State) (k : EKey) : State :=
  match s.entry k with
  | none => s
  | some e =>
    let s := s.updStream k.stream (fun x => { x with head := none, waitValue := 0, waitTarget := 0 })
    let s := s.entrySlotIdle k
    (s.closeEntry k).streamFault k.stream 0x0A e.pos

/-- Release the stream of a satisfied poll entry (R260), or leave it. -/
def State.pollHit (s : State) (p : Poll) (v : Dword) : State :=
  if p.value ≤ v ∧ (p ∈ s.sync.polls ∨ p ∈ s.sync.pollQ) then
    let s := { s with sync := { s.sync with polls := s.sync.polls.erase p, pollQ := s.sync.pollQ.erase p } }
    (s.release (.pair p.who p.pair)).fillPolls
  else s

/-- A poll read failed (R274). -/
def State.pollFail (s : State) (p : Poll) : State :=
  if p ∈ s.sync.polls ∨ p ∈ s.sync.pollQ then
    ({ s with sync := { s.sync with polls := s.sync.polls.erase p, pollQ := s.sync.pollQ.erase p } }.fenceError p.who).fillPolls
  else s

/-- What a poll reads of a word's home: the line of a local word, the word itself of a remote one (R260, R265). -/
def State.pollKey (s : State) (a : Addr) : Addr := if s.isLocal a then a &&& ~~~63#57 else a

/-- Read a fence word for a poll or a resynchronisation (R60, R260, R265, R273): its line through MMP class FETCH when it is
local, and a FAP fetch-add of 0 otherwise. -/
def State.pollIssue (s : State) (a : Addr) : State :=
  if s.isLocal a then s.read a 1 (.poll a) else s.issueFap (.fetchAdd 0) a (.poll a)

/-- The value that a read of a poll's line, or of its word, gives it. -/
def State.pollValue (s : State) (line : Line) (p : Poll) : Dword := Line.w64 line (if s.isLocal p.addr then p.addr.toNat % 64 else 0)

/-- A poll read has returned, for the word or the line at an address (R260, R262): every poll entry on it, and every stream of the
poll queue that waits for a word of it, is evaluated. A read that failed faults their streams (R274). -/
def State.pollRead (s : State) (a : Addr) (err : Bool) (line : Line) : State :=
  ((s.sync.polls ++ s.sync.pollQ).filter (fun p => decide (s.pollKey p.addr = a))).foldl
    (fun s p => if err then s.pollFail p else s.pollHit p (s.pollValue line p)) s

/-- A read of a wake's resynchronisation (R273) has returned: every poll entry and every watch on it is evaluated. A read that
failed faults their streams (R274). -/
def State.resyncRead (s : State) (a : Addr) (err : Bool) (line : Line) : State :=
  let same := fun (p : Poll) => decide (s.pollKey p.addr = a)
  let value := s.pollValue line
  let s := s.pollRead a err line
  (s.sync.watches.filterMap (fun x => x.2.held.map (fun p => (x.1, p)))).foldl (fun (s : State) (x : Nat × Poll) =>
    if same x.2 ∧ (err ∨ x.2.value ≤ value x.2) then
      let s := (s.setWatch x.1 ⟨none, true⟩).issueFap (.cancel (BitVec.ofNat 8 x.1)) x.2.addr (.watchCancel x.1)
      if err then s.fenceError x.2.who else s.release (.pair x.2.who x.2.pair)
    else s) s

/-- FENCE_READ_RETURN (R259, R260, R265, R273): the first read of a fence word, a poll read, or a read of a wake's
resynchronisation. -/
def execFenceReadReturn (fab : Bool) (mtag : BitVec 8) (gen : BitVec 4) (err : Bool) (line : Line) (s : State) :
    Host.Outcome State Fault Refusal :=
  let r := if fab then s.answerFap mtag gen else s.answer true mtag gen
  match r.2 with
  | none => .next r.1
  | some q => match q.why with
    | .fenceRead k i =>
      if !(match r.1.entry k with | some e => e.awaits i | none => false) then .next r.1
      else if err then .next (r.1.fenceError k)
      else
        let off := if fab then 0 else (match (r.1.entry k).bind (·.waitUnit) with
          | some u => (Line.w64 u (16 * i + 8)).toNat % 64
          | none => 0)
        let v := Line.w64 line off
        .next (r.1.fenceValue k i v)
    | .poll a => .next (if r.1.pwr.mode = .waking then r.1.resyncRead a err line else r.1.pollRead a err line)
    | _ => .next s

/-- The reads of one interval: each line, or remote word, of the poll table once, and the word of each stream in the poll queue
(R260, R262, R265). -/
def State.pollReads (s : State) : List Addr := distinct (s.sync.polls.map (fun p => s.pollKey p.addr)) ++ s.sync.pollQ.map (fun p => s.pollKey p.addr)

/-- `l` in the order that `order` names; what it does not name comes last, as it stands. -/
def inOrder {α : Type} [DecidableEq α] (order l : List α) : List α :=
  (distinct order).flatMap (fun a => l.filter (fun x => decide (x = a))) ++ l.filter (fun x => decide (x ∉ order))

/-- POLL_INTERVAL (R260, R262, R265): an interval has ended; its reads are issued and counted, and FENCE_READ_RETURN evaluates what
they return. No rule fixes the order of the reads: the command names it (log entry 41). There are no polls in DROWSE (R273). -/
def execPollInterval (order : List Addr) (s : State) : Host.Outcome State Fault Refusal :=
  if !s.powered 13 ∨ s.pwr.mode = .down ∨ s.pwr.mode = .waking then .next s
  else if s.pollReads = [] then .next s
  else
    let s := s.idleExit
    let reads := inOrder order s.pollReads
    .next (reads.foldl State.pollIssue (s.wr (rSYNC 0x74) (satAdd (s.rd (rSYNC 0x74)) reads.length)))

/-- Landing's fence write has left a word at a value: the poll entries of that word see it at once (R261). -/
def State.fenceWritten (s : State) (a : Addr) (v : Dword) : State :=
  (s.sync.polls.filter (fun p => p.addr = a)).foldl (fun s p => s.pollHit p v) s

/-- WATCH_NOTIFY (R264, R607). -/
def execWatchNotify (watch : BitVec 8) (gen : BitVec 4) (value : Dword) (s : State) : Host.Outcome State Fault Refusal :=
  if !s.powered 29 then .next s else
  let s := s.idleExit
  if gen ≠ s.fapGen then .next (s.bump (pageAddr pCLKR 0x14C))
  else match s.watch watch.toNat with
    | ⟨some p, _⟩ =>
      if p.value ≤ value then .next ((s.setWatch watch.toNat ⟨none, false⟩).release (.pair p.who p.pair)) else .next s
    | ⟨none, _⟩ =>
      .next ((s.setWatch watch.toNat ⟨none, false⟩).bump (rSYNC 0xA4))

/-- WATCH_CANCEL_DONE (R607): the RESULT of a CANCEL frees the watch number. -/
def execWatchCancelDone (mtag : BitVec 8) (gen : BitVec 4) (_err : Bool) (s : State) : Host.Outcome State Fault Refusal :=
  let r := s.answerFap mtag gen
  match r.2 with
  | some ⟨_, _, _, _, _, _, _, .watchCancel n⟩ => .next (r.1.setWatch n ⟨(r.1.watch n).held, false⟩)
  | some ⟨_, _, _, _, _, _, _, .watch _⟩ => .next r.1
  | none => .next r.1
  | _ => .next s

/-- Void the waiters that a test picks (R249): entries of lists are marked, poll entries go, held watches are cancelled. -/
def State.voidWaiters (s : State) (f : EKey → Bool) : State :=
  let objs := Tbl.remap (fun _ => SyncObj.reset) (fun o => { o with
    waiters := o.waiters.map (fun w => if f w.who.key then { w with void := true } else w)
    minWait := minWaitOf (o.waiters.filter (fun w => !f w.who.key)) }) s.sync.objs
  let gone := (List.range 256).filter (fun n => match (s.watch n).held with | some p => f p.who | none => false)
  let s := { s with sync := { s.sync with
    objs := objs, polls := s.sync.polls.filter (fun p => !f p.who), pollQ := s.sync.pollQ.filter (fun p => !f p.who),
    offers := s.sync.offers } }
  let s := gone.foldl (fun s n => match (s.watch n).held with
    | some p => (s.setWatch n ⟨none, true⟩).issueFap (.cancel (BitVec.ofNat 8 n)) p.addr (.watchCancel n)
    | none => s) s
  s.fillPolls

/-! ## Mirrors and software atomics -/

/-- The result of a mirror write (R267). -/
def execMirrorWriteResult (fab : Bool) (mtag : BitVec 8) (gen : BitVec 4) (err : Bool) (_old : Dword) (s : State) :
    Host.Outcome State Fault Refusal :=
  let r := s.answerAtom fab mtag gen
  match r.2 with
  | none => .next r.1
  | some q => match q.why with
    | .mirror m =>
      let s := r.1
      let x := s.mirrorE m
      if err then
        let s := (s.setMirror m ⟨false, x.stale, true⟩).setErr pSYNC 19
        .next (s.raise { ev pSYNC 0x61 1 with akind := 1, addr := s.mirrorAddr m })
      else
        let s := s.setMirror m ⟨false, false, false⟩
        .next (if x.stale ∧ bit (s.mirrorObj m) 31 then s.mirrorWrite m else s)
    | _ => .next s

/-- MIRROR_RETRY (R267): at each poll interval a failed mirror write is made again with the latest value. -/
def execMirrorRetry (s : State) : Host.Outcome State Fault Refusal :=
  if !s.powered 13 then .next s else
  .next (s.mirrorsOn.foldl (fun s m => if (s.mirrorE m).failed ∧ !(s.mirrorE m).out then s.mirrorWrite m else s) s)

/-- A write of SYNC.ATOM_CMD with an assigned OP (R268, R276); the operand registers are read at the write. -/
def State.atomCmd (s : State) (op : BitVec 4) : State :=
  if s.flag (rSYNC 0x70) 27 then s.setErr pSYNC 20
  else
    let a : Addr := (s.rd64 (rSYNC 0x78)).extractLsb' 0 57
    let v := s.rd64 (rSYNC 0x80)
    let c := s.rd64 (rSYNC 0x88)
    let o : MOp := if op = 1 then .fetchAdd v else if op = 2 then .max v else .cas c v
    (s.setBit (rSYNC 0x70) 27 true).atomic o a .atom

/-- ATOM_RESULT (R268, R276). -/
def execAtomResult (fab : Bool) (mtag : BitVec 8) (gen : BitVec 4) (err : Bool) (old : Dword) (s : State) :
    Host.Outcome State Fault Refusal :=
  let r := s.answerAtom fab mtag gen
  match r.2 with
  | none => .next r.1
  | some q =>
    if q.why = .atom then
      let s := (r.1.setBit (rSYNC 0x70) 27 false).setBit (rSYNC 0x70) 26 err
      .next (s.wr64 (rSYNC 0x90) (if err then 0 else old))
    else .next s

/-- A write of SYNC.CTRL (R276): on a write of MIRROR_EN = 1 every mirrored value is written once. -/
def State.mirrorEnable (s : State) : State := s.mirrorsOn.foldl (fun s m => s.mirrorWrite m) s

/-- A write of SYNC.MIRROR_OBJ (R276, R277): an object outside the space or already mirrored is refused. -/
def State.mirrorObjWrite (s : State) (m : Nat) (v : Word) : State :=
  let key := bankKey m (rSYNC 0x64)
  if v.extractLsb' 14 6 ≠ 0#6 then s.setErr pSYNC roWrite
  else if bit v 31 then
    if bit (s.rd key) 31 then s.setErr pSYNC 17
    else if (s.mirrorOf (v.extractLsb' 0 14).toNat).isSome then s.setErr pSYNC 17
    else ((s.wr key (v &&& 0x800FFFFF)).setMirror m ⟨(s.mirrorE m).out, false, false⟩).mirrorWrite m
  else if bit (s.rd key) 31 then (s.setBit key 31 false).setMirror m ⟨(s.mirrorE m).out, false, false⟩
  else s.wr key (v &&& 0x800FFFFF)

end Sys2Proof.Machine
end

