-- ==== Sys2Proof/Machine/Loss.lean ====
section
/-! DEFINITION. Cores and threads, the loss of a context and the abort of launches (spec/03_tenancy_objects.md R81, R82,
spec/06_skerry_cores.md R226, spec/09_dispatch_and_qos.md R325). -/
namespace Sys2Proof.Machine

/-! ## Threads -/

/-- The thread of an entry goes FREE (R221, R226). -/
def State.freeThread (s : State) (e : Entry) : State :=
  match e.core, e.thread with
  | some k, some t => s.setThread k t Thread.reset
  | _, _ => s

/-! ## Operations of a launch -/

/-- The operation counts as completed (R158). -/
def OpState.isOver : OpState → Bool
  | .done | .skipped => true
  | _ => false

/-- Operations completed so far (R211 COMPLETED). -/
def Entry.nDone (e : Entry) : Nat := (e.ops.filter (·.isOver)).length

/-- Nothing of the launch is outstanding: every issued operation has completed (R221). -/
def Entry.settled (e : Entry) : Bool := e.ops.all (fun o => o.isOver || decide (o = .idle))

/-- Once END has executed and every issued operation has completed, the launch reaches t_done (R221, R405). -/
def State.tryDone (s : State) (k : EKey) : State :=
  match s.entry k with
  | none => s
  | some e => if e.ended ∧ e.settled ∧ e.stage = .draining then s.done k else s

/-- A command is an operation of the launch. -/
def CmdWho.isOf (w : CmdWho) (k : EKey) : Bool := match w with | .op e _ => decide (e = k) | .gather _ _ _ => false

/-- Remove a launch's candidates and queued flits (R325): each removed flit returns its engine-queue entry. -/
def State.dropFlits (s : State) (f : CmdWho → Bool) : State :=
  { s with disp := { s.disp with
    cands := s.disp.cands.filter (fun c => !f c.who)
    cmds := s.disp.cmds.filter (fun c => !(f c.who && decide (c.stage = .queued))) } }

/-- Abort a running launch (R82, R226, R249, R325): its thread goes FREE, its candidates and queued flits are removed and its
waiters voided; what was not sent counts as skipped; the launch completes once its sent operations have reported. -/
def State.abort (s : State) (k : EKey) (code : BitVec 8) : State :=
  match s.entry k with
  | none => s
  | some e =>
    if e.executed ∧ !e.aborted ∧ (e.stage = .running ∨ e.stage = .draining) then
      let still := fun i => s.disp.cmds.any (fun c => decide (c.who = .op k i) && decide (c.stage ≠ .queued))
      let ops := e.ops.mapIdx (fun i o => if o.isOver ∨ o = .idle then o else if still i then o else .skipped)
      let s := (s.dropFlits (fun w => w.isOf k)).freeThread e
      let s := s.voidWaiters (fun j => decide (j = k))
      let s := s.setEntry k (some { e.failed ⟨5, code, 0⟩ with
        aborted := true, ended := true, stage := .draining, ops := ops, core := none, thread := none })
      s.tryDone k
    else s

/-! ## Context loss (R81) -/

/-- The Harbour slot that holds a context. -/
def State.slotOf (s : State) (p : BitVec 4) (ctx : BitVec 16) : Option Nat :=
  (List.range 64).find? (fun k => let sl := s.slot k; decide (sl.st ≠ .free) && decide (sl.part = p) && decide (sl.ctx = ctx))

/-- A context record's line 0x40: VALID, LOST, DESTROYED (R73). -/
def recValid (l : Line) : Bool := bit l 0
def recLost (l : Line) : Bool := bit l 1

/-- Set LOST, LOST_REASON, LOST_TIME and LOST_STREAM in line 0x40; a context already lost keeps its first reason (R81). -/
def recLose (l : Line) (reason : BitVec 8) (time : Dword) (stream : BitVec 20) : Line :=
  if recLost l then l
  else
    let w : Word := (Line.w32 l 0 &&& 0xFFFF00FF) ||| 2#32 ||| (reason.setWidth 32 <<< 8)
    Line.put (Line.put (Line.put l 0 w) 0x10 time) 0x18 (stream.setWidth 32)

/-- Address of a context's record (R73). -/
def State.ctxAddr (s : State) (p : BitVec 4) (ctx : BitVec 16) : Addr :=
  s.addrPair (rPART p 0x60) 8 + BitVec.ofNat 57 (ctx.toNat * 256)

/-- Change line 0x40 of a context's record where it is held: in its slot, in its staged copy, or in memory (R75, R81, R93).
A change to a slot whose record is still being read is made when the record arrives. -/
def State.ctxLine1 (s : State) (p : BitVec 4) (ctx : BitVec 16) (f : Line → Line) (ch : CtxChange) : State :=
  let later := { s with harb := { s.harb with changes := s.harb.changes ++ [(p, ctx, ch)] } }
  match s.slotOf p ctx with
  | some k =>
    let sl := s.slot k
    if sl.st = .loading ∧ sl.missing = 4 then later
    else s.setSlot k { sl with recLines := sl.recLines.modify 1 f }
  | none =>
    if s.harb.staged.any (fun x => decide (x.part = p) && decide (x.ctx = ctx)) then
      { s with harb := { s.harb with staged := s.harb.staged.map (fun x =>
          if x.part = p ∧ x.ctx = ctx then { x with lines := x.lines.modify 1 f, again := true } else x) } }
    else if s.harb.changes.any (fun x => decide (x.1 = p) && decide (x.2.1 = ctx)) then later
    else later.read (s.ctxAddr p ctx + 0x40) 1 (.ctxMod p ctx)

/-- Line 0x40 as Harbour or its staging holds it. -/
def State.heldLine1 (s : State) (p : BitVec 4) (ctx : BitVec 16) : Option Line :=
  match s.slotOf p ctx with
  | some k => if (s.slot k).st = .loading ∧ (s.slot k).missing = 4 then none else some ((s.slot k).recLines.getD 1 0)
  | none => (s.harb.staged.find? (fun x => decide (x.part = p) && decide (x.ctx = ctx))).map (fun x => x.lines.getD 1 0)

/-- What follows from a context's loss for its launches (R82, R249): running ones are aborted, parked ones complete. -/
def State.loseLaunches (s : State) (p : BitVec 4) (ctx : BitVec 16) (code : BitVec 8) : State :=
  let mine := (s.allEntries.filter (fun x => x.2.etype.isLaunch && decide (x.2.part = p) && decide (x.2.ctx = ctx.setWidth 24))).map (·.1)
  let s := mine.foldl (fun s k => s.abort k code) s
  let parked := mine.filter (fun k => match s.entry k with
    | some e => decide (e.stage = .parked) || decide (e.stage = .fence)
    | none => false)
  let s := s.voidWaiters (fun j => parked.contains j)
  parked.foldl (fun s k => (s.updStream k.stream (fun x => { x with waitValue := 0, waitTarget := 0 })).refuseLaunch k ⟨6, 0, 0⟩) s

/-- Lose a context (R81, R82): mark it, count it, and do what follows for its launches. -/
def State.loseCtx (s : State) (p : BitVec 4) (ctx : BitVec 16) (reason : BitVec 8) (stream : BitVec 20) (code : BitVec 8) : State :=
  let counted := match s.heldLine1 p ctx with | some l => recLost l | none => true
  let s := if counted then s else s.bump (rPART p 0x88)
  let s := s.ctxLine1 p ctx (fun l => recLose l reason s.time stream) (.lose reason s.time stream)
  s.loseLaunches p ctx code

/-- An S3 event attributed to a context (R473): the event, then the loss with reason FAULT. -/
def State.ctxFault (s : State) (v : Event) (p : BitVec 4) (ctx : BitVec 16) (stream : BitVec 14) (code : BitVec 8) : State :=
  (s.raise v).loseCtx p ctx 0x03 (stream.setWidth 20) code

end Sys2Proof.Machine
end

