-- ==== Sys2Proof/Machine/Scale.lean ====
section
/-! DEFINITION. SC12 scales, clip shares and the scale tracker (spec/11_engine_ports_and_formats.md R389 to R402). -/
namespace Sys2Proof.Machine

/-- Register addresses of the SCAL page (R402). -/
def rSCAL (off : Nat) : Nat := pageAddr pSCAL off

/-- A scale entry. -/
def State.scaleE (s : State) (n : Nat) : ScaleE := Tbl.get (fun _ => ScaleE.reset) s.scales n

/-- Write a scale entry. -/
def State.setScale (s : State) (n : Nat) (x : ScaleE) : State :=
  { s with scales := Tbl.set (fun _ => ScaleE.reset) s.scales n x }

/-- qmax of a format as a fraction (R389). -/
def qmax : Nat → Nat × Nat
  | 0x00 => (2 ^ 128 - 2 ^ 104, 1) | 0x01 => (65504, 1) | 0x02 => (2 ^ 128 - 2 ^ 120, 1) | 0x03 => (448, 1)
  | 0x04 => (57344, 1) | 0x05 => (28, 1) | 0x06 => (15, 2) | 0x07 => (6, 1) | 0x08 => (2147483647, 1) | 0x09 => (32767, 1)
  | 0x0A => (127, 1) | 0x0B => (255, 1) | 0x0C => (7, 1) | 0x0D => (448, 1) | 0x0E => (6, 1) | _ => (127, 64)

/-- The magnitude of a finite FP32 number, as a multiple of 2^-149. -/
def fp32Mag (x : Word) : Nat :=
  let e := (x.extractLsb' 23 8).toNat
  let f := (x.extractLsb' 0 23).toNat
  if e = 0 then f else (2 ^ 23 + f) * 2 ^ (e - 1)

/-- FP32 infinity or NaN. -/
def fp32Special (x : Word) : Bool := decide (x.extractLsb' 23 8 = 0xFF#8)

/-- The SC12 code `c` is a value not below num / den (R393). -/
def sc12Ge (c num den : Nat) : Bool := decide (num * 2 ^ 131 ≤ (16 + c % 16) * 2 ^ (c / 16) * den)

/-- roundup_SC12 of num / den (R394): bit by bit, the least code whose value is not below it. -/
def sc12Up (num den : Nat) : BitVec 12 :=
  let c := ((List.range 12).reverse).foldl (fun c b => if sc12Ge (c + 2 ^ b - 1) num den then c else c + 2 ^ b) 0
  BitVec.ofNat 12 (max 0x010 (min c 0xFFF))

/-- Clip code of k clips in e elements (R395), where k ≤ e. -/
def clipCode (k e : Nat) : BitVec 8 :=
  if k = 0 ∨ e = 0 then 255
  else BitVec.ofNat 8 (min 254 (Nat.log2 (e ^ 16 / k ^ 16)))

/-- The step end of an entry (R396); R395 gives no code for a clip share above 1 (log entry 3). -/
def ScaleE.stepEnd (x : ScaleE) : ScaleE :=
  let hist := x.curMax :: x.hist.take 7
  let steps := min (x.steps + 1) 8
  let mx := (hist.take (min (x.k.toNat + 1) steps)).foldl (fun a b => if a < b then b else a) 0#32
  let q := qmax x.fmt.toNat
  { x with
    hist := hist, steps := steps, scale := sc12Up (fp32Mag mx * q.2) (2 ^ 149 * q.1)
    clip := if x.curElems < x.curClips ∧ x.curElems ≠ 0 then Config.clipOver x.curClips x.curElems else clipCode x.curClips.toNat x.curElems.toNat
    curMax := 0, curClips := 0, curElems := 0 }

/-- The tracker applies a report of a command with SUSE = 1 and STATS = 1 (R396, R400). -/
def State.scaleReport (s : State) (n : Nat) (amax clips elems : Word) (send : Bool) : State :=
  let x := s.scaleE n
  if x.poison then s
  else
    let s := if fp32Special amax then (s.bump (rSCAL 0x80)).setErr pSCAL 17 else s
    let a := amax &&& 0x7FFFFFFF
    let x := if fp32Special amax then { x with nonfin := true } else { x with curMax := if x.curMax < a then a else x.curMax }
    let x := { x with curClips := satAdd x.curClips clips.toNat, curElems := satAdd x.curElems elems.toNat }
    if send then (s.setScale n x.stepEnd).bump (rSCAL 0x7C) else s.setScale n x

/-- A write of SCAL.INIT (R399, R402). -/
def State.scalInit (s : State) (v : Word) : State :=
  if v.extractLsb' 4 8 = 0#8 then s.setErr pSCAL 16
  else
    let n := s.num (rSCAL 0x40) 0 14
    let x := s.scaleE n
    s.setScale n { ScaleE.reset with scale := v.extractLsb' 0 12, k := x.k, fmt := x.fmt }

/-- A write of SCAL.CFG (R392, R399, R402). -/
def State.scalCfg (s : State) (v : Word) : State :=
  if (v.extractLsb' 0 6).toNat ≤ 0xF then
    let n := s.num (rSCAL 0x40) 0 14
    s.setScale n { s.scaleE n with k := v.extractLsb' 16 3, fmt := v.extractLsb' 0 6 }
  else s.setErr pSCAL 16

end Sys2Proof.Machine
end

