-- ==== Sys2Proof/Machine/Work.lean ====
section
/-! DEFINITION. What a running launch does with its operations and its thread: dependencies, skips, candidates, the ends of
instructions and of threads (spec/05_command_buffers.md R154 to R159, spec/06_skerry_cores.md, spec/11 R381). -/
namespace Sys2Proof.Machine

/-! ## The launch block and the operation lines (R177, R178) -/

/-- P_COUNT, OP_COUNT, CONST_IN and PROG_LEN of a launch block. -/
def blkP (b : Line) : Nat := ((Line.w32 b 8).extractLsb' 25 6).toNat
def blkOps (b : Line) : Nat := ((Line.w32 b 8).extractLsb' 16 9).toNat
def blkConst (b : Line) : Bool := bit (Line.w32 b 8) 31
def blkLen (b : Line) : Nat :=
  let n := ((Line.w32 b 8).extractLsb' 0 16).toNat
  if n = 0 then 32768 else n
/-- PROG_ADDR, SEED and TAG of a launch block. -/
def blkProg (b : Line) : Addr := (Line.w64 b 0).extractLsb' 0 57
def blkSeed (b : Line) : Dword := Line.w64 b 0x20
def blkTag (b : Line) : Word := Line.w32 b 0x34

/-- Lines before the operation lines (R177). -/
def opBase (b : Line) : Nat := 1 + ceilDiv (blkP b) 16 + (if blkConst b then 4 else 0)

/-- The lines of an entry: in its thread once it has started, in the expansion store before (R201, R203). -/
def State.linesOf (s : State) (e : Entry) : List Line :=
  match e.core, e.thread with
  | some k, some t => (s.thread k t).lines
  | _, _ => e.lines

/-- The launch block of an entry. -/
def State.blockOf (s : State) (e : Entry) : Line := (s.linesOf e).getD 0 0

/-- Operation line i of an entry. -/
def State.opLine (s : State) (e : Entry) (i : Nat) : Line :=
  let ls := s.linesOf e
  ls.getD (opBase (ls.getD 0 0) + i) 0

/-- KIND of an operation line (R154). -/
def opKind (l : Line) : Nat := (Line.byte l 0).toNat

/-- The operations that operation i depends on (R154, R158). -/
def opDeps (l : Line) (i : Nat) : List Nat :=
  if bit (Line.w32 l 0) 8 then List.range i
  else (List.range (min i 64)).filterMap (fun b => if bit (Line.w64 l 8) b then some (i - 1 - b) else none)

/-- Every operation that operation i depends on has completed. -/
def Entry.depsOver (e : Entry) (l : Line) (i : Nat) : Bool := (opDeps l i).all (fun j => (e.ops.getD j .idle).isOver)

/-- Every operation that operation i depends on has been issued (R159). -/
def Entry.depsIssued (e : Entry) (l : Line) (i : Nat) : Bool := (opDeps l i).all (fun j => decide (e.ops.getD j .idle ≠ .idle))

/-- The port of operation i (R154, R310, R322). -/
def State.opPort (s : State) (_k : EKey) (e : Entry) (l : Line) (i : Nat) : Option Nat :=
  let w := Line.w32 l 0
  if bit w 9 then
    let ps := e.places.getD (w.extractLsb' 24 4).toNat []
    if ps.isEmpty then none else ps[(e.seqNo.toNat + i) % ps.length]?
  else (s.portsOf e.part)[(w.extractLsb' 16 7).toNat]?

/-- BODY word j of an operation line (R154). -/
def opBody (l : Line) (j : Nat) : Dword := Line.w64 l (0x20 + 8 * j)

/-- Operand slot j is used (R154). -/
def slotUsed (l : Line) (j : Nat) : Bool := decide (Line.byte l (0x10 + j) ≠ 0xFF#8)

/-! ## Body checks (R381) -/

/-- The row-length unit of a format (R390). -/
def fmtUnit (f : Nat) : Nat := if f = 7 ∨ f = 0xC then 2 else if f = 5 ∨ f = 6 then 4 else if 0xD ≤ f then 32 else 1

/-- A row of `b` bytes holds whole groups of a format (R390). -/
def rowBytesOk (f b : Nat) : Bool :=
  if f = 5 ∨ f = 6 then b % 3 = 0 else if f = 0xE then b % 17 = 0 else if 0xD ≤ f then b % 33 = 0 else true

/-- SUSE, SEND and SCALE of a body by kind (R374, R377, R379). -/
def bodyScale (kind : Nat) (b : List Dword) : Bool × Bool × Nat :=
  let w2 := b.getD 2 0
  let w3 := b.getD 3 0
  match kind with
  | 1 => (bit w3 22, bit w3 23, (w3.extractLsb' 24 10).toNat)
  | 2 => (bit w2 50, bit w2 51, (w2.extractLsb' 52 10).toNat)
  | 3 => (bit w2 44, bit w2 45, (w2.extractLsb' 46 10).toNat)
  | _ => (false, false, 0)

/-- The check of R381 on an operation line: the code of the first failure. -/
def State.bodyCheck (s : State) (part : BitVec 4) (l : Line) : Option Nat :=
  let w1 := opBody l 1
  let w2 := opBody l 2
  let w3 := opBody l 3
  let kind := ((opBody l 0).extractLsb' 57 7).toNat
  let f := fun (w : Dword) (lo n : Nat) => (w >>> lo).toNat % 2 ^ n
  let sc := bodyScale kind [opBody l 0, w1, w2, w3]
  let poison := sc.1 && (s.scaleE (part.toNat * 1024 + sc.2.2)).poison
  let pick := fun (body fmt pack : Bool) =>
    if !body then some 0x40 else if !fmt then some 0x41 else if !pack then some 0x42 else if poison then some 0x43 else none
  match kind with
  | 1 =>
    let mode := f w3 18 3
    let m := f w3 34 7
    let n := f w3 41 7
    let kk := f w3 48 8
    let a := f w3 0 6
    let b := f w3 6 6
    let c := f w3 12 6
    let okk := fun x len => decide (len % fmtUnit x = 0)
    pick (slotUsed l 0 && slotUsed l 1 && slotUsed l 2 && !slotUsed l 3 && decide (f w3 56 8 = 0) && decide (mode ≤ 4) &&
        decide (f w1 57 7 ≤ m) && decide (f w2 57 7 ≤ n) && (decide (mode < 3) || decide (kk = 0)))
      (decide (a ≤ 0xF) && decide (b ≤ 0xF) && decide (c ≤ 0xF))
      (okk a (kk + 1) && okk b (if mode = 1 ∨ mode = 2 then kk + 1 else n + 1) && okk c (n + 1))
  | 2 =>
    pick (slotUsed l 0 && slotUsed l 1 && !slotUsed l 2 && !slotUsed l 3 && decide (f w1 57 7 = 0) && decide (f w2 13 13 ≠ 0) &&
        decide (f w2 0 13 + f w2 13 13 ≤ 4096) && decide (f w2 48 2 ≠ 3) && decide (f w2 62 2 = 0) && decide (f w3 15 49 = 0))
      (decide (f w2 36 6 ≤ 0xF) && decide (f w2 42 6 ≤ 0xF))
      (rowBytesOk (f w2 36 6) (64 * (f w2 26 10 + 1)))
  | 3 =>
    pick (slotUsed l 0 && slotUsed l 1 && !slotUsed l 2 && !slotUsed l 3 && decide (f w1 57 7 = 0) && decide (w3 = 0) &&
        decide (f w2 0 32 ≠ 0) && decide (f w2 56 8 = 0))
      (decide (f w2 32 6 ≤ 0xF) && decide (f w2 38 6 ≤ 0xF))
      (decide (f w2 0 32 % fmtUnit (f w2 32 6) = 0) && decide (f w2 0 32 % fmtUnit (f w2 38 6) = 0))
  | n => if 0x20 ≤ n ∧ n ≤ 0x3F then none else some 0x40

/-! ## Skips and ends of threads (R216, R221, R230) -/

/-- Register addresses of the port's EPRT page. -/
def unitEPRT (n : Nat) : Nat := pEPRT n

/-- A skipped instruction's code for the launch of a thread (R230): SKRY.INSN_SKIPPED, INSN, the S1 event of the launch's
first skip, and status OP_SKIPPED. `op` is an operation that the code skips too. ISSUE_ORDER is a check of R191 as well: each one is
an event, and counts in FERRY.OPS_SKIPPED (R194). -/
def State.skipInsn (s : State) (c : BitVec 4) (t : BitVec 3) (code : Nat) (op : Option Nat) : State :=
  let th := s.thread c t
  match th.launch with
  | none => s
  | some k => match s.entry k with
    | none => s
    | some e =>
      let s := (s.bump (rSKRY c 0x8C)).setErr (pSKRY c) 20
      let v := { (ev (pSKRY c) code 1).ofEntry k e with
        akind := 3, addr := (t.setWidth 57 <<< 16) ||| BitVec.ofNat 57 (th.pc % 32768), index := op }
      let s := if code = 0x15 then s.bump (pageAddr pFERY 0x84) else s
      let s := if th.skipSeen ∧ code ≠ 0x15 then s else s.raise v
      let s := s.setThread c t { th with skipSeen := true }
      let e := e.failed ⟨1, BitVec.ofNat 8 code, BitVec.ofNat 8 (op.getD 0)⟩
      s.setEntry k (some (match op with
        | some i => { e with ops := e.ops.set i .skipped, issued := e.issued + 1 }
        | none => e))

/-- END (R221): the thread goes FREE; operations not issued are dropped; the launch completes once the issued ones have. -/
def State.endThread (s : State) (c : BitVec 4) (t : BitVec 3) : State :=
  let th := s.thread c t
  let s := s.setThread c t Thread.reset
  match th.launch with
  | none => s
  | some k =>
    let s := s.updEntry k (fun e => { e with ended := true, stage := .draining, core := none, thread := none, lines := th.lines })
    s.tryDone k

/-- An instruction retires (R496) and the thread goes to `pc`; running on to PROG_LEN ends it as END does, with code RUN_OFF
(R216). A jump has checked its own target. -/
def State.retire (s : State) (c : BitVec 4) (t : BitVec 3) (pc : Nat) : State :=
  let th := s.thread c t
  let part := (th.launch.bind s.entry).map (·.part)
  let s := match part with | some p => s.progress p | none => s
  let s := s.setThread c t { th with
    pc := pc, retired := satAdd th.retired 1, progress := 0, resumed := false, counted := false, patched := false, stepping := false,
    stall := .none, st := if th.st = .stalled ∨ th.st = .waiting then .running else th.st }
  if pc = blkLen (th.lines.getD 0 0) then (s.skipInsn c t 0x24 none).endThread c t else s

/-- A thread that waits for room in its dependency window may retry (R217); one that has been halted meanwhile, once it goes on. -/
def State.windowLeaves (s : State) (e : Entry) : State :=
  match e.core, e.thread with
  | some c, some t =>
    let th := s.thread c t
    if th.stall ≠ .window then s
    else if th.st = .stalled then s.setThread c t { th with st := .running, stall := .none }
    else s.setThread c t { th with stall := if th.st = .brk then .none else .retry }
  | _, _ => s

/-! ## Candidates (R309, R310, R381, R512) -/

/-- mix64 (R448). -/
def mix64 (x : Dword) : Dword :=
  let x := x ^^^ (x >>> 33)
  let x := x * 0x9e6d5a3cb1f42e87
  let x := x ^^^ (x >>> 31)
  let x := x * 0xd2b741c96a83f0e5
  x ^^^ (x >>> 29)

/-- The header of an operation's command (R367) without GEN, CTAG and SCALE. -/
def opHdr (k : EKey) (e : Entry) (blk : Line) (l : Line) (i eidx : Nat) : List Dword :=
  let kind := (opBody l 0).extractLsb' 57 7
  let w : BitVec 1 := ofBool (decide (e.etype = .tableUpdate))
  let h0 : Dword := 0#1 ++ w ++ 0#13 ++ e.ctx ++ 0#2 ++ e.part ++ kind ++ classOf k.stream ++ 0#10
  [h0, 0#8 ++ BitVec.ofNat 8 i ++ e.epoch, e.seqNo, mix64 (blkSeed blk ^^^ e.seqNo ^^^ BitVec.ofNat 64 eidx)]

/-- The engine index of a port for a launch (R447): its position in the list of its class, 0 when it is in none. -/
def State.engineIndex (s : State) (e : Entry) (n : Nat) : Nat :=
  ((e.places.getD (s.num (rEPRT n 0x40) 0 4) []).findIdx? (· = n)).getD 0

/-- A report status handled as ERROR (R383, R512): EPRT.ENGINE_ERRS and LAST_ERR, the S3 event, whose code the spec does not
number (log entry 3), and the loss of the context; `code` is the CODE of the launches that it aborts (R414). -/
def State.opError (s : State) (k : EKey) (e : Entry) (port : Nat) (kind status detail opidx code : BitVec 8) : State :=
  let w : Word := 1#1 ++ kind.extractLsb' 0 7 ++ status ++ detail ++ opidx
  let s := ((s.bump (rEPRT port 0x64)).wr (rEPRT port 0x6C) w).setErr (pEPRT port) 18
  let v := { (ev (pEPRT port) 0 3).ofEntry k e with code := Config.eventCode 3 }
  s.ctxFault v e.part (e.ctx.extractLsb' 0 16) k.stream code

/-- Skip an operation (R158, R381, R383): it counts as completed, and the launch carries the code. -/
def State.skipOp (s : State) (k : EKey) (i : Nat) (code : BitVec 8) : State :=
  s.updEntry k (fun e => { e.failed ⟨1, code, BitVec.ofNat 8 i⟩ with ops := e.ops.set i .skipped })

/-- Operation i becomes a candidate from the next CCLK on (R309), unless its body check fails (R381) or its port is out of service (R512). -/
def State.makeCand (s : State) (k : EKey) (i : Nat) (issuing : Bool) : State :=
  match s.entry k with
  | none => s
  | some e =>
    let l := s.opLine e i
    match s.opPort k e l i with
    | none => s.skipOp k i 0x11
    | some n => match s.bodyCheck e.part l with
      | some code =>
        let s := (s.bump (rEPRT n 0x68)).raise { (ev (pEPRT n) code 1).ofEntry k e with index := some i }
        s.skipOp k i (BitVec.ofNat 8 code)
      | none =>
        let p := Tbl.get (fun _ => Port.reset) s.ports n
        if p.st = .inService ∨ p.st = .draining then
          let c : Cand := ⟨.op k i, n, classOf k.stream, e.part, funcOf k.stream, s.cclk + 1, 0,
            opHdr k e (s.blockOf e) l i (s.engineIndex e n), [opBody l 0, opBody l 1, opBody l 2, opBody l 3]⟩
          let s := { s with disp := { s.disp with cands := s.disp.cands ++ [c] } }
          s.updEntry k (fun e => { e with ops := e.ops.set i (.cand issuing) })
        else
          s.opError k e n (BitVec.setWidth 8 ((opBody l 0).extractLsb' 57 7)) 3 0 (BitVec.ofNat 8 i) 0

/-- Operations of the window whose dependencies have completed become candidates, in index order; a dependency is always of
a lower index, so one pass is enough. -/
def State.promote (s : State) (k : EKey) : State :=
  match s.entry k with
  | none => s
  | some e0 =>
    let s := (List.range e0.ops.length).foldl (fun s i => match s.entry k with
      | none => s
      | some e =>
        if e.ops.getD i .idle = .window ∧ e.depsOver (s.opLine e i) i then (s.makeCand k i false).windowLeaves e else s) s
    s.tryDone k

/-- An operation has completed (R158). -/
def State.opOver (s : State) (k : EKey) (i : Nat) (st : OpState) : State :=
  (s.updEntry k (fun e => { e with ops := e.ops.set i st })).promote k

/-- Entries in the dependency window of a launch (R217). -/
def Entry.windowSize (e : Entry) : Nat := (e.ops.filter (fun o => decide (o = .window) || decide (o = .waiter))).length

/-! ## Passes (R252) -/

/-- The entry that the fast path releases: the oldest that holds MIN_WAIT (R252). -/
def fastWaiter (o : SyncObj) : Option Waiter := o.waiters.find? (fun w => !w.void && decide (w.value = o.minWait) && o.holds w.value)

/-- A released waiter goes on: an operation of the window becomes a candidate once its dependencies have completed (R253). -/
def State.freed (s : State) (w : Who) : State :=
  match w with
  | .pair _ _ => s.release w
  | .op k _ => (s.release w).promote k

/-- WAKE_PASS (R252): the wake engine runs a whole pass over the object flagged first. -/
def execWakePass (s : State) : Host.Outcome State Fault Refusal :=
  match s.sync.passes with
  | [] => .next s
  | n :: rest =>
    let o := s.obj n
    let sat := fun (w : Waiter) => !w.void && o.holds w.value
    let fast := fastWaiter o
    let out := (match fast with | some f => [f] | none => []) ++ (o.waiters.filter sat).filter (fun w => some w ≠ fast)
    let left := o.waiters.filter (fun w => !w.void && !o.holds w.value)
    let s := { s with sync := { s.sync with passes := rest } }
    let s := s.setObj n { o with waiters := left, minWait := minWaitOf left, flagged := false }
    let s := s.maxF (rSYNC 0x5C) 0 13 (ceilDiv o.waiters.length 4)
    .next (out.foldl (fun s w => s.freed w.who) s)

end Sys2Proof.Machine
end

