-- ==== Sys2Proof/Machine/Causeway.lean ====
section
/-! DEFINITION. What Causeway sends down its links (spec/20_ports_and_signals.md R598, R599, R601, R604). -/
namespace Sys2Proof.Machine

/-- The Causeway link of a remote group (R598). -/
def State.linkOf (s : State) (g : Nat) : Option Nat :=
  let d := (s.cwMap >>> (2 * g)).toNat % 4
  if d = 0 then none else some (d - 1)

/-- A link is in FDI state Active. -/
def State.linkOn (s : State) (k : Nat) : Bool := Tbl.get (fun _ => false) s.cw.links k

/-- The payload of a command's flit (R599): H0; H1 with the port number in place of its last byte, which is 0; H2, H3 and the body. -/
def commandFlit (port : Nat) (hdr body : List Dword) : Line :=
  let h1 : Dword := 0#1 ++ BitVec.ofNat 7 port ++ (hdr.getD 1 0).extractLsb' 0 56
  let ws := [hdr.getD 0 0, h1, hdr.getD 2 0, hdr.getD 3 0, body.getD 0 0, body.getD 1 0, body.getD 2 0, body.getD 3 0]
  (ws.mapIdx (fun i w => (i, w))).foldl (fun l x => Line.put l (8 * x.1) x.2) (0 : Line)

/-- Control messages (R599). -/
inductive CwControl where
  | engineReset (port : Nat)
  | dumpReq (port bytes : Nat)
  | credit (group count : Nat)
deriving DecidableEq, Repr

/-- The payload of a control flit (R599): OP in byte 0, its operands in bytes 0x08 to 0x0D, and byte 0x0F with bit 7 set. -/
def controlFlit (c : CwControl) : Line :=
  let flit := fun (op port : Nat) => Line.put (Line.put (0 : Line) 0 (BitVec.ofNat 8 op)) 0xF (1#1 ++ BitVec.ofNat 7 port)
  match c with
  | .engineReset n => flit 1 n
  | .dumpReq n bytes => Line.put (flit 2 n) 8 (BitVec.ofNat 32 (bytes % 2 ^ 17))
  | .credit g count => Line.put (Line.put (flit 3 0) 0xC (BitVec.ofNat 8 (g % 8))) 0xD (BitVec.ofNat 8 count)

/-- A flit goes down the link of a group, when the group is remote, Causeway powered and the link Active (R579). -/
def State.sendDown (s : State) (g : Nat) (f : Line) : State :=
  match s.linkOf g with
  | none => s
  | some k =>
    if s.powered 28 ∧ s.linkOn k then { s with cw := { s.cw with down := Tbl.set (fun _ => []) s.cw.down k (Tbl.get (fun _ => []) s.cw.down k ++ [f]) } } else s

/-- An engine reset is requested of a port (R595): behind Causeway, by a flit. -/
def State.resetDown (s : State) (n : Nat) : State := s.sendDown (n / 16) (controlFlit (.engineReset n))

end Sys2Proof.Machine
end

