-- ==== Sys2Proof/Machine/Arbiter.lean ====
section
/-! DEFINITION. The dispatch arbiters: admission, grant and the command transfer (spec/09_dispatch_and_qos.md,
spec/11_engine_ports_and_formats.md R367 to R370). -/
namespace Sys2Proof.Machine

/-- Register addresses of the DISP page (R333). -/
def rDISP (off : Nat) : Nat := pageAddr pDISP off

/-- The value of a DISP register that admission and grant use: up to and including the CCLK of a write, the one before it (R326). -/
def State.dispNum (s : State) (off : Nat) : Nat :=
  let old := Tbl.get (fun _ => (0, 0)) s.disp.prior off
  (if old.1 = s.cclk + 1 then old.2 else s.rd (rDISP off)).toNat

/-- A write of a DISP register whose word was `old`: admission and grant use that word for the rest of this CCLK (R326). -/
def State.dispPrior (s : State) (off : Nat) (old : Word) : State :=
  if (Tbl.get (fun _ => (0, 0)) s.disp.prior off).1 = s.cclk + 1 then s
  else { s with disp := { s.disp with prior := Tbl.set (fun _ => (0, 0)) s.disp.prior off (s.cclk + 1, old) } }

/-- DISP.BURST, AHEAD_LIMIT, EQ_RESERVE and QUANTUM (R333). -/
def State.burst (s : State) (k : Nat) : Nat := s.dispNum (0x44 + 4 * k)
def State.ahead (s : State) (c : BitVec 2) : Nat := s.dispNum (0x54 + 4 * c.toNat)
def State.eqReserve (s : State) (c : BitVec 2) : Nat := s.dispNum (0x64 + 4 * c.toNat)
def State.quantum (s : State) (p : Nat) : Nat := s.dispNum (0x80 + 4 * p)

/-- No arbiter admits or grants while a halt is in effect or after an S5 (R324, R473). -/
def State.dispHalted (s : State) : Bool := decide (s.lhse.mode ≠ .run) || s.rst.stopped

/-- The occupancy o_n of a port (R311). -/
def State.occ (s : State) (n : Nat) : Nat := (s.disp.cmds.filter (fun c => decide (c.port = n))).length

/-- D_n (R370). -/
def State.depth (s : State) (n : Nat) : Nat := s.num (rEPRT n 0x44) 0 7

/-- The group queue, oldest first (R320). -/
def State.groupQueue (s : State) (g : Nat) : List Cmd :=
  s.disp.cmds.filter (fun c => decide (c.stage = .queued) && decide (c.port / 16 = g))

/-- The group's candidates, in the order in which they became so: an operation is one from the CCLK after it is ready (R309). -/
def State.groupCands (s : State) (g : Nat) : List Cand :=
  s.disp.cands.filter (fun c => decide (c.port / 16 = g) && decide (c.since ≤ s.cclk))

/-- The lowest CTAG of a port that no unreported command holds (R370). -/
def State.freeCtag (s : State) (n : Nat) : BitVec 6 :=
  BitVec.ofNat 6 (((List.range 64).find? (fun t => !s.disp.cmds.any (fun c => decide (c.port = n) && decide (c.ctag.toNat = t)))).getD 0)

/-- Candidate x goes before y among the aged: earlier, then lower class, then lower port (R315). -/
def agedBefore (x y : Cand) : Bool :=
  decide (x.since < y.since) || (decide (x.since = y.since) && (decide (x.cls < y.cls) || (decide (x.cls = y.cls) && decide (x.port < y.port))))

/-- The least of a list under an order; the first of equals. -/
def leastBy {α : Type} (lt : α → α → Bool) : List α → Option α
  | [] => none
  | x :: xs => match leastBy lt xs with
    | none => some x
    | some y => if lt y x then some y else some x

/-- Ordinary admission may take a candidate (R311, R315). -/
def State.ordinary (s : State) (occ : Nat) (x : Cand) : Bool :=
  decide (occ < s.ahead x.cls) && decide (s.occ x.port + min (s.eqReserve x.cls) (s.depth x.port) ≤ s.depth x.port)

/-- A deficit counter, a ring pointer, a last function (R315). -/
def Disp.defOf (d : Disp) (g p : Nat) : Nat := Tbl.get (fun _ => 0) d.deficit (g * 16 + p)
def Disp.setDef (d : Disp) (g p v : Nat) : Disp := { d with deficit := Tbl.set (fun _ => 0) d.deficit (g * 16 + p) v }
def Disp.ptrOf (d : Disp) (g : Nat) : Nat := Tbl.get (fun _ => 0) d.ptr g
def Disp.rrOf (d : Disp) (g p : Nat) : Nat := Tbl.get (fun _ => 0) d.rr (g * 16 + p)

/-- drr_pick (R315): a second look after one replenishment finds a partition, because a quantum is at least 1. -/
def State.drrPick (s : State) (g : Nat) (c : BitVec 2) (ok : List Cand) : State × Nat :=
  let has := fun (q : Nat) => ok.any (fun x => decide (x.part.toNat = q))
  let d := (List.range 16).foldl (fun (d : Disp) q => if has q then d else d.setDef g q 0) s.disp
  let look := fun (d : Disp) => ((List.range 16).map (fun i => (d.ptrOf g + i) % 16)).find?
    (fun q => ok.any (fun x => decide (x.part.toNat = q) && decide (x.cls = c)) && decide (0 < d.defOf g q))
  let take := fun (d : Disp) (q : Nat) =>
    ({ s with disp := if d.defOf g q = 1 then { d with ptr := Tbl.set (fun _ => 0) d.ptr g ((q + 1) % 16) } else d }, q)
  match look d with
  | some q => take d q
  | none =>
    let d := (List.range 16).foldl (fun (d : Disp) q => if has q then d.setDef g q (d.defOf g q + s.quantum q) else d) d
    match look d with
    | some q => take d q
    | none => ({ s with disp := d }, ((ok.find? (fun x => decide (x.cls = c))).map (·.part.toNat)).getD 0)

/-- The candidate that one admission slot takes (R315), and whether it is aged. -/
def State.admitPick (s : State) (g : Nat) : State × Option (Cand × Bool) :=
  let cs := s.groupCands g
  let occ := (s.groupQueue g).length
  let aged := cs.filter (fun x => decide (s.dispNum 0x40 ≤ s.cclk - x.since) && decide (s.occ x.port < s.depth x.port) && decide (occ < 64))
  match leastBy agedBefore aged with
  | some x => (s, some (x, true))
  | none =>
    let ok := cs.filter (s.ordinary occ)
    match leastBy (fun (x y : Cand) => decide (x.cls < y.cls)) ok with
    | none => (s, none)
    | some x0 =>
      let c := x0.cls
      let r := s.drrPick g c ok
      let s := r.1
      let p := r.2
      let mine := ok.filter (fun x => decide (x.part.toNat = p) && decide (x.cls = c))
      let last := s.disp.rrOf g p
      let order := fun (x : Cand) => if last < x.func.toNat then x.func.toNat else x.func.toNat + 4096
      match leastBy (fun x y => decide (order x < order y) || (decide (order x = order y) && decide (x.since < y.since))) mine with
      | none => (s, none)
      | some f =>
        let d := { s.disp with rr := Tbl.set (fun _ => 0) s.disp.rr (g * 16 + p) f.func.toNat }
        ({ s with disp := d.setDef g p (d.defOf g p - 1) }, some (f, false))

/-- The ISSUE that offered an operation leaves its thread (R217). -/
def State.issueLeaves (s : State) (k : EKey) : State :=
  match s.entry k with
  | none => s
  | some e =>
    let s := s.setEntry k (some { e with issued := e.issued + 1 })
    match e.core, e.thread with
    | some c, some t => s.retire c t ((s.thread c t).pc + 4)
    | _, _ => s

/-- Admit a candidate (R315, R318, R319, R370). -/
def State.admitOne (s : State) (x : Cand) (aged : Bool) : State :=
  let c : Cmd := ⟨x.who, x.port, s.freeCtag x.port, x.cls, x.part, x.func, x.since, x.retries, .queued, s.cclk, aged,
    (List.range x.cls.toNat).map s.burst, x.hdr, x.body, 0⟩
  let s := { s with disp := { s.disp with cands := s.disp.cands.erase x, cmds := s.disp.cmds ++ [c] } }
  let s := s.maxF (rDISP (0x100 + 4 * x.cls.toNat)) 0 32 (s.cclk - x.since)
  let s := if aged then s.bump (rDISP 0x110) else s
  match x.who with
  | .gather _ _ _ => s
  | .op k i =>
    let issuing : Bool := match s.entry k with | some e => decide (e.ops.getD i .idle = .cand true) | none => false
    let s := s.updEntry k (fun e => { e with ops := e.ops.set i .sent })
    if issuing then s.issueLeaves k else s

/-- One admission slot. -/
def State.admitSlot (s : State) (g : Nat) : State :=
  let r := s.admitPick g
  match r.2 with
  | some (x, aged) => r.1.admitOne x aged
  | none => r.1

/-- ADMISSION (R315): a group admits up to four candidates. -/
def execAdmission (group : BitVec 3) (s : State) : Host.Outcome State Fault Refusal :=
  .next (if s.dispHalted then s
    else (((s.admitSlot group.toNat).admitSlot group.toNat).admitSlot group.toNat).admitSlot group.toNat)

/-- A queued flit may be granted (R320): every older flit lets its class overtake. `older` are the flits before it. -/
def grantable (older : List Cmd) (n : Cmd) : Bool :=
  older.all (fun f => decide (n.cls < f.cls) && decide (0 < f.ovt.getD n.cls.toNat 0))

/-- The flit the arbiter grants (R320). -/
def grantPick (q : List Cmd) (now : Nat) : Option Cmd :=
  let cands := (q.mapIdx (fun i n => (q.take i, n))).filterMap
    (fun x => if decide (x.2.stamp < now) && grantable x.1 x.2 then some x.2 else none)
  leastBy (fun (x y : Cmd) => decide (x.cls < y.cls)) cands

/-- Fill in GEN, CTAG and the scale sampled at the grant (R367, R397); a retried command keeps the scale of its header
(R384, log entry 22). -/
def State.finishHdr (s : State) (c : Cmd) : List Dword :=
  let p := Tbl.get (fun _ => Port.reset) s.ports c.port
  let h0 := c.hdr.getD 0 0 &&& ~~~0x3FF#64
  let kind := ((h0 >>> 12).toNat) % 128
  let sc := match c.who with | .op _ _ => bodyScale kind c.body | .gather _ _ _ => (false, false, 0)
  let h0 := h0 ||| (p.gen.setWidth 64) ||| (c.ctag.setWidth 64 <<< 4)
  let h0 := if sc.1 ∧ c.retries = 0 then
      h0 ||| ((s.scaleE (c.part.toNat * 1024 + sc.2.2)).scale.setWidth 64 <<< 49) ||| (1#64 <<< 61)
    else h0
  h0 :: c.hdr.drop 1

/-- GRANT (R320): the arbiter grants one queued flit; older flits lose one overtake of its class. -/
def execGrant (group : BitVec 3) (s : State) : Host.Outcome State Fault Refusal :=
  if s.dispHalted then .next s
  else
    let q := s.groupQueue group.toNat
    match grantPick q s.cclk with
    | none => .next s
    | some n =>
      let older := q.takeWhile (fun c => decide (c ≠ n))
      let hdr := s.finishHdr n
      let cmds := (s.disp.cmds.filter (· ≠ n)).map (fun c =>
        if older.contains c then { c with ovt := c.ovt.modify n.cls.toNat (· - 1) } else c) ++ [{ n with stage := .granted, hdr := hdr, sentT := s.viewTime }]
      let s := { s with disp := { s.disp with cmds := cmds } }
      let s := s.bumpWrap (rDISP (0xE0 + 4 * n.cls.toNat))
      let s := s.maxF (rDISP (0xF0 + 4 * n.cls.toNat)) 0 16 (s.cclk - n.stamp)
      let s := s.progress n.part
      let opidx : BitVec 8 := match n.who with | .op _ i => BitVec.ofNat 8 i | .gather _ _ _ => 0
      let fields : Dword := 0#4 ++ BitVec.ofNat 7 n.port ++ n.cls ++ n.ctag ++ n.part ++ opidx ++ 0#33
      .next (s.traceRec 3 (s.portOwner n.port) fields)

/-- COMMAND_TRANSFER (R314, R367, R592, R598): the oldest granted command of a port crosses its engine command port, or becomes a
flit down the link of its group (R599). None crosses
while the port serves no work (R595, log entry 21); the next granted command is presented from now on. -/
def execCommandTransfer (port : BitVec 7) (s : State) : Host.Outcome State Fault Refusal :=
  match s.disp.cmds.find? (fun c => decide (c.port = port.toNat) && decide (c.stage = .granted)) with
  | none => .next s
  | some n =>
    if (s.port port.toNat).serves then
      let cmds := s.disp.cmds.map (fun c =>
        if c = n then { c with stage := .sent, sentT := s.viewTime }
        else if c.port = n.port ∧ c.stage = .granted then { c with sentT := s.viewTime } else c)
      .next (({ s with disp := { s.disp with cmds := cmds } }.bump (rEPRT port.toNat 0x50)).sendDown (port.toNat / 16) (commandFlit port.toNat n.hdr n.body))
    else .next s

/-- PORT_DRAINED (R510): a draining port with no command outstanding, which no live launch has in its lists, goes OFFLINE. -/
def State.drainPorts (s : State) : State :=
  let live := s.allEntries.filter (fun x => x.2.running)
  { s with ports := Tbl.mapK (fun _ => Port.reset) (fun n p =>
      if p.st = .draining ∧ s.occ n = 0 ∧ !live.any (fun e => e.2.places.any (fun l => l.contains n)) then { p with st := .offline }
      else p) s.ports }

end Sys2Proof.Machine
end

