-- ==== Sys2Proof/Machine/Digest.lean ====
section
/-! DEFINITION. Digests (spec/14_determinism_and_audit.md): crc64 (R456), SHA-256 (FIPS 180-4, named by R460 and R464), the
digest table, the ENGINES value and the reads that Landing makes for an audited launch. -/
namespace Sys2Proof.Machine

/-! ## crc64 (R456) -/

/-- One bit of crc64. -/
def crcBit (c : Dword) : Dword := if bit c 0 then (c >>> 1) ^^^ 0xC96C5795D7870F42 else c >>> 1

/-- One byte of crc64. -/
def crcByte (c : Dword) (b : Byte) : Dword :=
  crcBit (crcBit (crcBit (crcBit (crcBit (crcBit (crcBit (crcBit (c ^^^ b.setWidth 64))))))))

/-- crc64 of a sequence of bytes. -/
def crc64 (bs : List Byte) : Dword := bs.foldl crcByte 0xFFFFFFFFFFFFFFFF ^^^ 0xFFFFFFFFFFFFFFFF

/-- The low `n` bytes of a value, lowest first. -/
def bytesOf {w : Nat} (x : BitVec w) (n : Nat) : List Byte := (List.range n).map (fun i => x.extractLsb' (8 * i) 8)

/-! ## SHA-256 -/

/-- The words of a number of `n` words, the most significant first. -/
def wordsOf {w : Nat} (x : BitVec w) (n : Nat) : List Word := (List.range n).map (fun i => x.extractLsb' (32 * (n - 1 - i)) 32)

/-- The round constants of SHA-256 (FIPS 180-4), eight rounds to a number: the first 32 bits of the fractional parts of the cube
roots of the first 64 primes. -/
def shaRoots : List (BitVec 256) :=
  [0x428a2f9871374491b5c0fbcfe9b5dba53956c25b59f111f1923f82a4ab1c5ed5,
   0xd807aa9812835b01243185be550c7dc372be5d7480deb1fe9bdc06a7c19bf174,
   0xe49b69c1efbe47860fc19dc6240ca1cc2de92c6f4a7484aa5cb0a9dc76f988da,
   0x983e5152a831c66db00327c8bf597fc7c6e00bf3d5a7914706ca635114292967,
   0x27b70a852e1b21384d2c6dfc53380d13650a7354766a0abb81c2c92e92722c85,
   0xa2bfe8a1a81a664bc24b8b70c76c51a3d192e819d6990624f40e3585106aa070,
   0x19a4c1161e376c082748774c34b0bcb5391c0cb34ed8aa4a5b9cca4f682e6ff3,
   0x748f82ee78a5636f84c878148cc7020890befffaa4506cebbef9a3f7c67178f2]

/-- The constant of each round, in order. -/
def shaK : List Word := shaRoots.flatMap (fun r => wordsOf r 8)

/-- The initial hash value of SHA-256: the first 32 bits of the fractional parts of the square roots of the first 8 primes. -/
def shaInit : List Word := wordsOf (0x6a09e667bb67ae853c6ef372a54ff53a510e527f9b05688c1f83d9ab5be0cd19 : BitVec 256) 8

/-- Word i of a block, its bytes in big-endian order. -/
def shaWord (b : Line) (i : Nat) : Word :=
  Line.byte b (4 * i) ++ Line.byte b (4 * i + 1) ++ Line.byte b (4 * i + 2) ++ Line.byte b (4 * i + 3)

/-- The two rotations and the last rotation, or shift, of a word, combined (the small and large sigma functions). -/
def shaMix (x last : Word) (i j : Nat) : Word := x.rotateRight i ^^^ (x.rotateRight j ^^^ last)

/-- Extend the message schedule by n words; the list is latest first. -/
def shaSched (w : List Word) : Nat → List Word
  | 0 => w
  | n + 1 =>
    let far := w.getD 14 0
    let near := w.getD 1 0
    let next := shaMix far (far >>> 3) 7 18 + shaMix near (near >>> 10) 17 19 + w.getD 6 0 + w.getD 15 0
    shaSched (next :: w) n

/-- One round. -/
def shaRound (h : List Word) (kw : Word × Word) : List Word :=
  match h with
  | [a, b, c, d, e, f, g, last] =>
    let chosen := g ^^^ (e &&& (f ^^^ g))
    let most := (a &&& (b ||| c)) ||| (b &&& c)
    let up := kw.1 + kw.2 + last + shaMix e (e.rotateRight 25) 6 11 + chosen
    [up + shaMix a (a.rotateRight 22) 2 13 + most, a, b, c, d + up, e, f, g]
  | h => h

/-- One block. -/
def shaBlock (h : List Word) (b : Line) : List Word :=
  let w := (shaSched ((List.range 16).map (shaWord b)).reverse 48).reverse
  List.zipWith (· + ·) h ((shaK.zip w).foldl shaRound h)

/-- The last block for a message of n whole lines. -/
def shaPad (lines : Nat) : Line :=
  lineOfBytes ((0x80 : Byte) :: List.replicate 55 0 ++ (List.range 8).map (fun i => (BitVec.ofNat 64 (512 * lines)).extractLsb' (56 - 8 * i) 8))

/-- The digest in output order, its first byte lowest. -/
def shaOut (h : List Word) : BitVec 256 :=
  (h.foldl (fun (a : BitVec 256 × Nat) w =>
    let r : Word := w.extractLsb' 0 8 ++ w.extractLsb' 8 8 ++ w.extractLsb' 16 8 ++ w.extractLsb' 24 8
    (putBits a.1 (32 * a.2) r, a.2 + 1)) (0, 0)).1

/-- SHA-256 of whole lines. -/
def shaLines (ls : List Line) : BitVec 256 := shaOut (shaBlock (ls.foldl shaBlock shaInit) (shaPad ls.length))

/-! ## The digest table (R460) -/

/-- AUDT.DTAB_BASE_LO.VALID of partition p. -/
def State.dtabValid (s : State) (p : BitVec 4) : Bool := s.flag (rAUDT (0x400 + 0x10 * p.toNat)) 0

/-- Address of line n of the digest table. -/
def State.dtabAddr (s : State) (p : BitVec 4) (n : Nat) : Addr :=
  s.addrPair (rAUDT (0x400 + 0x10 * p.toNat)) 12 + BitVec.ofNat 57 (64 * n)

/-- Line of the program at an address (R461). -/
def State.dtabIndex (s : State) (p : BitVec 4) (a : Addr) : Nat :=
  1 + (mix64 (a.setWidth 64)).toNat % 2 ^ s.num (rAUDT (0x408 + 0x10 * p.toNat)) 0 4

/-- A table line reads VALID = 1 with a kind, an address, a length. -/
def entryValid (l : Line) : Bool := bit (Line.w32 l 0xC) 31
def entryKind (l : Line) : BitVec 1 := (Line.w32 l 0xC).extractLsb' 30 1
def entryAddr (l : Line) : Addr := (Line.w64 l 0).extractLsb' 0 57
def entryLines (l : Line) : Nat := (Line.w32 l 8).toNat
def entryDigest (l : Line) : BitVec 256 := l.extractLsb' 256 256

/-! ## ENGINES (R464) -/

/-- The lists P_e of a partition now, by engine class (R322). -/
def State.placesOf (s : State) (p : BitVec 4) : List (List Nat) :=
  let ps := (s.portsOf p).filter (fun n => decide ((Tbl.get (fun _ => Port.reset) s.ports n).st = .inService))
  (List.range 16).map (fun e => ps.filter (fun n => s.num (rEPRT n 0x40) 0 4 = e))

/-- The ENGINES value of lists P_e. -/
def enginesOf (pl : List (List Nat)) : Word :=
  (crc64 (pl.map (fun l => BitVec.ofNat 8 l.length))).extractLsb' 0 24 ++ BitVec.ofNat 8 ((pl.map List.length).foldl (· + ·) 0)

/-! ## The audit of a launch (R464, R465) -/

/-- Landing reads the program entry and the model line of an audited launch (R465); a partition without a digest table has
neither. -/
def State.auditReads (s : State) (k : EKey) (e : Entry) : State :=
  let p := e.part
  if s.aud.ins.any (fun x => decide (x.e = k)) then s
  else if !s.dtabValid p then { s with aud := { s.aud with ins := s.aud.ins ++ [AudIn.mk k (some 0) (some 0) e.model] } }
  else
    let kept := Tbl.get (fun _ => none) s.aud.models p.toNat
    let asked := s.mmp.any (fun r => decide (r.why = .modelLine p))
    let s := { s with aud := { s.aud with ins := s.aud.ins ++ [AudIn.mk k none kept e.model] } }
    let s := s.read (s.dtabAddr p (s.dtabIndex p (blkProg (s.blockOf e)))) 1 (.progEntry k)
    if kept.isNone ∧ !asked then s.read (s.dtabAddr p 0) 1 (.modelLine p) else s

/-- The kept model line of a partition is dropped (R465); a read of it that is under way serves the launches that wait now. -/
def State.modelForget (s : State) (p : BitVec 4) : State :=
  let es := (s.aud.ins.filter (fun x => x.model.isNone && (match s.entry x.e with | some e => decide (e.part = p) | none => false))).map (·.e)
  { s with
    aud := { s.aud with models := Tbl.set (fun _ => none) s.aud.models p.toNat none }
    mmp := s.mmp.map (fun r => if r.why = .modelLine p then { r with why := .modelOnce es } else r) }

/-- The launch starts (R465): its digest-table lines are read now if it is audited, and if it may be, because its function's entry is
not cached (log entry 18). -/
def State.auditStart (s : State) (k : EKey) : State :=
  match s.entry k, s.fev (funcOf k.stream) with
  | some e, some x => if e.audited s k x then s.auditReads k e else s
  | some e, none =>
    if e.etype.isLaunch ∧ e.executed ∧ s.fevValid ∧ s.flag (rAUDT (0x108 + 0x10 * e.part.toNat)) 31 then s.auditReads k e else s
  | none, _ => s

/-- PROG_DIGEST and MODEL_DIGEST of a launch. -/
def progDigest (blk : Line) (l : Line) : BitVec 256 :=
  if entryValid l ∧ entryKind l = 0#1 ∧ entryAddr l = blkProg blk ∧ entryLines l = blkLen blk / 64 then entryDigest l else 0
def modelDigest (mid : Word) (l : Line) : BitVec 256 :=
  if entryValid l ∧ Line.w32 l 0x10 = mid then entryDigest l else 0

/-- The two blocks of the canonical audit record (R464). -/
def canonical (prog model input : BitVec 256) (seed : Dword) (engines : Word) : List Line :=
  let pad : List Byte := [0x80] ++ List.replicate 17 0 ++ [0x03, 0x60]
  [model ++ prog,
   lineOfBytes (bytesOf input 32 ++ bytesOf seed 8 ++ bytesOf engines 4 ++ pad)]

/-- INPUT_DIGEST: slots p24 to p31 as delivered. -/
def inputDigest (ls : List Line) : BitVec 256 :=
  let b := ls.getD 0 0
  let slot := fun i => if i < blkP b then Line.w32 (ls.getD (1 + i / 16) 0) (4 * (i % 16)) else 0#32
  slot 31 ++ slot 30 ++ slot 29 ++ slot 28 ++ slot 27 ++ slot 26 ++ slot 25 ++ slot 24

end Sys2Proof.Machine
end

