-- ==== Sys2Proof/Machine/Operands.lean ====
section
/-! DEFINITION. The operand forms of the Skerry instruction set: instruction fields (spec/06_skerry_cores.md R213), registers
(R209), the thread's view (R206, R207), and the instruction a thread stands at. -/
namespace Sys2Proof.Machine

/-! ## Fields (R213) -/

def iOp (w : Word) : Nat := (w.extractLsb' 26 6).toNat
def iRd (w : Word) : Nat := (w.extractLsb' 21 5).toNat
def iRs1 (w : Word) : Nat := (w.extractLsb' 16 5).toNat
def iRs2 (w : Word) : Nat := (w.extractLsb' 11 5).toNat
def iFn (w : Word) : BitVec 11 := w.extractLsb' 0 11
def iImm (w : Word) : BitVec 16 := w.extractLsb' 0 16
/-- imm16 sign-extended and zero-extended. -/
def iSext (w : Word) : Dword := (iImm w).signExtend 64
def iZext (w : Word) : Dword := (iImm w).setWidth 64
/-- off16 and off26 as signed numbers. -/
def iOff16 (w : Word) : Int := (iImm w).toInt
def iOff26 (w : Word) : Int := (w.extractLsb' 0 26).toInt

/-! ## Registers (R209) -/

/-- Read a register; x0 reads 0. -/
def Thread.reg (th : Thread) (n : Nat) : Dword := if n = 0 then 0 else th.regs.getD n 0

/-- Write a register; a write to x0 is discarded. -/
def Thread.setReg (th : Thread) (n : Nat) (v : Dword) : Thread := if n = 0 then th else { th with regs := th.regs.setIfInBounds n v }

/-- Write a register of a thread. -/
def State.setReg (s : State) (c : BitVec 4) (t : BitVec 3) (n : Nat) (v : Dword) : State :=
  s.setThread c t ((s.thread c t).setReg n v)

/-! ## The thread's view (R206, R207) -/

/-- Where a view offset lies: in a line of the launch, in the slots, in the scratch area, in an absent constant buffer. -/
inductive Place where
  | line (n : Nat) (off : Nat)
  | op (i : Nat) (off : Nat)
  | slot (i : Nat)
  | scratch (n : Nat) (off : Nat)
  | zero
  | none
deriving DecidableEq, Repr

/-- Locate an aligned access of the view (R206). -/
def Thread.place (th : Thread) (a : Nat) : Place :=
  let b := th.lines.getD 0 0
  if a < 0x40 then .line 0 a
  else if a < 0xC0 then .slot ((a - 0x40) / 4)
  else if 0x100 ≤ a ∧ a < 0x200 then
    if blkConst b then .line (1 + ceilDiv (blkP b) 16 + (a - 0x100) / 64) (a % 64) else .zero
  else if 0x200 ≤ a ∧ a < 0x600 then .scratch ((a - 0x200) / 64) (a % 64)
  else if 0x4000 ≤ a ∧ (a - 0x4000) / 64 < blkOps b then .op ((a - 0x4000) / 64) (a % 64)
  else .none

/-- The launch line that a place lies in, by its place among the launch's lines. -/
def Thread.lineOf (th : Thread) : Place → Option Nat
  | .line n _ => some n
  | .op i _ => some (opBase (th.lines.getD 0 0) + i)
  | _ => none

/-- The launch line a place lies in has arrived (R203). -/
def Thread.present (th : Thread) (p : Place) : Bool :=
  match th.lineOf p with
  | some n => decide (n < th.arrived) && decide (n < th.lines.length)
  | none => true

/-- What a thread that needs a place waits for. -/
def Thread.lineStall (th : Thread) (p : Place) : Stall := .line ((th.lineOf p).getD 0)

/-- Read 32 bits of a place. -/
def Thread.rd32 (th : Thread) (p : Place) : Word :=
  match p with
  | .line n off => Line.w32 (th.lines.getD n 0) off
  | .op i off => Line.w32 (th.lines.getD (opBase (th.lines.getD 0 0) + i) 0) off
  | .slot i => th.slots.getD i 0
  | .scratch n off => Line.w32 (th.scratch.getD n 0) off
  | .zero | .none => 0

/-- Read 64 bits of the view at an offset aligned to 8. -/
def Thread.rd64 (th : Thread) (a : Nat) : Dword := th.rd32 (th.place (a + 4)) ++ th.rd32 (th.place a)

/-- A program may write a place (R206, R207). -/
def Thread.writable (th : Thread) (ops : List OpState) (p : Place) : Bool :=
  match p with
  | .slot _ | .scratch _ _ => true
  | .op i off =>
    decide (0x20 ≤ off) && decide (ops.getD i .idle = .idle) &&
      !slotUsed (th.lines.getD (opBase (th.lines.getD 0 0) + i) 0) ((off - 0x20) / 8)
  | _ => false

/-- Write 32 bits of a place. -/
def Thread.wr32 (th : Thread) (p : Place) (v : Word) : Thread :=
  match p with
  | .slot i => { th with slots := th.slots.setIfInBounds i v }
  | .scratch n off => { th with scratch := th.scratch.setIfInBounds n (Line.put (th.scratch.getD n 0) off v) }
  | .op i off => { th with lines := th.lines.modify (opBase (th.lines.getD 0 0) + i) (fun l => Line.put l off v) }
  | _ => th

/-- Write 64 bits of the view at an offset aligned to 8. -/
def Thread.wr64 (th : Thread) (a : Nat) (v : Dword) : Thread :=
  (th.wr32 (th.place a) (v.extractLsb' 0 32)).wr32 (th.place (a + 4)) (v.extractLsb' 32 32)

/-! ## The instruction a thread stands at -/

/-- The bank of a core. -/
def Core.bank (c : Core) (b : BitVec 1) : Bank := if b = 0#1 then c.bankA else c.bankB

/-- Write a bank of a core. -/
def Core.setBank (c : Core) (b : BitVec 1) (x : Bank) : Core := if b = 0#1 then { c with bankA := x } else { c with bankB := x }

/-- Key of a launch's program (R200). -/
def progKey (part : BitVec 4) (b : Line) : ProgKey := ⟨part.setWidth 6, blkProg b, blkLen b⟩

/-- The instruction at a thread's PC, read from the bank it pins. -/
def State.insn (s : State) (c : BitVec 4) (t : BitVec 3) : Word :=
  let th := s.thread c t
  let b := (s.core c).bank th.bank
  let key := progKey ((Line.w32 (th.lines.getD 0 0) 0xC).extractLsb' 20 4) (th.lines.getD 0 0)
  match b.progs.find? (fun p => decide (p.key = key)) with
  | some p => Line.w32 (Tbl.get (fun _ => 0) b.mem (p.off + th.pc / 64)) (th.pc % 64)
  | none => 0

/-- The thread is ready for the execution slot (R198): RUNNING, its launch having started. -/
def Thread.ready (th : Thread) : Bool := decide (th.st = .running) && decide (th.stall ≠ .start)

/-- The thread executes one STEP in BREAK (R229), and nothing keeps it. -/
def Thread.steps (th : Thread) : Bool := decide (th.st = .brk) && th.stepping && decide (th.stall = .none)

/-- Long instructions of other running threads that are between steps have lost the slot (SKRY.PREEMPTS, R239). -/
def State.preempt (s : State) (c : BitVec 4) (t : BitVec 3) : State :=
  (List.range 8).foldl (fun s i =>
    let t' : BitVec 3 := BitVec.ofNat 3 i
    let th := s.thread c t'
    if t' ≠ t ∧ th.st = .running ∧ bit th.progress 63 ∧ !th.counted then
      (s.setThread c t' { th with counted := true }).bump (rSKRY c 0x94)
    else s) s

/-- Class of the launch of a thread. -/
def Thread.cls (th : Thread) : Nat := match th.launch with | some k => (classOf k.stream).toNat | none => 4

/-- The thread that has the execution slot of a core (R198): of the RUNNING threads that have waited for SKRY.CTRL.AGE the one
that waits longest, or else, in the lowest class, the first after the thread last granted. -/
def State.slotThread (s : State) (c : BitVec 4) : Option (BitVec 3) :=
  let co := s.core c
  let ready := ((List.range 8).map (fun i => co.lastThread + 1 + BitVec.ofNat 3 i)).filter (fun t => (co.thread t).ready)
  let pick := fun (better : BitVec 3 → BitVec 3 → Bool) (l : List (BitVec 3)) =>
    l.foldl (fun (a : Option (BitVec 3)) t => match a with | some u => if better t u then some t else a | none => some t) none
  match ready.filter (fun t => decide (s.num (rSKRY c 0x40) 0 16 ≤ (co.thread t).idle)) with
  | [] => pick (fun t u => decide ((co.thread t).cls < (co.thread u).cls)) ready
  | old => pick (fun t u => decide ((co.thread u).idle < (co.thread t).idle)) old

/-- The thread may execute now: it has the slot, or it steps in BREAK (R198, R229). -/
def State.mayRun (s : State) (c : BitVec 4) (t : BitVec 3) : Bool :=
  decide (s.slotThread c = some t) || (s.thread c t).steps

/-- Give the slot to a thread (R198). -/
def State.takeSlot (s : State) (c : BitVec 4) (t : BitVec 3) : State :=
  let s := s.preempt c t
  let s := s.setThread c t { s.thread c t with idle := 0 }
  s.setCore c { s.core c with lastThread := t }

/-- The thread cannot go on now (R227); a thread in BREAK keeps its state. -/
def State.stallOn (s : State) (c : BitVec 4) (t : BitVec 3) (why : Stall) : State :=
  let th := s.thread c t
  s.setThread c t { th with stall := why, st := if th.st = .brk then .brk else .stalled }

/-- The instruction is skipped with a code, and the thread goes on at PC + 4 (R230). -/
def State.skipOn (s : State) (c : BitVec 4) (t : BitVec 3) (code : Nat) (op : Option Nat := none) : State :=
  let s := s.skipInsn c t code op
  s.retire c t ((s.thread c t).pc + 4)

/-- The instruction writes rd and the thread goes on at PC + 4. -/
def State.writeOn (s : State) (c : BitVec 4) (t : BitVec 3) (rd : Nat) (v : Dword) : State :=
  (s.setReg c t rd v).retire c t ((s.thread c t).pc + 4)

end Sys2Proof.Machine
end

