-- ==== Sys2Proof/Machine/Skerry.lean ====
section
/-! DEFINITION. The Skerry instructions (spec/06_skerry_cores.md). Each command runs the instruction at the PC of the thread it
names, when that instruction is its own (log entry 10). -/
namespace Sys2Proof.Machine

/-- The opcodes that R214 assigns. -/
def assignedOp (n : Nat) : Bool :=
  (decide (1 ≤ n) && decide (n ≤ 8)) || n == 0x10 || n == 0x11 || (decide (0x14 ≤ n) && decide (n ≤ 0x20)) ||
    (decide (0x28 ≤ n) && decide (n ≤ 0x2D)) || n == 0x30

/-- Record a breakpoint hit and put the thread in BREAK (R229). -/
def State.breakHit (s : State) (c : BitVec 4) (t : BitVec 3) : State :=
  let th := s.thread c t
  let s := s.setThread c t { th with st := .brk, stall := .none }
  if s.flag (rSKRY c 0x68) 31 then s
  else (s.wr (rSKRY c 0x68) (1#1 ++ 0#4 ++ t ++ 0#9 ++ BitVec.ofNat 15 th.pc)).setErr (pSKRY c) 18

/-- A launch matches the core's breakpoint (R228); `mode` is 0 TAG or 1 COUNT. -/
def State.brkMatch (s : State) (c : BitVec 4) (blk : Line) (mode : Bool) : Bool :=
  let ctl := s.rd (rSKRY c 0x5C)
  let mask := s.rd (rSKRY c 0x64)
  bit ctl 31 && (bit ctl 30 == mode) && decide (blkTag blk &&& mask = s.rd (rSKRY c 0x60) &&& mask)

/-- The breakpoint stops the thread before its first instruction (R228, mode TAG). -/
def State.brkAtFirst (s : State) (c : BitVec 4) (t : BitVec 3) : Bool :=
  let th := s.thread c t
  decide (th.st = .running) && !th.resumed && decide (th.retired = 0) && !bit th.progress 63 && s.brkMatch c (th.lines.getD 0 0) false

/-- Run the instruction of the thread that has the slot, if `f` accepts it (R198), or stop before it (R228). -/
def State.runInsn (s : State) (c : BitVec 4) (t : BitVec 3) (f : Word → Bool) (sem : Word → BitVec 4 → BitVec 3 → State → State) : State :=
  let w := s.insn c t
  if s.mayRun c t && f w then (if s.brkAtFirst c t then s.breakHit c t else sem w c t (s.takeSlot c t)) else s

/-! ## ALU (R214, R215) -/

/-- The ALU operations by fn[3:0] (R215). -/
def aluOp (fn : Nat) (a b : Dword) : Dword :=
  match fn with
  | 0 => a + b
  | 1 => a - b
  | 2 => a &&& b
  | 3 => a ||| b
  | 4 => a ^^^ b
  | 5 => a <<< (b.toNat % 64)
  | 6 => a >>> (b.toNat % 64)
  | 7 => a.sshiftRight (b.toNat % 64)
  | 8 => a * b
  | 9 => (a.setWidth 128 * b.setWidth 128).extractLsb' 64 64
  | 10 => if a.slt b then 1 else 0
  | 11 => if a < b then 1 else 0
  | 12 => if a.slt b then a else b
  | 13 => if a.slt b then b else a
  | 14 => if a < b then a else b
  | _ => if a < b then b else a

/-- ALU: an fn[10:4] that is not 0 is illegal (R214). -/
def semAlu (w : Word) (c : BitVec 4) (t : BitVec 3) (s : State) : State :=
  let th := s.thread c t
  if (iFn w).extractLsb' 4 7 = 0#7 then
    s.writeOn c t (iRd w) (aluOp ((iFn w).toNat % 16) (th.reg (iRs1 w)) (th.reg (iRs2 w)))
  else s.skipOn c t 0x20

/-- A word whose opcode is reserved is illegal (R214, R230). -/
def semIllegal (_w : Word) (c : BitVec 4) (t : BitVec 3) (s : State) : State := s.skipOn c t 0x20

/-- ADDI, ANDI, ORI, XORI, SLTI (R214). -/
def immOp (op : Nat) (a : Dword) (w : Word) : Dword :=
  match op with
  | 2 => a + iSext w
  | 3 => a &&& iZext w
  | 4 => a ||| iZext w
  | 5 => a ^^^ iZext w
  | _ => if a.slt (iSext w) then 1 else 0

/-- An immediate instruction. -/
def semImm (w : Word) (c : BitVec 4) (t : BitVec 3) (s : State) : State :=
  s.writeOn c t (iRd w) (immOp (iOp w) ((s.thread c t).reg (iRs1 w)) w)

/-- SHI (R214): imm16[15:8] must be 0 and code 3 is illegal. -/
def semShi (w : Word) (c : BitVec 4) (t : BitVec 3) (s : State) : State :=
  let a := (s.thread c t).reg (iRs1 w)
  let n := (iImm w).toNat % 64
  let code := (iImm w).toNat / 64 % 4
  if (iImm w).extractLsb' 8 8 ≠ 0#8 ∨ code = 3 then s.skipOn c t 0x20
  else s.writeOn c t (iRd w) (if code = 0 then a <<< n else if code = 1 then a >>> n else a.sshiftRight n)

/-- LUI (R214): rs1 must be 0. -/
def semLui (w : Word) (c : BitVec 4) (t : BitVec 3) (s : State) : State :=
  if iRs1 w ≠ 0 then s.skipOn c t 0x20 else s.writeOn c t (iRd w) (iSext w <<< 16)

/-! ## Loads, stores and parameter slots (R206, R207, R210) -/

/-- The view offset of a load or store. -/
def viewAddr (w : Word) (th : Thread) : Dword := th.reg (iRs1 w) + iSext w

/-- LD and LW, of `n` bytes. -/
def semLoad (n : Nat) (w : Word) (c : BitVec 4) (t : BitVec 3) (s : State) : State :=
  let th := s.thread c t
  let a := (viewAddr w th).toNat
  let p := th.place a
  if p = .none ∨ a % n ≠ 0 ∨ 32768 ≤ a then s.skipOn c t 0x21
  else if !th.present p then s.stallOn c t (th.lineStall p)
  else s.writeOn c t (iRd w) (if n = 8 then th.rd64 a else (th.rd32 p).setWidth 64)

/-- SD and SW, of `n` bytes. -/
def semStore (n : Nat) (w : Word) (c : BitVec 4) (t : BitVec 3) (s : State) : State :=
  let th := s.thread c t
  let a := (viewAddr w th).toNat
  let p := th.place a
  let ops := ((th.launch.bind s.entry).map (·.ops)).getD []
  if p = .none ∨ a % n ≠ 0 ∨ 32768 ≤ a then s.skipOn c t 0x21
  else if !th.present p then s.stallOn c t (th.lineStall p)
  else if !th.writable ops p then s.skipOn c t 0x21
  else
    let v := th.reg (iRd w)
    let th := if n = 8 then th.wr64 a v else th.wr32 p (v.extractLsb' 0 32)
    (s.setThread c t th).retire c t (th.pc + 4)

/-- RDP (R210): an index not below 32 is skipped with PARAM_INDEX (R230). -/
def semRdp (w : Word) (c : BitVec 4) (t : BitVec 3) (s : State) : State :=
  let th := s.thread c t
  let i := viewAddr w th
  if i < 32 then s.writeOn c t (iRd w) ((th.slots.getD i.toNat 0).setWidth 64) else s.skipOn c t 0x22

/-- WRP (R210). -/
def semWrp (w : Word) (c : BitVec 4) (t : BitVec 3) (s : State) : State :=
  let th := s.thread c t
  let i := viewAddr w th
  if i < 32 then
    (s.setThread c t { th with slots := th.slots.setIfInBounds i.toNat ((th.reg (iRd w)).extractLsb' 0 32) }).retire c t (th.pc + 4)
  else s.skipOn c t 0x22

/-! ## Branches and jumps (R216) -/

/-- The condition of a branch opcode. -/
def branchTaken (op : Nat) (a b : Dword) : Bool :=
  match op with
  | 0x18 => decide (a = b)
  | 0x19 => decide (a ≠ b)
  | 0x1A => a.slt b
  | 0x1B => !a.slt b
  | 0x1C => decide (a < b)
  | _ => decide (b ≤ a)

/-- A jump target is a multiple of 4, not below 0, and below PROG_LEN (R216). -/
def targetOk (th : Thread) (x : Int) : Bool :=
  decide (0 ≤ x) && decide (x < (blkLen (th.lines.getD 0 0) : Int)) && decide (x % 4 = 0)

/-- A conditional branch: rs1 is field [25:21] and rs2 field [20:16] of format B. -/
def semBranch (w : Word) (c : BitVec 4) (t : BitVec 3) (s : State) : State :=
  let th := s.thread c t
  let x : Int := th.pc + 4 * iOff16 w
  if !branchTaken (iOp w) (th.reg (iRd w)) (th.reg (iRs1 w)) then s.retire c t (th.pc + 4)
  else if targetOk th x then s.retire c t x.toNat
  else s.skipOn c t 0x23

/-- JAL (R214, R216): a skipped JAL writes no link. -/
def semJal (w : Word) (c : BitVec 4) (t : BitVec 3) (s : State) : State :=
  let th := s.thread c t
  let x : Int := th.pc + 4 * iOff26 w
  if targetOk th x then (s.setReg c t 31 (BitVec.ofNat 64 (th.pc + 4))).retire c t x.toNat else s.skipOn c t 0x23

/-- JALR: rs2 and fn must be 0. -/
def semJalr (w : Word) (c : BitVec 4) (t : BitVec 3) (s : State) : State :=
  let th := s.thread c t
  let x : Int := ((th.reg (iRs1 w)).toNat : Int)
  if iRs2 w ≠ 0 ∨ iFn w ≠ 0 then s.skipOn c t 0x20
  else if targetOk th x then (s.setReg c t (iRd w) (BitVec.ofNat 64 (th.pc + 4))).retire c t x.toNat
  else s.skipOn c t 0x23

/-! ## CSRR (R211) -/

/-- The special registers. -/
def State.csr (s : State) (c : BitVec 4) (t : BitVec 3) (k : EKey) (e : Entry) (n : Nat) : Option Dword :=
  let th := s.thread c t
  let b := th.lines.getD 0 0
  match n with
  | 0x00 => some ((c.setWidth 64 <<< 4) ||| t.setWidth 64)
  | 0x01 => some (e.part.setWidth 64)
  | 0x02 => some (e.ctx.setWidth 64)
  | 0x03 => some (k.stream.setWidth 64)
  | 0x04 => some ((classOf k.stream).setWidth 64)
  | 0x05 => some (BitVec.ofNat 64 (blkOps b))
  | 0x06 => some (BitVec.ofNat 64 (blkP b))
  | 0x07 => some (BitVec.ofNat 64 e.issued)
  | 0x08 => some (BitVec.ofNat 64 e.nDone)
  | 0x09 => some s.viewTime
  | 0x0A => some (BitVec.ofNat 64 th.cycle)
  | 0x0B => some th.progress
  | 0x0C => some e.seqNo
  | 0x0D => some (blkSeed b)
  | 0x0E => some ((blkTag b).setWidth 64)
  | 0x0F => some (Line.w64 b 0x18)
  | _ => none

/-- CSRR: rs1 and imm16[15:8] must be 0; an unassigned number is illegal. -/
def semCsrr (w : Word) (c : BitVec 4) (t : BitVec 3) (s : State) : State :=
  match (s.thread c t).launch with
  | none => s
  | some k => match s.entry k with
    | none => s
    | some e =>
      if iRs1 w ≠ 0 ∨ (iImm w).extractLsb' 8 8 ≠ 0#8 then s.skipOn c t 0x20
      else match s.csr c t k e ((iImm w).toNat % 256) with
        | some v => s.writeOn c t (iRd w) v
        | none => s.skipOn c t 0x20

/-! ## Issuing (R217 to R220, R228) -/

/-- The breakpoint stops the thread before this ISSUE or ISSUEW (R228, R229). -/
def State.brkAtIssue (s : State) (c : BitVec 4) (t : BitVec 3) (e : Entry) : Bool :=
  let th := s.thread c t
  s.brkMatch c (th.lines.getD 0 0) true && !th.resumed && decide (th.st = .running) && decide (e.issued + 1 = s.num (rSKRY c 0x5C) 0 9)

/-- The ISSUE leaves the thread (R217). -/
def State.issued (s : State) (c : BitVec 4) (t : BitVec 3) (k : EKey) : State :=
  (s.updEntry k (fun e => { e with issued := e.issued + 1 })).retire c t ((s.thread c t).pc + 4)

/-- The operation is skipped with a code at its issue (R217, R218): it counts as issued and completed. -/
def State.skipIssue (s : State) (c : BitVec 4) (t : BitVec 3) (k : EKey) (i code : Nat) : State := (s.skipOn c t code (some i)).promote k

/-- Steps 1 to 3 of R217, then `body` for step 4 on. -/
def issueSteps (i : Dword) (c : BitVec 4) (t : BitVec 3) (s : State) (body : EKey → Entry → Line → Nat → State) : State :=
  let th := s.thread c t
  match th.launch with
  | none => s
  | some k => match s.entry k with
    | none => s
    | some e =>
      let n := i.toNat
      let l := s.opLine e n
      if blkOps (th.lines.getD 0 0) ≤ n then s.skipOn c t 0x25
      else if e.ops.getD n .idle ≠ .idle then s.skipOn c t 0x26
      else if s.brkAtIssue c t e then s.breakHit c t
      else if !th.present (.op n 0) then s.stallOn c t (th.lineStall (.op n 0))
      else if !e.depsIssued l n then s.skipIssue c t k n 0x15
      else body k e l n

/-- ISSUE (R217). -/
def semIssue (w : Word) (c : BitVec 4) (t : BitVec 3) (s : State) : State :=
  if iRd w ≠ 0 ∨ iRs2 w ≠ 0 ∨ (iFn w).extractLsb' 8 3 ≠ 0#3 then s.skipOn c t 0x20
  else
    issueSteps ((s.thread c t).reg (iRs1 w) + ((iFn w).extractLsb' 0 8).setWidth 64) c t s (fun k e l i =>
      if opKind l = 0 then
        let s := s.issued c t k
        s.opOver k i .done
      else if e.depsOver l i then
        let s := s.makeCand k i true
        match s.entry k with
        | none => s
        | some e' => match e'.ops.getD i .idle with
          | .cand _ => s.stallOn c t .issue
          | .skipped => if e'.aborted then s else (s.issued c t k).promote k
          | _ => s
      else if 16 ≤ e.windowSize then s.stallOn c t .window
      else (s.updEntry k (fun e => { e with ops := e.ops.set i .window })).issued c t k)

/-- ISSUEW (R218): the operation waits on sync object rs2 for the value in the register of field [25:21]. -/
def semIssuew (w : Word) (c : BitVec 4) (t : BitVec 3) (s : State) : State :=
  let th := s.thread c t
  if iFn w ≠ 0 then s.skipOn c t 0x20
  else
    let so := (th.reg (iRs2 w)).toNat
    let v := th.reg (iRd w)
    issueSteps (th.reg (iRs1 w)) c t s (fun k e l i =>
      if 16384 ≤ so ∨ !s.soIn e.part so then s.skipIssue c t k i 0x27
      else if opKind l = 0 then (s.issued c t k).opOver k i .done
      else if 16 ≤ e.windowSize then s.stallOn c t .window
      else if (s.obj so).holds v then
        ((s.updEntry k (fun e => { e with ops := e.ops.set i .window })).issued c t k).promote k
      else
        let s := s.setObj so ((s.obj so).append ⟨.op k i, v, false⟩)
        (s.updEntry k (fun e => { e with ops := e.ops.set i .waiter })).issued c t k)

/-- QDEPTH (R219). -/
def semQdepth (w : Word) (c : BitVec 4) (t : BitVec 3) (s : State) : State :=
  let th := s.thread c t
  if iRs2 w ≠ 0 ∨ iFn w ≠ 0 then s.skipOn c t 0x20
  else match th.launch with
    | none => s
    | some k => match s.entry k with
      | none => s
      | some e =>
        let i := (th.reg (iRs1 w)).toNat
        if blkOps (th.lines.getD 0 0) ≤ i then (s.setReg c t (iRd w) 0).skipOn c t 0x25
        else if !th.present (.op i 0) then s.stallOn c t (th.lineStall (.op i 0))
        else match s.opPort k e (s.opLine e i) i with
          | none => s.writeOn c t (iRd w) 0
          | some n =>
            let d := s.depth n
            let free := min (d - s.occ n) (d + 1 - (s.occ n + min (s.eqReserve (classOf k.stream)) d))
            let v : Dword := 0#22 ++ BitVec.ofNat 10 n ++ BitVec.ofNat 16 d ++ BitVec.ofNat 16 free
            s.writeOn c t (iRd w) v

/-! ## Long instructions (R222 to R225) -/

/-- The progress register: ACTIVE, KIND and COUNT. -/
def progressOf (kind count : Nat) : Dword := 1#1 ++ BitVec.ofNat 3 kind ++ 0#12 ++ BitVec.ofNat 48 count

/-- COUNT of a long instruction that is partly done; 0 when none is. -/
def Thread.count (th : Thread) : Nat := if bit th.progress 63 then th.progress.toNat % 2 ^ 48 else 0

/-- WAITN is satisfied: 1 when COMPLETED has been reached, 0 when the limit has passed; completion wins (R224). -/
def waitnResult (done : Nat) (target limit : Dword) (count : Nat) : Option Dword :=
  if target ≤ BitVec.ofNat 64 done then some 1
  else if limit ≠ 0 ∧ min limit.toNat (2 ^ 48 - 1) ≤ count then some 0
  else none

/-- WAITN (R224). R214 marks none of its fields 0, so its fn may be anything. -/
def semWaitn (w : Word) (c : BitVec 4) (t : BitVec 3) (s : State) : State :=
  let th := s.thread c t
  let done := ((th.launch.bind s.entry).map (·.nDone)).getD 0
  match waitnResult done (th.reg (iRs1 w)) (th.reg (iRs2 w)) th.count with
  | some v => s.writeOn c t (iRd w) v
  | none => s.setThread c t { th with progress := progressOf 3 th.count, st := if th.st = .brk then .brk else .waiting }

/-- PATCHV (R222): one step. -/
def semPatchv (w : Word) (c : BitVec 4) (t : BitVec 3) (s : State) : State :=
  let th := s.thread c t
  let f := (th.reg (iRs1 w)).toNat
  let n := (th.reg (iRs2 w)).toNat
  let k := th.count
  let word := ((iFn w).extractLsb' 8 3).toNat
  let nops := blkOps (th.lines.getD 0 0)
  if (iFn w).extractLsb' 0 3 ≠ 0#3 then s.skipOn c t 0x20
  else if !bit th.progress 63 ∧ (n = 0 ∨ 256 < n ∨ nops < f + n) then s.skipOn c t 0x29
  else if !th.present (.op (f + k) 0) then s.stallOn c t (th.lineStall (.op (f + k) 0))
  else
    let ops := ((th.launch.bind s.entry).map (·.ops)).getD []
    let p : Place := .op (f + k) (0x20 + 4 * word)
    let v := th.reg (iRd w) + BitVec.ofNat 64 k * th.reg ((iFn w).extractLsb' 3 5).toNat
    let s := if th.writable ops p then s.setThread c t (th.wr32 p (v.extractLsb' 0 32))
      else if th.patched then s
      else (s.skipInsn c t 0x28 none).setThread c t { (s.skipInsn c t 0x28 none).thread c t with patched := true }
    if n ≤ k + 1 then s.retire c t (th.pc + 4)
    else s.setThread c t { s.thread c t with progress := progressOf 1 (k + 1) }

/-- Copy `n` 8-byte words of the view. -/
def Thread.copy (th : Thread) (src dst : Nat) : Nat → Thread
  | 0 => th
  | n + 1 => (th.wr64 dst (th.rd64 src)).copy (src + 8) (dst + 8) n

/-- COPYC (R223): one step of up to 64 bytes. -/
def semCopyc (w : Word) (c : BitVec 4) (t : BitVec 3) (s : State) : State :=
  let th := s.thread c t
  let src := (th.reg (iRs1 w)).toNat
  let len := (th.reg (iRs2 w)).toNat
  let dst := (th.reg (iRd w)).toNat
  let ops := ((th.launch.bind s.entry).map (·.ops)).getD []
  let k := th.count
  if iFn w ≠ 0 then s.skipOn c t 0x20
  else if !bit th.progress 63 ∧ (len < 8 ∨ 4096 < len ∨ len % 8 ≠ 0 ∨ src % 8 ≠ 0 ∨ dst % 8 ≠ 0 ∨ (src < dst + len ∧ dst < src + len)) then
    s.skipOn c t 0x29
  else if !bit th.progress 63 ∧ !((List.range (len / 8)).all (fun i =>
      decide (th.place (src + 8 * i) ≠ .none) && th.writable ops (th.place (dst + 8 * i)))) then s.skipOn c t 0x21
  else
    let n := min 8 ((len - k) / 8)
    let ps := (List.range n).flatMap (fun i => [th.place (src + k + 8 * i), th.place (dst + k + 8 * i)])
    match ps.find? (fun p => !th.present p) with
    | some p => s.stallOn c t (th.lineStall p)
    | none =>
      let s := s.setThread c t (th.copy (src + k) (dst + k) n)
      if len ≤ k + 8 * n then s.retire c t (th.pc + 4)
      else s.setThread c t { s.thread c t with progress := progressOf 2 (k + 8 * n) }

/-- END: off26 must be 0 (R214, R221). -/
def semEnd (w : Word) (c : BitVec 4) (t : BitVec 3) (s : State) : State :=
  if w.extractLsb' 0 26 ≠ 0#26 then s.skipOn c t 0x20
  else
    let part := ((s.thread c t).launch.bind s.entry).map (·.part)
    let s := match part with | some p => s.progress p | none => s
    s.endThread c t

/-- The meaning of any instruction word, for STEP (R229). -/
def semAny (w : Word) (c : BitVec 4) (t : BitVec 3) (s : State) : State :=
  match iOp w with
  | 0x01 => semAlu w c t s
  | 0x02 | 0x03 | 0x04 | 0x05 | 0x08 => semImm w c t s
  | 0x06 => semShi w c t s
  | 0x07 => semLui w c t s
  | 0x10 => semLoad 8 w c t s
  | 0x11 => semLoad 4 w c t s
  | 0x14 => semStore 8 w c t s
  | 0x15 => semStore 4 w c t s
  | 0x16 => semRdp w c t s
  | 0x17 => semWrp w c t s
  | 0x18 | 0x19 | 0x1A | 0x1B | 0x1C | 0x1D => semBranch w c t s
  | 0x1E => semJal w c t s
  | 0x1F => semJalr w c t s
  | 0x20 => semCsrr w c t s
  | 0x28 => semIssue w c t s
  | 0x29 => semIssuew w c t s
  | 0x2A => semQdepth w c t s
  | 0x2B => semWaitn w c t s
  | 0x2C => semPatchv w c t s
  | 0x2D => semCopyc w c t s
  | 0x30 => semEnd w c t s
  | _ => semIllegal w c t s

/-! ## The commands -/

/-- ADD (R215); a word of a reserved opcode is run, and skipped, here (log entry 10). -/
def execAdd (core : BitVec 4) (thread : BitVec 3) (s : State) : Host.Outcome State Fault Refusal :=
  .next (s.runInsn core thread (fun w => decide (iOp w = 1 ∧ w.toNat % 16 = 0) || !assignedOp (iOp w)) (fun w => if iOp w = 1 then semAlu w else semIllegal w))

/-- SUB (R215). -/
def execSub (core : BitVec 4) (thread : BitVec 3) (s : State) : Host.Outcome State Fault Refusal :=
  .next (s.runInsn core thread (fun w => decide (iOp w = 1 ∧ w.toNat % 16 = 1)) semAlu)

/-- AND (R215). -/
def execAnd (core : BitVec 4) (thread : BitVec 3) (s : State) : Host.Outcome State Fault Refusal :=
  .next (s.runInsn core thread (fun w => decide (iOp w = 1 ∧ w.toNat % 16 = 2)) semAlu)

/-- OR (R215). -/
def execOr (core : BitVec 4) (thread : BitVec 3) (s : State) : Host.Outcome State Fault Refusal :=
  .next (s.runInsn core thread (fun w => decide (iOp w = 1 ∧ w.toNat % 16 = 3)) semAlu)

/-- XOR (R215). -/
def execXor (core : BitVec 4) (thread : BitVec 3) (s : State) : Host.Outcome State Fault Refusal :=
  .next (s.runInsn core thread (fun w => decide (iOp w = 1 ∧ w.toNat % 16 = 4)) semAlu)

/-- SLL (R215). -/
def execSll (core : BitVec 4) (thread : BitVec 3) (s : State) : Host.Outcome State Fault Refusal :=
  .next (s.runInsn core thread (fun w => decide (iOp w = 1 ∧ w.toNat % 16 = 5)) semAlu)

/-- SRL (R215). -/
def execSrl (core : BitVec 4) (thread : BitVec 3) (s : State) : Host.Outcome State Fault Refusal :=
  .next (s.runInsn core thread (fun w => decide (iOp w = 1 ∧ w.toNat % 16 = 6)) semAlu)

/-- SRA (R215). -/
def execSra (core : BitVec 4) (thread : BitVec 3) (s : State) : Host.Outcome State Fault Refusal :=
  .next (s.runInsn core thread (fun w => decide (iOp w = 1 ∧ w.toNat % 16 = 7)) semAlu)

/-- MUL (R215). -/
def execMul (core : BitVec 4) (thread : BitVec 3) (s : State) : Host.Outcome State Fault Refusal :=
  .next (s.runInsn core thread (fun w => decide (iOp w = 1 ∧ w.toNat % 16 = 8)) semAlu)

/-- MULHU (R215). -/
def execMulhu (core : BitVec 4) (thread : BitVec 3) (s : State) : Host.Outcome State Fault Refusal :=
  .next (s.runInsn core thread (fun w => decide (iOp w = 1 ∧ w.toNat % 16 = 9)) semAlu)

/-- SLT (R215). -/
def execSlt (core : BitVec 4) (thread : BitVec 3) (s : State) : Host.Outcome State Fault Refusal :=
  .next (s.runInsn core thread (fun w => decide (iOp w = 1 ∧ w.toNat % 16 = 10)) semAlu)

/-- SLTU (R215). -/
def execSltu (core : BitVec 4) (thread : BitVec 3) (s : State) : Host.Outcome State Fault Refusal :=
  .next (s.runInsn core thread (fun w => decide (iOp w = 1 ∧ w.toNat % 16 = 11)) semAlu)

/-- MIN (R215). -/
def execMin (core : BitVec 4) (thread : BitVec 3) (s : State) : Host.Outcome State Fault Refusal :=
  .next (s.runInsn core thread (fun w => decide (iOp w = 1 ∧ w.toNat % 16 = 12)) semAlu)

/-- MAX (R215). -/
def execMax (core : BitVec 4) (thread : BitVec 3) (s : State) : Host.Outcome State Fault Refusal :=
  .next (s.runInsn core thread (fun w => decide (iOp w = 1 ∧ w.toNat % 16 = 13)) semAlu)

/-- MINU (R215). -/
def execMinu (core : BitVec 4) (thread : BitVec 3) (s : State) : Host.Outcome State Fault Refusal :=
  .next (s.runInsn core thread (fun w => decide (iOp w = 1 ∧ w.toNat % 16 = 14)) semAlu)

/-- MAXU (R215). -/
def execMaxu (core : BitVec 4) (thread : BitVec 3) (s : State) : Host.Outcome State Fault Refusal :=
  .next (s.runInsn core thread (fun w => decide (iOp w = 1 ∧ w.toNat % 16 = 15)) semAlu)

/-- ADDI (R214). -/
def execAddi (core : BitVec 4) (thread : BitVec 3) (s : State) : Host.Outcome State Fault Refusal :=
  .next (s.runInsn core thread (fun w => decide (iOp w = 2)) semImm)

/-- ANDI (R214). -/
def execAndi (core : BitVec 4) (thread : BitVec 3) (s : State) : Host.Outcome State Fault Refusal :=
  .next (s.runInsn core thread (fun w => decide (iOp w = 3)) semImm)

/-- ORI (R214). -/
def execOri (core : BitVec 4) (thread : BitVec 3) (s : State) : Host.Outcome State Fault Refusal :=
  .next (s.runInsn core thread (fun w => decide (iOp w = 4)) semImm)

/-- XORI (R214). -/
def execXori (core : BitVec 4) (thread : BitVec 3) (s : State) : Host.Outcome State Fault Refusal :=
  .next (s.runInsn core thread (fun w => decide (iOp w = 5)) semImm)

/-- SLTI (R214). -/
def execSlti (core : BitVec 4) (thread : BitVec 3) (s : State) : Host.Outcome State Fault Refusal :=
  .next (s.runInsn core thread (fun w => decide (iOp w = 8)) semImm)

/-- SHI code 0, and the illegal code 3 (R214). -/
def execSlli (core : BitVec 4) (thread : BitVec 3) (s : State) : Host.Outcome State Fault Refusal :=
  .next (s.runInsn core thread (fun w => decide (iOp w = 6 ∧ (w.toNat / 64 % 4 = 0 ∨ w.toNat / 64 % 4 = 3))) semShi)

/-- SHI code 1 (R214). -/
def execSrli (core : BitVec 4) (thread : BitVec 3) (s : State) : Host.Outcome State Fault Refusal :=
  .next (s.runInsn core thread (fun w => decide (iOp w = 6 ∧ w.toNat / 64 % 4 = 1)) semShi)

/-- SHI code 2 (R214). -/
def execSrai (core : BitVec 4) (thread : BitVec 3) (s : State) : Host.Outcome State Fault Refusal :=
  .next (s.runInsn core thread (fun w => decide (iOp w = 6 ∧ w.toNat / 64 % 4 = 2)) semShi)

/-- LUI (R214). -/
def execLui (core : BitVec 4) (thread : BitVec 3) (s : State) : Host.Outcome State Fault Refusal :=
  .next (s.runInsn core thread (fun w => decide (iOp w = 7)) semLui)

/-- LD (R214). -/
def execLd (core : BitVec 4) (thread : BitVec 3) (s : State) : Host.Outcome State Fault Refusal :=
  .next (s.runInsn core thread (fun w => decide (iOp w = 16)) (semLoad 8))

/-- LW (R214). -/
def execLw (core : BitVec 4) (thread : BitVec 3) (s : State) : Host.Outcome State Fault Refusal :=
  .next (s.runInsn core thread (fun w => decide (iOp w = 17)) (semLoad 4))

/-- SD (R214). -/
def execSd (core : BitVec 4) (thread : BitVec 3) (s : State) : Host.Outcome State Fault Refusal :=
  .next (s.runInsn core thread (fun w => decide (iOp w = 20)) (semStore 8))

/-- SW (R214). -/
def execSw (core : BitVec 4) (thread : BitVec 3) (s : State) : Host.Outcome State Fault Refusal :=
  .next (s.runInsn core thread (fun w => decide (iOp w = 21)) (semStore 4))

/-- RDP (R214). -/
def execRdp (core : BitVec 4) (thread : BitVec 3) (s : State) : Host.Outcome State Fault Refusal :=
  .next (s.runInsn core thread (fun w => decide (iOp w = 22)) semRdp)

/-- WRP (R214). -/
def execWrp (core : BitVec 4) (thread : BitVec 3) (s : State) : Host.Outcome State Fault Refusal :=
  .next (s.runInsn core thread (fun w => decide (iOp w = 23)) semWrp)

/-- BEQ (R214). -/
def execBeq (core : BitVec 4) (thread : BitVec 3) (s : State) : Host.Outcome State Fault Refusal :=
  .next (s.runInsn core thread (fun w => decide (iOp w = 24)) semBranch)

/-- BNE (R214). -/
def execBne (core : BitVec 4) (thread : BitVec 3) (s : State) : Host.Outcome State Fault Refusal :=
  .next (s.runInsn core thread (fun w => decide (iOp w = 25)) semBranch)

/-- BLT (R214). -/
def execBlt (core : BitVec 4) (thread : BitVec 3) (s : State) : Host.Outcome State Fault Refusal :=
  .next (s.runInsn core thread (fun w => decide (iOp w = 26)) semBranch)

/-- BGE (R214). -/
def execBge (core : BitVec 4) (thread : BitVec 3) (s : State) : Host.Outcome State Fault Refusal :=
  .next (s.runInsn core thread (fun w => decide (iOp w = 27)) semBranch)

/-- BLTU (R214). -/
def execBltu (core : BitVec 4) (thread : BitVec 3) (s : State) : Host.Outcome State Fault Refusal :=
  .next (s.runInsn core thread (fun w => decide (iOp w = 28)) semBranch)

/-- BGEU (R214). -/
def execBgeu (core : BitVec 4) (thread : BitVec 3) (s : State) : Host.Outcome State Fault Refusal :=
  .next (s.runInsn core thread (fun w => decide (iOp w = 29)) semBranch)

/-- JAL (R214). -/
def execJal (core : BitVec 4) (thread : BitVec 3) (s : State) : Host.Outcome State Fault Refusal :=
  .next (s.runInsn core thread (fun w => decide (iOp w = 30)) semJal)

/-- JALR (R214). -/
def execJalr (core : BitVec 4) (thread : BitVec 3) (s : State) : Host.Outcome State Fault Refusal :=
  .next (s.runInsn core thread (fun w => decide (iOp w = 31)) semJalr)

/-- CSRR (R214). -/
def execCsrr (core : BitVec 4) (thread : BitVec 3) (s : State) : Host.Outcome State Fault Refusal :=
  .next (s.runInsn core thread (fun w => decide (iOp w = 32)) semCsrr)

/-- ISSUE (R214). -/
def execIssue (core : BitVec 4) (thread : BitVec 3) (s : State) : Host.Outcome State Fault Refusal :=
  .next (s.runInsn core thread (fun w => decide (iOp w = 40)) semIssue)

/-- ISSUEW (R214). -/
def execIssuew (core : BitVec 4) (thread : BitVec 3) (s : State) : Host.Outcome State Fault Refusal :=
  .next (s.runInsn core thread (fun w => decide (iOp w = 41)) semIssuew)

/-- QDEPTH (R214). -/
def execQdepth (core : BitVec 4) (thread : BitVec 3) (s : State) : Host.Outcome State Fault Refusal :=
  .next (s.runInsn core thread (fun w => decide (iOp w = 42)) semQdepth)

/-- WAITN (R214). -/
def execWaitn (core : BitVec 4) (thread : BitVec 3) (s : State) : Host.Outcome State Fault Refusal :=
  .next (s.runInsn core thread (fun w => decide (iOp w = 43)) semWaitn)

/-- PATCHV (R214). -/
def execPatchv (core : BitVec 4) (thread : BitVec 3) (s : State) : Host.Outcome State Fault Refusal :=
  .next (s.runInsn core thread (fun w => decide (iOp w = 44)) semPatchv)

/-- COPYC (R214). -/
def execCopyc (core : BitVec 4) (thread : BitVec 3) (s : State) : Host.Outcome State Fault Refusal :=
  .next (s.runInsn core thread (fun w => decide (iOp w = 45)) semCopyc)

/-- END (R214). -/
def execEndProg (core : BitVec 4) (thread : BitVec 3) (s : State) : Host.Outcome State Fault Refusal :=
  .next (s.runInsn core thread (fun w => decide (iOp w = 48)) semEnd)

/-- WAITN_DONE (R224): a waiting WAITN is satisfied or reaches its limit: rd is written and the thread goes on. -/
def execWaitnDone (core : BitVec 4) (thread : BitVec 3) (s : State) : Host.Outcome State Fault Refusal :=
  let th := s.thread core thread
  let w := s.insn core thread
  if (th.st = .waiting ∨ (th.st = .brk ∧ th.stepping)) ∧ iOp w = 0x2B then
    let done := ((th.launch.bind s.entry).map (·.nDone)).getD 0
    match waitnResult done (th.reg (iRs1 w)) (th.reg (iRs2 w)) th.count with
    | some v => .next (s.writeOn core thread (iRd w) v)
    | none => .next s
  else .next s

/-- Run an instruction of a thread in BREAK to its end (R229): a long instruction takes as many steps as it needs. -/
def State.stepInsn (s : State) (c : BitVec 4) (t : BitVec 3) (pc : Nat) : Nat → State
  | 0 => s
  | n + 1 =>
    let th := s.thread c t
    if th.steps ∧ th.pc = pc then (semAny (s.insn c t) c t s).stepInsn c t pc n else s

/-- SKRY.THR_CTRL (R226, R227, R239): RESUME and STEP act in BREAK, HALT in RUNNING, STALLED or WAITING. A thread that was halted
before its launch's start goes on waiting for it: RESUME leaves it RUNNING until the next CCLK finds the start's lines absent, and a
STEP is done once the launch has started. -/
def State.threadCtl (s : State) (c : BitVec 4) (op : Nat) : State :=
  let t : BitVec 3 := s.fld (rSKRY c 0x6C) 0 3
  let th := s.thread c t
  let bad := s.setErr (pSKRY c) 19
  match op with
  | 1 => if th.st = .brk then s.setThread c t { th with
      st := .running, stall := if th.stall = .start then .start else .none, resumed := true, stepping := false } else bad
  | 2 => if th.st = .brk then
      (s.setThread c t { th with
        stepping := true, resumed := true, stall := if th.stall = .start then .start else .none }).stepInsn c t th.pc 600 else bad
  | 3 => if th.st = .running ∨ th.st = .stalled ∨ th.st = .waiting then
      let s := s.withdrawIssue c t
      s.setThread c t { s.thread c t with st := .brk, stall := if th.stall = .start then .start else .none }
    else bad
  | _ => s

end Sys2Proof.Machine
end

