-- ==== Sys2Proof/Machine/Place.lean ====
section
/-! DEFINITION. Stage 8 (spec/06_skerry_cores.md R200 to R204): placing and starting launches, the copy into DMEM, and the
IMEM banks (R231 to R238). -/
namespace Sys2Proof.Machine

/-! ## Cores -/

/-- Free threads, and threads that pin a bank: those whose launch has started (R202). -/
def Core.freeThreads (c : Core) : Nat := ((List.range 8).filter (fun t => decide ((c.thread (BitVec.ofNat 3 t)).st = .free))).length
def Core.pins (c : Core) (b : BitVec 1) : Nat :=
  ((List.range 8).filter (fun t => let th := c.thread (BitVec.ofNat 3 t)
    decide (th.st ≠ .free) && decide (th.stall ≠ .start) && decide (th.bank = b))).length

/-- Pool lines that an entry holds (R221): all that were reserved until its launch starts, then those of the operations that dispatch
has not taken; at END those not issued are given back. -/
def State.poolLines (s : State) (k : EKey) (e : Entry) : Nat :=
  if !e.executed then e.poolN
  else (List.range e.ops.length).countP (fun i => match e.ops.getD i .done with
    | .idle => !e.ended
    | .waiter | .window => true
    | .cand _ => s.disp.cands.any (fun c => decide (c.who = .op k i) && decide (c.retries = 0))
    | .sent | .done | .skipped => false)

/-- Pool lines in use on a core. -/
def State.poolUsed (s : State) (c : BitVec 4) : Nat :=
  s.allEntries.foldl (fun n x => if x.2.poolAt = some c then n + s.poolLines x.1 x.2 else n) 0

/-- fit of R200. -/
def State.fit (s : State) (c : BitVec 4) (n : Nat) : Bool := decide (0 < (s.core c).freeThreads) && decide (s.poolUsed c + n ≤ 320)

/-- Lines of a program. -/
def ProgKey.lines (k : ProgKey) : Nat := k.len / 64

/-- A bank holds a valid program. -/
def Bank.has (b : Bank) (k : ProgKey) : Bool := b.progs.any (fun p => decide (p.key = k) && p.valid)

/-- The locked programs of a core, other than the program to be loaded. -/
def Core.locked (c : Core) (k : ProgKey) : List Prog :=
  (c.bank c.active).progs.filter (fun p => p.valid && p.lock && decide (p.key ≠ k))

/-- Room for a program beside the core's locked programs: 512 lines and 16 entries (R231). -/
def Core.room (c : Core) (k : ProgKey) : Bool :=
  decide (((c.locked k).map (fun p => p.key.lines)).foldl (· + ·) k.lines ≤ 512) && decide ((c.locked k).length < 16)

/-- The cores in order. -/
def allCores : List (BitVec 4) := (List.range 16).map (BitVec.ofNat 4)

/-- The core with most free threads, the lowest number on a tie. -/
def State.mostFree (s : State) (l : List (BitVec 4)) : Option (BitVec 4) :=
  leastBy (fun x y => decide ((s.core y).freeThreads < (s.core x).freeThreads)) l

/-! ## Program loads (R232) -/

/-- Start a program load into a core's standby bank. -/
def State.startLoad (s : State) (c : BitVec 4) (k : ProgKey) (lock soft : Bool) : State :=
  let co := s.core c
  let n := linesOfExtent k.addr k.len
  let s := s.setCore c { co with load := some ⟨k, lock, soft, List.replicate n 0, ceilDiv n 8, false, false⟩ }
  s.readLines (k.addr &&& ~~~63#57) n (.imem c)

/-- Retained programs, in order, while lines and directory entries remain (R232). -/
def layProgs : List Prog → Nat → Nat → List Prog
  | [], _, _ => []
  | p :: ps, off, n => if n < 16 ∧ off + p.key.lines ≤ 512 then { p with off := off } :: layProgs ps (off + p.key.lines) (n + 1) else []

/-- Put a program later started before another. -/
def insertProg (p : Prog) : List Prog → List Prog
  | [] => [p]
  | q :: qs => if q.last < p.last then p :: q :: qs else q :: insertProg p qs

/-- The bank that a finished load makes (R232). -/
def Core.loadedBank (c : Core) (l : Load) (now : Nat) : Bank :=
  let old := c.bank c.active
  let kept := old.progs.filter (fun p => p.valid && decide (p.key ≠ l.key))
  let free := (kept.filter (fun p => !p.lock)).foldr insertProg []
  let first : Prog := ⟨l.key, !l.stale, l.lock, 0, now⟩
  let rest := layProgs (kept.filter (·.lock) ++ free) l.key.lines 1
  let copy := fun (m : Tbl Line) (p : Prog) =>
    let src := ((old.progs.find? (fun q => decide (q.key = p.key) && q.valid)).map (·.off)).getD 0
    (List.range p.key.lines).foldl (fun m i => Tbl.set (fun _ => 0) m (p.off + i) (Tbl.get (fun _ => 0) old.mem (src + i))) m
  let mem0 := ((alignLines l.got (l.key.addr.toNat % 64) l.key.lines).foldl (fun (a : Tbl Line × Nat) x => (Tbl.set (fun _ => 0) a.1 a.2 x, a.2 + 1)) ([], 0)).1
  ⟨first :: rest, rest.foldl copy mem0⟩

/-! ## Starting (R202, R290, R322, R323, R465, R613) -/

/-- Mark an operation line as a NOP (R192): its KIND becomes 0. -/
def nopLine (l : Line) : Line := Line.put l 0 (0#8)

/-- PLACED operations whose engine class has no port at the start (R323). -/
def emptyClassOps (ls : List Line) (pl : List (List Nat)) : List Nat :=
  let b := ls.getD 0 0
  (List.range (blkOps b)).filter (fun i =>
    let l := ls.getD (opBase b + i) 0
    let w := Line.w32 l 0
    decide (opKind l = 1) && bit w 9 && (pl.getD (w.extractLsb' 24 4).toNat []).isEmpty)

/-- Skip operations at the start: events, FERRY.OPS_SKIPPED, the status, the block's SKIP bit (R191, R192, R194). -/
def State.skipAtStart (s : State) (k : EKey) (ops : List Nat) : State :=
  ops.foldl (fun s i => match s.entry k with
    | none => s
    | some e =>
      let s := (s.bump (pageAddr pFERY 0x84)).raise { (ev pFERY 0x11 1).ofEntry k e with index := some i }
      s.setEntry k (some (e.failed ⟨1, 0x11, BitVec.ofNat 8 i⟩))) s

/-- Stage 8 starts no program of the entry now: HALTED, S5, a partition that is not SERVING, Tide's hold (R487, R473, R71,
R300). -/
def State.startHeld (s : State) (e : Entry) : Bool :=
  decide (s.lhse.mode = .halted) || s.rst.stopped || decide (s.num (rPART e.part 0x74) 0 3 ≠ 1) ||
    (decide (e.etype = .tableUpdate) && (s.flag (rTIDE e.part 8) 31 || decide (s.num (rTIDE e.part 0xC) 16 16 ≠ 0)))

/-- The launch's context is lost, destroyed or invalid in its slot (R82). -/
def State.ctxGone (s : State) (e : Entry) : Bool :=
  match e.slot with
  | none => false
  | some n => let l := (s.slot n).recLines.getD 1 0
    !bit l 0 || bit l 1 || bit l 2

/-- A placed launch gives its thread and its pool lines back. -/
def State.unplace (s : State) (k : EKey) : State :=
  match s.entry k with
  | none => s
  | some e => (s.freeThread e).setEntry k (some { e with core := none, thread := none, poolAt := none })

/-- A placed launch that has not started stands at stage 8 without a thread again, its lines in the expansion store (R70, R201). -/
def State.backTo8 (s : State) (k : EKey) : State := (s.unplace k).updEntry k (fun e => { e with store := e.lines.length })

/-- The program starts (R200, R202); a thread that has been halted meanwhile stays in BREAK. -/
def State.startLaunch (s : State) (c : BitVec 4) (t : BitVec 3) (k : EKey) : State :=
  match s.entry k with
  | none => s
  | some e =>
    let p := e.part
    let th := s.thread c t
    let co := s.core c
    let pl := s.placesOf p
    let blk := th.lines.getD 0 0
    let skip := emptyClassOps th.lines pl
    let live := s.allEntries.any (fun x => decide (x.2.part = p) && x.2.running)
    let s := if live then s else s.progress p
    let s := s.skipAtStart k skip
    let lines := skip.foldl (fun ls i => ls.modify (opBase blk + i) nopLine) th.lines
    let lines := if skip.isEmpty then lines else lines.modify 0 (fun l => Line.put l 0x10 (Line.w32 l 0x10 ||| (1#32 <<< 25)))
    let cur := s.cur p
    let s := s.updEntry k (fun e => { e with
      stage := .running, executed := true, tStart := s.nowFine, epoch := cur, places := pl, engines := enginesOf pl
      model := s.rd (rPART p 0x70), waitUs := s.fld (pageAddr pINTG 0x48) 0 20, node := s.fld (pageAddr pINTG 0x50) 0 12, ops := List.replicate (blkOps blk) .idle })
    let s := s.setF (rTIDE p 0xC) 0 (s.fld (rTIDE p 0xC) 0 16 + 1)
    let s := if e.etype = .tableUpdate then s.setF (rTIDE p 8) 0 (s.fld (rTIDE p 8) 0 16 + 1) else s
    let key := progKey p blk
    let b := co.bank co.active
    let co' := co.setBank co.active { b with progs := b.progs.map (fun q => if q.key = key then { q with last := s.cclk } else q) }
    let s := s.setCore c co'
    let s := s.setThread c t { th with st := if th.st = .brk then .brk else .running, stall := .none, bank := co.active, lines := lines, cycle := 0 }
    let tag : Dword := 0#4 ++ (k.stream.setWidth 20) ++ (e.ctx.extractLsb' 0 16) ++ p ++ 0#1 ++ c ++ t ++ 0#12
    let s := s.traceRec 1 (some p) tag
    let s := if s.runOn ∧ !s.inRun p then s.timingBreakAll else s
    let s := s.timerRestart k.stream
    let s := (s.auditStart k).headLeaves k
    if th.st ≠ .brk ∧ s.brkMatch c blk false then s.breakHit c t else s

/-- Start a placed launch once its launch block and parameter lines are in DMEM and its bank is active (R203). When the active bank no
longer has its program, because a swap came between, R200 decides again (DESIGN CHOICE, log entry 54). -/
def State.tryStart (s : State) (c : BitVec 4) (t : BitVec 3) : State :=
  let th := s.thread c t
  match th.launch with
  | none => s
  | some k => match s.entry k with
    | none => s
    | some e =>
      if th.st ≠ .quiesced ∧ th.stall = .start ∧ !th.wantSwap ∧ 1 + ceilDiv (blkP (th.lines.getD 0 0)) 16 ≤ th.arrived ∧ e.stage = .place then
        if s.ctxGone e then (s.unplace k).refuseLaunch k ⟨6, 0, 0⟩
        else if s.startHeld e then s
        else if !((s.core c).bank (s.core c).active).progs.any (fun p => decide (p.key = progKey e.part (th.lines.getD 0 0))) then s.backTo8 k
        else s.startLaunch c t k
      else s

/-- Parameter slots of a launch (R202). -/
def paramSlots (ls : List Line) : Vector Word 32 :=
  let b := ls.getD 0 0
  Vector.ofFn (fun (i : Fin 32) => if i.val < blkP b then Line.w32 (ls.getD (1 + i.val / 16) 0) (4 * (i.val % 16)) else 0)

/-- Reserve the lowest free thread of a core, with its pool lines, for a launch (R200). -/
def State.placeOn (s : State) (k : EKey) (c : BitVec 4) (ls : List Line) (ops : Nat) (swap : Bool) : State :=
  match (List.range 8).find? (fun t => decide ((s.thread c (BitVec.ofNat 3 t)).st = .free)) with
  | none => s
  | some t =>
    let t : BitVec 3 := BitVec.ofNat 3 t
    let s := s.setThread c t { Thread.reset with
      st := .stalled, stall := .start, launch := some k, wantSwap := swap, bank := (s.core c).active
      lines := ls, slots := paramSlots ls }
    s.updEntry k (fun e => { e with core := some c, thread := some t, poolAt := some c, poolN := ops })

/-- What R200 decides for a launch. -/
inductive Place8 where
  | start (c : BitVec 4)
  | join (c : BitVec 4)
  | load (c : BitVec 4)
  | full
  | wait
deriving DecidableEq, Repr

/-- The decision of R200. -/
def State.place8 (s : State) (key : ProgKey) (n : Nat) : Place8 :=
  let fit := allCores.filter (fun c => s.fit c n)
  match s.mostFree (fit.filter (fun c => let co := s.core c; (co.bank co.active).has key)) with
  | some c => .start c
  | none =>
    match fit.find? (fun c => match (s.core c).load with | some l => decide (l.key = key) && !l.stale | none => false) with
    | some c => .join c
    | none =>
      match s.mostFree (fit.filter (fun c => let co := s.core c
          decide (co.pins (~~~co.active) = 0) && co.load.isNone && co.room key)) with
      | some c => .load c
      | none => if allCores.any (fun c => (s.core c).room key) then .wait else .full

/-- A launch stands at stage 8 without a core and nothing keeps it from starting. -/
def State.mayPlace (s : State) (k : EKey) : Option Entry :=
  match s.entry k with
  | some e => if e.stage = .place ∧ e.core.isNone ∧ !s.ctxGone e ∧ !s.startHeld e then some e else none
  | none => none

/-- A launch that waits at stage 8 can be placed now and is served before `k`: its class is lower, or the same and it has waited
for longer (R201). -/
def State.outranked (s : State) (k : EKey) : Bool :=
  let older := s.ferry.waits.takeWhile (fun x => decide (x ≠ k))
  s.ferry.waits.any (fun x => decide (x ≠ k) &&
    (decide ((classOf x.stream).toNat < (classOf k.stream).toNat) ||
      (decide (classOf x.stream = classOf k.stream) && older.contains x)) &&
    (match s.mayPlace x with
      | some e => decide (s.place8 (progKey e.part (e.lines.getD 0 0)) (blkOps (e.lines.getD 0 0)) ≠ .wait)
      | none => false))

/-- A launch stands at stage 8 without a core. -/
def State.at8 (s : State) (k : EKey) : Bool :=
  match s.entry k with
  | some e => decide (e.stage = .place) && e.core.isNone
  | none => false

/-- A launch waits at stage 8 (R200, R201), for a core or for what holds it there (R300). -/
def State.wait8 (s : State) (k : EKey) : State :=
  let ws := s.ferry.waits.filter s.at8
  { s with ferry := { s.ferry with waits := if ws.contains k then ws else ws ++ [k] } }

/-- LAUNCH_PLACE (R200, R201, R82, R300): the head launch of a stream is placed, or waits, or completes. -/
def execLaunchPlace (stream : BitVec 14) (s : State) : Host.Outcome State Fault Refusal :=
  match (s.stream stream).head with
  | none => .next s
  | some q =>
    let k : EKey := ⟨stream, q⟩
    match s.entry k with
    | none => .next s
    | some e =>
      if e.stage ≠ .place then .next s
      else if e.core.isSome then .next (match e.core, e.thread with | some c, some t => s.tryStart c t | _, _ => s)
      else if s.ctxGone e then .next (s.refuseLaunch k ⟨6, 0, 0⟩)
      else if s.startHeld e then .next (s.wait8 k)
      else if s.outranked k then .next (s.wait8 k)
      else
        let blk := e.lines.getD 0 0
        let key := progKey e.part blk
        let n := blkOps blk
        match s.place8 key n with
        | .start c => .next (s.placeOn k c e.lines n false)
        | .join c => .next (s.placeOn k c e.lines n true)
        | .load c => .next ((s.placeOn k c e.lines n true).startLoad c key false false)
        | .full =>
          .next ((s.raise ((ev (pSKRY 0) 0x2B 1).ofEntry k e)).refuseLaunch k ⟨4, 0x2B, 0⟩)
        | .wait => .next (s.wait8 k)

/-- LAUNCH_COPY_LINE (R203): one more line of the launch is in DMEM. -/
def execLaunchCopyLine (core : BitVec 4) (thread : BitVec 3) (s : State) : Host.Outcome State Fault Refusal :=
  let th := s.thread core thread
  match th.launch with
  | none => .next s
  | some k =>
    let n := min (th.arrived + 1) th.lines.length
    let th := { th with arrived := n }
    let th := if (th.st = .stalled ∨ th.st = .brk) ∧ 0 < n ∧ th.stall = .line (n - 1) then
      { th with st := if th.st = .brk then .brk else .running, stall := .none } else th
    let s := s.setThread core thread th
    let s := if n = th.lines.length then s.updEntry k (fun e => { e with store := 0 }) else s
    .next (s.tryStart core thread)

/-! ## IMEM (R230 PROG_READ, R232, R235, R236) -/

/-- Threads of a core that wait for the swap of its load. -/
def State.swapWaiters (s : State) (c : BitVec 4) : List (BitVec 3 × EKey) :=
  (List.range 8).filterMap (fun i =>
    let t : BitVec 3 := BitVec.ofNat 3 i
    let th := s.thread c t
    if th.wantSwap then th.launch.map (fun k => (t, k)) else none)

/-- A software LOAD ends with an ERR (R235). -/
def State.imemEnd (s : State) (c : BitVec 4) (err : BitVec 4) : State :=
  (s.setBit (rSKRY c 0x4C) 27 false).setF (rSKRY c 0x4C) 20 err

/-- Every line of a load is in: the standby bank becomes active, or the load has failed (R230, R232). -/
def State.loadEnds (s : State) (c : BitVec 4) (l : Load) : State :=
  let ws := s.swapWaiters c
  let co := s.core c
  let s := s.setCore c { co with load := none }
  if l.err then
    let s := s.raise { ev (pSKRY c) 0x2A 1 with part := some (l.key.part.extractLsb' 0 4) }
    let s := if l.soft then s.imemEnd c 4 else s
    ws.foldl (fun s w => (s.unplace w.2).refuseLaunch w.2 ⟨4, 0x2A, 0⟩) s
  else
    let code := co.loadedBank l s.cclk
    let bank : BitVec 1 := ~~~co.active
    let s := (s.setCore c { (co.setBank bank code) with load := none, active := bank }).bump (rSKRY c 0x90)
    let s := if l.soft then s.imemEnd c 0 else s
    ws.foldl (fun s w =>
      (s.setThread c w.1 { s.thread c w.1 with wantSwap := false, bank := bank }).tryStart c w.1) s

/-- IMEM_LOAD_DONE (R232): lines of a program load return; the last ones end the load. -/
def execImemLoadDone (core : BitVec 4) (mtag : BitVec 8) (gen : BitVec 4) (err : Bool) (lines : List Line) (s : State) :
    Host.Outcome State Fault Refusal :=
  let r := s.answer true mtag gen
  match r.2 with
  | none => .next r.1
  | some q => match q.why with
    | .imem c off =>
      if c ≠ core then .next s
      else if lines.length * 64 ≠ q.len ∧ !err then .fault .illFormed
      else match (r.1.core c).load with
        | none => .next r.1
        | some l =>
          let l := { l with got := if err then l.got else setLines l.got off lines, missing := l.missing - 1, err := l.err || err }
          if l.missing = 0 then .next (r.1.loadEnds c l)
          else .next (r.1.setCore c { r.1.core c with load := some l })
    | _ => .next s

/-- A write of SKRY.IMEM_CMD with OP LOAD (R235). -/
def State.imemLoad (s : State) (c : BitVec 4) : State :=
  let co := s.core c
  let bytes := s.num (rSKRY c 0x58) 0 16
  let cmd := s.rd (rSKRY c 0x4C)
  let key : ProgKey := ⟨cmd.extractLsb' 0 6, s.addrPair (rSKRY c 0x50) 6, bytes⟩
  if bytes < 64 ∨ 32768 < bytes ∨ bytes % 64 ≠ 0 then s.imemEnd c 3
  else if co.pins (~~~co.active) ≠ 0 ∨ co.load.isSome then
    ((s.raise { ev (pSKRY c) 0x2C 1 with part := some (key.part.extractLsb' 0 4) }).setErr (pSKRY c) 16).imemEnd c 1
  else if !co.room key then s.imemEnd c 2
  else ((s.setBit (rSKRY c 0x4C) 27 true).setF (rSKRY c 0x4C) 20 (0#4)).startLoad c key (bit cmd 26) true

/-- A program lies in the reach of an INVAL (R236). -/
def invalHits (all : Bool) (part : BitVec 6) (addr : Addr) (bytes : Nat) (k : ProgKey) : Bool :=
  (all || decide (k.part = part)) &&
    (decide (bytes = 0) || (decide (k.addr.toNat < addr.toNat + bytes) && decide (addr.toNat < k.addr.toNat + k.len)))

/-- Clear VALID of the programs that a test picks, in both banks of every core and in loads (R234, R236, R238). -/
def State.dropProgs (s : State) (f : ProgKey → Bool) : State :=
  allCores.foldl (fun s c =>
    let co := s.core c
    let g := fun (b : Bank) => { b with progs := b.progs.map (fun p => if f p.key then { p with valid := false } else p) }
    s.setCore c { co with
      bankA := g co.bankA, bankB := g co.bankB
      load := co.load.map (fun l => if f l.key then { l with stale := true } else l) }) s

/-- A write of SKRY.IMEM_CMD with OP INVAL (R236). -/
def State.imemInval (s : State) (c : BitVec 4) : State :=
  let cmd := s.rd (rSKRY c 0x4C)
  let s := s.dropProgs (invalHits (bit cmd 25) (cmd.extractLsb' 0 6) (s.addrPair (rSKRY c 0x50) 6) (s.num (rSKRY c 0x58) 0 16))
  s.imemEnd c 0

end Sys2Proof.Machine
end

