-- ==== Sys2Proof/Machine/Shoal.lean ====
section
/-! DEFINITION. Shoal (spec/10_shoal_lookup_coalescing.md): index lists, windows, Lagoon, sealing, gathers and maps, table
directories. -/
namespace Sys2Proof.Machine

/-- Register addresses of the SHOL page (R364), and of its registers of partition p. -/
def rSHOL (off : Nat) : Nat := pageAddr pSHOL off
def rSHOLp (p : BitVec 4) (off : Nat) : Nat := pageAddr pSHOL (0x100 + 0x20 * p.toNat + off)

/-! ## Index lists (R337, R338) -/

/-- M of a lookup block with S segments and N indices. -/
def lkM (segs n : Nat) : Nat := 64 * ceilDiv (4 * (segs + n)) 64

/-- Words of the index store in use. -/
def State.idxUsed (s : State) : Nat := ((s.shoal.lookups.filter (·.asked)).map (fun l => l.segs + l.n)).foldl (· + ·) 0

/-- Change one lookup. -/
def State.updLookup (s : State) (k : EKey) (f : Lookup → Lookup) : State :=
  { s with shoal := { s.shoal with lookups := s.shoal.lookups.map (fun l => if l.e = k then f l else l) } }

/-- Read the index lists that wait for room, oldest first, while the store has room (R338). -/
def State.askLookups (s : State) : State :=
  (s.shoal.lookups.filter (fun l => !l.asked)).foldl (fun s l =>
    if s.idxUsed + l.segs + l.n ≤ 32768 then
      let n := lkM l.segs l.n / 64
      (s.updLookup l.e (fun l => { l with asked := true, missing := ceilDiv n 8, lines := List.replicate n 0 })).readLines l.blk n (.indexList l.e)
    else s) s

/-- The Ferry has relocated a lookup block: its index list is to be read (R338). -/
def State.addLookup (s : State) (k : EKey) (p : BitVec 4) (blk : Addr) (n segs : Nat) : State :=
  if s.shoal.lookups.any (fun l => decide (l.e = k)) then s
  else ({ s with shoal := { s.shoal with lookups := s.shoal.lookups ++ [Lookup.mk k p blk n segs [] false 0 false false] } }).askLookups

/-- INDEX_LIST_RETURN (R338). -/
def execIndexListReturn (mtag : BitVec 8) (gen : BitVec 4) (err : Bool) (lines : List Line) (s : State) : Host.Outcome State Fault Refusal :=
  let r := s.answer true mtag gen
  match r.2 with
  | none => .next r.1
  | some q => match q.why with
    | .indexList k off =>
      if lines.length * 64 ≠ q.len ∧ !err then .fault .illFormed
      else .next (r.1.updLookup k (fun l => { l with
        lines := if err then l.lines else setLines l.lines off lines, missing := l.missing - 1, err := l.err || err }))
    | _ => .next s

/-- Word i of an index list. -/
def Lookup.word (l : Lookup) (i : Nat) : Word := Line.w32 (l.lines.getD (i / 16) 0) (4 * (i % 16))

/-- COUNT and TABLE of the segments (R337). -/
def Lookup.segments (l : Lookup) : List (Nat × Nat) :=
  (List.range l.segs).map (fun i => let w := l.word i; ((w.extractLsb' 16 16).toNat, (w.extractLsb' 0 6).toNat))

/-- The indices as (table, row), in index-list order. -/
def Lookup.indices (l : Lookup) : List (Nat × Nat) :=
  let tables := l.segments.flatMap (fun s => List.replicate s.1 s.2)
  tables.mapIdx (fun i t => (t, (l.word (l.segs + i)).toNat))

/-! ## Tables (R339) -/

/-- A partition's directory copy. -/
def State.tblDir (s : State) (p : BitVec 4) : Option (List Line) := Tbl.get (fun _ => none) s.shoal.dirs p.toNat

/-- Table t of a partition. -/
def State.tblEntry (s : State) (p : BitVec 4) (t : Nat) : Line := ((s.tblDir p).getD []).getD t 0

/-- ROWS, ROW_BYTES, VALID and TDESC of a table entry. -/
def teRows (l : Line) : Nat := (Line.w32 l 8).toNat
def teRowBytes (l : Line) : Nat := ((Line.w32 l 0xC).extractLsb' 0 17).toNat
def teValid (l : Line) : Bool := bit (Line.w32 l 0x10) 31
def teDesc (l : Line) : BitVec 57 := (Line.w64 l 0).extractLsb' 0 57

/-- The shard of a row (R339). -/
def teShard (l : Line) (row : Nat) : Nat :=
  let j := min (row / 2 ^ ((Line.w32 l 0x10).extractLsb' 0 5).toNat) 63
  let b := Line.byte l (0x20 + j / 2)
  (if j % 2 = 0 then b.extractLsb' 0 4 else b.extractLsb' 4 4).toNat

/-- The port of a shard, when SHARD_PORT names one that the partition owns. -/
def State.shardPort (s : State) (p : BitVec 4) (sh : Nat) : Option Nat :=
  let b : Byte := (s.rd (rSHOL (0x400 + 0x10 * p.toNat + 4 * (sh / 4)))).extractLsb' (8 * (sh % 4)) 8
  let n := (b.extractLsb' 0 7).toNat
  if bit b 7 ∧ s.portIn p n then some n else none

/-! ## Windows (R342 to R349) -/

/-- A window by partition and number. -/
def State.win (s : State) (p : BitVec 4) (n : Nat) : Option Win := s.shoal.wins.find? (fun w => decide (w.part = p) && decide (w.num = n))

/-- Change a window. -/
def State.updWin (s : State) (p : BitVec 4) (n : Nat) (f : Win → Win) : State :=
  { s with shoal := { s.shoal with wins := s.shoal.wins.map (fun w => if w.part = p ∧ w.num = n then f w else w) } }

/-- The partition's open shared window (R342). -/
def State.openWin (s : State) (p : BitVec 4) : Option Win :=
  s.shoal.wins.find? (fun w => decide (w.part = p) && decide (w.st = .opened) && !w.alone)

/-- MAX_IDX, MAX_REQ and URGENT_CLOSE of a WIN_CFG word. -/
def cfgMaxIdx (w : Word) : Nat := (w.extractLsb' 0 14).toNat
def cfgMaxReq (w : Word) : Nat := (w.extractLsb' 16 8).toNat

/-- Indices admitted to a window. -/
def Win.indices (w : Win) : Nat := (w.members.map (fun m => m.idx.length)).foldl (· + ·) 0

/-- Bytes of a plan slot (R359). -/
def State.planBytes (s : State) (p : BitVec 4) : Nat := s.num (rSHOLp p 0x1C) 0 16 * 4096

/-- Close a window with a cause of R345: its epoch and class are fixed (R349, R354). -/
def State.closeWin (s : State) (p : BitVec 4) (n cause : Nat) : State :=
  let s := s.bump (rSHOL (0x60 + 4 * cause))
  let cur := s.cur p
  let s := s.updWin p n (fun w => { w with
    st := .sealing, epoch := cur, cls := w.members.foldl (fun c m => if classOf m.e.stream < c then classOf m.e.stream else c) 3 })
  { s with shoal := { s.shoal with sealQ := s.shoal.sealQ ++ [(p, n)] } }

/-- Close the partition's open shared window, if there is one. -/
def State.closeOpen (s : State) (p : BitVec 4) (cause : Nat) : State :=
  match s.openWin p with
  | some w => s.closeWin p w.num cause
  | none => s

/-- An advance of the partition is pending, an EPOCH_ADVANCE is held at stage 7, or a MODEL_SWITCH or a RELOAD is held or in
progress (R342, R348). -/
def State.winHeld (s : State) (p : BitVec 4) : Bool :=
  s.flag (rTIDE p 8) 31 || s.shoal.reads.any (fun r => decide (r.part = p) && r.cmd) ||
    s.allEntries.any (fun x => decide (x.2.part = p) && decide (x.2.stage = .point) &&
      ((decide (x.2.etype = .epochAdvance) && decide (x.2.pairDone = 1)) || (decide (x.2.etype = .modelSwitch) && decide (x.2.pairDone ≠ 0))))

/-- The lowest free plan slot (R342, R359). -/
def State.freePlan (s : State) (p : BitVec 4) : Option Nat :=
  (List.range (s.num (rSHOLp p 0x1C) 16 5)).find? (fun n => !s.shoal.wins.any (fun w => decide (w.part = p) && decide (w.slot = n)))

/-- Open a window (R342, R346), if one may be opened. -/
def State.openNew (s : State) (p : BitVec 4) (alone : Bool) : State × Option Nat :=
  match s.winHeld p, s.freePlan p with
  | false, some slot =>
    let n := Tbl.get (fun _ => 0) s.shoal.nextNum p.toNat
    let cfg := s.rd (rSHOLp p 4)
    let rw := 32 + ceilDiv (cfgMaxIdx cfg) 2 + ceilDiv (cfgMaxIdx cfg) 4
    let t := s.nowFine + s.num (rSHOLp p 0) 0 24 * 65536 - rw * 65536000 / s.cclkMhz
    let w : Win := ⟨p, n, slot, alone, .opened, cfg, t, [], 0, 0, 0, [], []⟩
    ({ s with shoal := { s.shoal with wins := s.shoal.wins ++ [w], nextNum := Tbl.set (fun _ => 0) s.shoal.nextNum p.toNat (n + 1) } }, some n)
  | _, _ => (s, none)

/-- Admit a launch to a window (R342, R343). -/
def State.join (s : State) (k : EKey) (p : BitVec 4) (n : Nat) (idx : List (Nat × Nat)) (worst : Nat) : State :=
  let s := s.updWin p n (fun w => { w with members := w.members ++ [⟨k, idx, [], 0, 0⟩], worst := w.worst + worst })
  let s := s.updEntry k (fun e => { e with window := some n })
  { s with shoal := { s.shoal with intake := s.shoal.intake ++ [(p, n, k)] } }

/-- Admit to a shared window and close it when the launch is its last or urgent (R345). -/
def State.joinShared (s : State) (k : EKey) (p : BitVec 4) (n : Nat) (idx : List (Nat × Nat)) (worst : Nat) : State :=
  let s := s.join k p n idx worst
  match s.win p n with
  | none => s
  | some w =>
    if cfgMaxReq w.cfg ≤ w.members.length then s.closeWin p n 2
    else if classOf k.stream = 0#2 ∧ bit w.cfg 30 then s.closeWin p n 4
    else s

/-- A Shoal failure of a whole launch (R341, R361): the event on the SHOL page, with the index position where R341 asks for it, and
status CB_FAULT. -/
def State.shoalFail (s : State) (k : EKey) (code : Nat) (index : Option Nat) : State :=
  match s.entry k with
  | none => s
  | some e => (s.raise { (ev pSHOL code 1).ofEntry k e with index := index }).refuseLaunch k ⟨4, BitVec.ofNat 8 code, 0⟩

/-- Worst-case rows of a launch (R345). -/
def State.worstOf (s : State) (p : BitVec 4) (idx : List (Nat × Nat)) : Nat :=
  (idx.map (fun x => teRowBytes (s.tblEntry p x.1))).foldl (· + ·) 0

/-- A table cannot be looked up (R341, BAD_TABLE). -/
def State.badTable (s : State) (p : BitVec 4) (t : Nat) : Bool :=
  decide (s.num (rSHOLp p 0x10) 0 7 ≤ t) || !teValid (s.tblEntry p t)

/-- The checks of R341, in order: the code of the first failure, and the position of the first index that fails it; that of a bad
table is the first of its segment (DEDUCED, log entry 46). -/
def State.lkCheck (s : State) (p : BitVec 4) (l : Lookup) : Option (Nat × Option Nat) :=
  let segs := l.segments
  let idx := l.indices
  let noRow := fun (x : Nat × Nat) => decide (teRows (s.tblEntry p x.1) ≤ x.2)
  let noShard := fun (x : Nat × Nat) => (s.shardPort p (teShard (s.tblEntry p x.1) x.2)).isNone
  if l.err then some (0x38, none)
  else if !s.flag (rSHOLp p 0x14) 0 ∨ (s.tblDir p).isNone then some (0x34, none)
  else if segs.any (fun x => decide (x.1 = 0)) ∨ (segs.map (·.1)).foldl (· + ·) 0 ≠ l.n then some (0x32, none)
  else if segs.any (fun x => s.badTable p x.2) then some (0x30, idx.findIdx? (fun x => s.badTable p x.1))
  else if idx.any noRow then some (0x31, idx.findIdx? noRow)
  else if idx.any noShard then some (0x35, idx.findIdx? noShard)
  else if cfgMaxIdx (s.rd (rSHOLp p 4)) < l.n ∨ s.planBytes p < s.worstOf p idx then some (0x33, none)
  else none

/-- Another launch of the partition waits at stage 7 to open a window and is served before `k`: its class is lower, or the same and
its index list was taken earlier (R342, R201). -/
def State.windowOutranked (s : State) (p : BitVec 4) (k : EKey) : Bool :=
  let older := s.shoal.lookups.takeWhile (fun l => decide (l.e ≠ k))
  s.shoal.lookups.any (fun x => x.waits && decide (x.part = p) && decide (x.e ≠ k) &&
    (match s.entry x.e with
      | some e => decide (e.stage = .shoal) && e.window.isNone
      | none => false) &&
    (decide ((classOf x.e.stream).toNat < (classOf k.stream).toNat) ||
      (decide (classOf x.e.stream = classOf k.stream) && older.any (fun l => decide (l.e = x.e)))))

/-- A launch that has passed R341 joins or opens a window, or waits (R342, R345). -/
def State.admitLookup (s : State) (k : EKey) (p : BitVec 4) (l : Lookup) : State :=
  let idx := l.indices
  let worst := s.worstOf p idx
  let f := (funcOf k.stream).toNat
  let alone := !s.flag (rSHOLp p 4) 31 || s.flag (rSHOL (0xA00 + 4 * (f / 32))) (f % 32)
  let fresh := fun (s : State) =>
    if s.windowOutranked p k then s.updLookup k (fun l => { l with waits := true }) else
    match s.openNew p alone with
    | (s, none) => s.updLookup k (fun l => { l with waits := true })
    | (s, some n) => if alone then (s.join k p n idx worst).closeWin p n 7 else s.joinShared k p n idx worst
  if alone then fresh s
  else match s.openWin p with
    | none => fresh s
    | some w =>
      if cfgMaxIdx w.cfg < w.indices + l.n then fresh (s.closeWin p w.num 1)
      else if s.planBytes p < w.worst + worst then fresh (s.closeWin p w.num 3)
      else s.joinShared k p w.num idx worst

/-- LOOKUP_ADMIT (R341, R342): the lookup launch at the head of a stream is at stage 7. -/
def execLookupAdmit (stream : BitVec 14) (s : State) : Host.Outcome State Fault Refusal :=
  match (s.stream stream).head with
  | none => .next s
  | some q =>
    let k : EKey := ⟨stream, q⟩
    match s.entry k, s.shoal.lookups.find? (fun l => decide (l.e = k)) with
    | some e, some l =>
      if e.stage ≠ .shoal ∨ e.window.isSome then .next s
      else if !l.asked then .next s.askLookups
      else if l.missing ≠ 0 ∨ s.shoal.reads.any (fun r => decide (r.part = e.part) && r.cmd) then .next s
      else match s.lkCheck e.part l with
        | some (code, index) => .next (((s.bump (rSHOL 0x58)).setErr pSHOL 20).shoalFail k code index)
        | none => .next (s.admitLookup k e.part l)
    | _, _ => .next s

/-- WINDOW_TIMER (R346): the partition's open shared window has reached t_close. -/
def execWindowTimer (p : BitVec 4) (s : State) : Host.Outcome State Fault Refusal :=
  match s.openWin p with
  | some w => if w.tClose ≤ s.nowFine then .next (s.closeWin p w.num 0) else .next s
  | none => .next s

/-! ## Lagoon (R344) -/

/-- The set of a key. -/
def lagoonSet (slot : Nat) (p : BitVec 4) (t row : Nat) : Nat :=
  (mix64 (BitVec.ofNat 64 (slot * 2 ^ 42 + p.toNat * 2 ^ 38 + t * 2 ^ 32 + row))).toNat % 16384

/-- A Lagoon way is allocated. -/
def State.wayUsed (s : State) (way : Nat) : Bool := s.shoal.wins.any (fun w => w.rows.any (fun r => decide (r.way = some way)))

/-- Lagoon ways allocated (SHOL.LAGOON_USED). -/
def State.waysUsed (s : State) : Nat := (s.shoal.wins.map (fun w => (w.rows.filter (fun r => r.way.isSome)).length)).foldl (· + ·) 0

/-- Change a member of a window. -/
def Win.updMember (w : Win) (k : EKey) (f : Member → Member) : Win :=
  { w with members := w.members.map (fun m => if m.e = k then f m else m) }

/-- Insert one index of the window's launch k (R344). -/
def State.insertIdx (s : State) (w : Win) (k : EKey) (t row : Nat) : State :=
  let s := s.bump (rSHOL 0x40)
  let set := lagoonSet w.slot w.part t row
  let pos := (w.members.map (fun m => m.asn.length)).foldl (· + ·) 0
  match w.rows.findIdx? (fun r => r.way.isSome && decide (r.table = t) && decide (r.row = row)) with
  | some i => s.updWin w.part w.num (fun w => w.updMember k (fun m => { m with asn := m.asn ++ [i] }))
  | none =>
    let sh := teShard (s.tblEntry w.part t) row
    let way := ((List.range 4).map (fun i => 4 * set + i)).find? (fun x => !s.wayUsed x)
    let s := if way.isNone then s.bump (rSHOL 0x48) else s
    s.updWin w.part w.num (fun w => { w.updMember k (fun m => { m with
      asn := m.asn ++ [w.rows.length], pass := m.pass + (if way.isNone then 1 else 0) }) with
      rows := w.rows ++ [⟨sh, t, row, pos, way, 0, 0⟩] })

/-- One insertion of the intake pipe (R343). -/
def State.intakeOne (s : State) : State :=
  match s.shoal.intake with
  | [] => s
  | (p, n, k) :: rest =>
    let pop := fun (s : State) => { s with shoal := { s.shoal with intake := rest } }
    match s.win p n with
    | none => pop s
    | some w => match w.members.find? (fun m => decide (m.e = k)) with
      | none => pop s
      | some m => match m.idx[m.asn.length]? with
        | none => pop s
        | some x =>
          let s := s.insertIdx w k x.1 x.2
          if m.asn.length + 1 = m.idx.length then pop s else s

/-- INDEX_INSERT (R343): two indices per CCLK. -/
def execIndexInsert (s : State) : Host.Outcome State Fault Refusal := .next s.intakeOne.intakeOne

/-! ## Sealing (R350 to R356) -/

/-- Order of gather entries (R350). -/
def GRow.before (x y : GRow) : Bool :=
  if x.shard ≠ y.shard then decide (x.shard < y.shard)
  else if x.table ≠ y.table then decide (x.table < y.table)
  else if x.row ≠ y.row then decide (x.row < y.row)
  else decide (x.pos < y.pos)

/-- Put an entry at its place in a sorted list. -/
def insertRow (x : Nat × GRow) : List (Nat × GRow) → List (Nat × GRow)
  | [] => [x]
  | y :: ys => if x.2.before y.2 then x :: y :: ys else y :: insertRow x ys

/-- The bytes of a token (R352). -/
def tokenBytes (v : Nat) : List Byte :=
  let n := if v < 2 ^ 7 then 1 else if v < 2 ^ 14 then 2 else if v < 2 ^ 21 then 3 else if v < 2 ^ 28 then 4 else 5
  (List.range n).map (fun i => BitVec.ofNat 8 (v / 2 ^ (7 * i) % 128 + (if i + 1 < n then 128 else 0)))

/-- A gather command being filled (R353): entries by index, its shard and table, the last row, its tokens. -/
structure GCmd where
  rows : List Nat
  shard : Nat
  table : Nat
  last : Nat
  bytes : List Byte
  loc : Nat
deriving DecidableEq, Repr

/-- Cut the sorted entries into commands (R353); the list is latest first. -/
def cutGathers (rows : List (Nat × GRow)) : List GCmd :=
  rows.foldl (fun acc x =>
    let r := x.2
    let fresh : GCmd := ⟨[x.1], r.shard, r.table, r.row, tokenBytes r.row, r.loc⟩
    match acc with
    | c :: rest =>
      let tk := tokenBytes (r.row - c.last)
      if c.shard = r.shard ∧ c.table = r.table ∧ c.rows.length < 12 ∧ c.bytes.length + tk.length ≤ 12 then
        { c with rows := c.rows ++ [x.1], last := r.row, bytes := c.bytes ++ tk } :: rest
      else fresh :: acc
    | [] => [fresh]) []

/-- The body of a gather command (R353). -/
def gatherBody (c : GCmd) (lastOfShard : Bool) (dest : Addr) (tdesc : Addr) : List Dword :=
  let stream : BitVec 96 := c.bytes.reverse.foldl (fun a b => (a <<< 8) ||| b.setWidth 96) 0
  let h : Word := BitVec.ofNat 8 (if lastOfShard then 1 else 0) ++ BitVec.ofNat 8 c.bytes.length ++ BitVec.ofNat 8 c.rows.length ++ 0x47#8
  [stream.extractLsb' 0 32 ++ h, stream.extractLsb' 32 64, dest.setWidth 64, tdesc.setWidth 64]

/-- Address of a plan slot (R359). -/
def State.rowBase (s : State) (w : Win) : Addr :=
  s.addrPair (rSHOLp w.part 0x14) 12 + BitVec.ofNat 57 (w.slot * s.planBytes w.part)

/-- A launch of a window is released to stage 8 (R357): it waits there from now on, so that launches released together start in the
order of R201. -/
def State.releaseMember (s : State) (m : Member) : State :=
  match s.entry m.e with
  | some e => if e.stage = .shoal ∧ m.acks = 0 then (s.updEntry m.e (fun e => { e with stage := .place })).wait8 m.e else s
  | none => s

/-- Every gather of a window has reported: its launches are released as their maps are acknowledged (R357, R360). -/
def State.gathersOver (s : State) (p : BitVec 4) (n : Nat) : State :=
  match s.win p n with
  | some w =>
    if w.st = .gathering ∧ w.left.isEmpty then
      let s := s.updWin p n (fun w => { w with st := .releasing })
      w.members.foldl State.releaseMember s
    else s
  | none => s

/-- The command is a gather of the partition. -/
def CmdWho.gathers (w : CmdWho) (p : BitVec 4) : Bool := match w with | .gather q _ _ => decide (q = p) | .op _ _ => false

/-- A closed window of the partition is not sealed, or one of its gather commands has not reported (R340). -/
def State.gathering (s : State) (p : BitVec 4) : Bool :=
  s.shoal.wins.any (fun w => decide (w.part = p) && (decide (w.st = .sealing) || decide (w.st = .gathering))) ||
    s.disp.cands.any (fun c => c.who.gathers p) || s.disp.cmds.any (fun c => c.who.gathers p)

/-- Start the directory read of a partition once no sealed window's gathers are outstanding (R340). -/
def State.tblStart (s : State) (p : BitVec 4) : State :=
  if s.gathering p then s
  else match s.shoal.reads.find? (fun r => decide (r.part = p) && !r.started) with
    | none => s
    | some r =>
      let n := s.num (rSHOLp p 0x10) 0 7
      if n = 0 then
        let s := { s with shoal := { s.shoal with
          reads := s.shoal.reads.erase r, dirs := Tbl.set (fun _ => none) s.shoal.dirs p.toNat (some []) } }
        if r.cmd then (s.setBit (rSHOL 0x88) 27 false).setF (rSHOL 0x88) 20 (0#4) else s
      else
        let r' := { r with started := true, lines := List.replicate n 0, missing := ceilDiv n 8 }
        let s := { s with shoal := { s.shoal with reads := s.shoal.reads.map (fun x => if x = r then r' else x) } }
        s.readLines (s.addrPair (rSHOLp p 8) 12) n (.tableDir p)

/-- A gather command has reported, or will never report (R357, R361): with an error, every launch that uses one of its
entries fails. -/
def State.gatherDone (s : State) (p : BitVec 4) (n cmd : Nat) (err : Bool) : State :=
  match s.win p n with
  | none => s.tblStart p
  | some w =>
    let s := s.updWin p n (fun w => { w with left := w.left.erase cmd })
    let hit := w.members.filter (fun m => m.asn.any (fun i => match w.rows[i]? with | some r => decide (r.cmd = cmd) | none => false))
    let s := if err then hit.foldl (fun s m => match s.entry m.e with
        | some e => if e.stage = .shoal then ((s.bump (rSHOL 0x54)).setErr pSHOL 19).shoalFail m.e 0x36 none else s
        | none => s) s else s
    (s.gathersOver p n).tblStart p

/-- A gather command becomes a candidate (R351, R354); on a port out of service it fails as an operation would (R512). -/
def State.gatherCand (s : State) (w : Win) (n port : Nat) (body : List Dword) : State :=
  let k := ((w.members.head?).map (·.e)).getD ⟨0, 0⟩
  let pt := Tbl.get (fun _ => Port.reset) s.ports port
  let s := s.bump (rSHOL 0x50)
  if pt.st = .inService ∨ pt.st = .draining then
    let h0 : Dword := 0#1 ++ 0#1 ++ 0#13 ++ 0#24 ++ 0#2 ++ w.part ++ 0x47#7 ++ w.cls ++ 0#10
    let c : Cand := ⟨.gather w.part w.num n, port, w.cls, w.part, funcOf k.stream, s.cclk + 1, 0,
      [h0, 0#8 ++ 0#8 ++ w.epoch, ((s.entry k).map (·.seqNo)).getD 0, 0], body⟩
    { s with disp := { s.disp with cands := s.disp.cands ++ [c] } }
  else s

/-- The map of one launch (R337, R356): its header line, then the copied segment words and the location words. -/
def mapLines (w : Win) (m : Member) (l : Lookup) (base : Addr) : List Line :=
  let hdr := Line.put (Line.put (Line.put (Line.put (Line.put (0 : Line) 0 (base.setWidth 64)) 8 (BitVec.ofNat 64 w.num)) 0x10 (w.epoch.setWidth 64))
    0x18 (BitVec.ofNat 32 w.rows.length)) 0x1C ((0#7 ++ ofBool w.alone ++ BitVec.ofNat 8 w.members.length).setWidth 32)
  let hdr := Line.put hdr 0x20 (BitVec.ofNat 32 m.pass)
  let words := (List.range l.segs).map l.word ++ m.asn.map (fun i => BitVec.ofNat 32 (((w.rows[i]?).map (·.loc)).getD 0))
  let body := (List.range (lkM l.segs l.n / 64)).map (fun i =>
    ((words.drop (16 * i)).take 16).reverse.foldl (fun (a : Line) x => (a <<< 32) ||| x.setWidth 512) (0 : Line))
  hdr :: body

/-- Write one launch's map (R356). -/
def State.writeMap (s : State) (w : Win) (m : Member) : State :=
  match s.shoal.lookups.find? (fun l => decide (l.e = m.e)) with
  | none => s
  | some l =>
    let ls := mapLines w m l (s.rowBase w)
    let s := s.updWin w.part w.num (fun w => w.updMember m.e (fun m => { m with acks := ceilDiv ls.length 8 }))
    s.writeLines (l.blk + BitVec.ofNat 57 (lkM l.segs l.n)) ls (.mapWrite m.e)

/-- Seal a window of which every index is inserted (R350 to R356). -/
def State.sealWin (s : State) (w : Win) : State :=
  let p := w.part
  let sorted := (w.rows.mapIdx (fun i r => (i, r))).foldr insertRow []
  let placed := (sorted.foldl (fun (a : List (Nat × GRow) × Nat) x =>
    (a.1 ++ [(x.1, { x.2 with loc := a.2 })], a.2 + teRowBytes (s.tblEntry p x.2.table) / 64)) ([], 0)).1
  let cmds := (cutGathers placed).reverse
  let rows := w.rows.mapIdx (fun i r => { r with
    loc := ((placed.find? (fun x => x.1 = i)).map (·.2.loc)).getD 0
    cmd := (cmds.findIdx? (fun c => c.rows.contains i)).getD 0, way := none })
  let s := (s.wr (rSHOL 0x44) (satAdd (s.rd (rSHOL 0x44)) rows.length)).bump (rSHOL 0x4C)
  let w' := { w with rows := rows, st := .gathering, left := List.range cmds.length }
  let s := s.updWin p w.num (fun _ => w')
  let base := s.rowBase w
  let ports := cmds.map (fun c => (s.shardPort p c.shard).getD 0)
  let s := (cmds.mapIdx (fun i c => (i, c))).foldl (fun s x =>
    let lastOf := !(cmds.drop (x.1 + 1)).any (fun c => decide (c.shard = x.2.shard))
    s.gatherCand w' x.1 (ports.getD x.1 0)
      (gatherBody x.2 lastOf (base + BitVec.ofNat 57 (64 * x.2.loc)) (teDesc (s.tblEntry p x.2.table)))) s
  let s := w'.members.foldl (fun s m => s.writeMap w' m) s
  let s := { s with shoal := { s.shoal with
    sealQ := s.shoal.sealQ.erase (p, w.num), lookups := s.shoal.lookups.filter (fun l => !w.members.any (fun m => decide (m.e = l.e))) } }
  let dead := (ports.mapIdx (fun i n => (i, n))).filter (fun x =>
    let st := (Tbl.get (fun _ => Port.reset) s.ports x.2).st
    decide (st ≠ .inService) && decide (st ≠ .draining))
  (dead.foldl (fun s x => s.gatherDone p w.num x.1 true) s).askLookups

/-- WINDOW_SEAL (R350): the seal pipe serves the window that closed first. -/
def execWindowSeal (s : State) : Host.Outcome State Fault Refusal :=
  match s.shoal.sealQ with
  | [] => .next s
  | (p, n) :: rest => match s.win p n with
    | none => .next ({ s with shoal := { s.shoal with sealQ := rest } }.tblStart p)
    | some w => if w.members.all (fun m => decide (m.asn.length = m.idx.length)) then .next (s.sealWin w) else .next s

/-- MAP_WRITE_ACK (R357, R361). -/
def execMapWriteAck (mtag : BitVec 8) (gen : BitVec 4) (err : Bool) (s : State) : Host.Outcome State Fault Refusal :=
  let r := s.answer false mtag gen
  match r.2 with
  | none => .next r.1
  | some q => match q.why with
    | .mapWrite k =>
      match r.1.shoal.wins.find? (fun w => w.members.any (fun m => decide (m.e = k))) with
      | none => .next r.1
      | some w =>
        let s := r.1.updWin w.part w.num (fun w => w.updMember k (fun m => { m with acks := m.acks - 1 }))
        let waits : Bool := match s.entry k with | some e => decide (e.stage = .shoal) | none => false
        if err ∧ waits then .next (s.shoalFail k 0x37 none)
        else match s.win w.part w.num with
          | some w => if w.st = .releasing then
              .next ((w.members.filter (fun m => decide (m.e = k))).foldl State.releaseMember s) else .next s
          | none => .next s
    | _ => .next s

/-! ## Table directories (R340, R364) -/

/-- Ask for a partition's directory. -/
def State.tblRead (s : State) (p : BitVec 4) (cmd : Bool) : State :=
  ({ s with shoal := { s.shoal with reads := s.shoal.reads ++ [TblRead.mk p cmd false [] 0 false] } }).tblStart p

/-- A write of SHOL.TBL_CMD with OP RELOAD (R340, R364). -/
def State.reload (s : State) : State :=
  let p : BitVec 4 := s.fld (rSHOL 0x88) 0 4
  if !s.partEn p then s.setF (rSHOL 0x88) 20 (1#4)
  else ((((s.setBit (rSHOL 0x88) 27 true).setF (rSHOL 0x88) 20 (0#4)).closeOpen p 5).tblRead p true)

/-- A table entry that RELOAD refuses (R364). -/
def teBad (l : Line) : Bool :=
  teValid l && (decide (teRowBytes l < 64) || decide (65536 < teRowBytes l) || decide (teRowBytes l % 64 ≠ 0) ||
    decide ((teDesc l).extractLsb' 0 6 ≠ 0#6))

/-- RELOAD_DONE (R340): lines of a table directory return; the last ones end the read. -/
def execReloadDone (mtag : BitVec 8) (gen : BitVec 4) (err : Bool) (lines : List Line) (s : State) : Host.Outcome State Fault Refusal :=
  let q := s.answer true mtag gen
  match q.2 with
  | none => .next q.1
  | some m => match m.why with
    | .tableDir p off =>
      if lines.length * 64 ≠ m.len ∧ !err then .fault .illFormed
      else match q.1.shoal.reads.find? (fun r => decide (r.part = p) && r.started) with
        | none => .next q.1
        | some r =>
          let r' := { r with lines := if err then r.lines else setLines r.lines off lines, missing := r.missing - 1, err := r.err || err }
          if r'.missing ≠ 0 then
            .next { q.1 with shoal := { q.1.shoal with reads := q.1.shoal.reads.map (fun x => if x = r then r' else x) } }
          else
            let s := { q.1 with shoal := { q.1.shoal with reads := q.1.shoal.reads.erase r } }
            let code : BitVec 4 := if r'.err then 2 else if r'.lines.any teBad then 3 else 0
            let s := if code = 0#4 then
                { s with shoal := { s.shoal with dirs := Tbl.set (fun _ => none) s.shoal.dirs p.toNat (some r'.lines) } } else s
            let s := if r.cmd then (s.setBit (rSHOL 0x88) 27 false).setF (rSHOL 0x88) 20 code else s
            .next (s.tblStart p)
    | _ => .next s

/-- A write of WIN_TIME or WIN_CFG would make W smaller than R_w + 64 CCLK (R347). -/
def State.winTooShort (s : State) (time cfg : Word) : Bool :=
  decide ((time.extractLsb' 0 24).toNat * s.cclkMhz < (32 + ceilDiv (cfgMaxIdx cfg) 2 + ceilDiv (cfgMaxIdx cfg) 4 + 64) * 1000)

end Sys2Proof.Machine
end

