-- ==== Sys2Proof/Machine/Harbour.lean ====
section
/-! DEFINITION. Harbour (spec/03_tenancy_objects.md R73 to R93): slots, eviction, write-back, changes to non-resident
contexts, and the context commands. -/
namespace Sys2Proof.Machine

/-! ## Slots (R88 to R93) -/

/-- Slots a partition holds (PART.HARB_QUOTA.RESIDENT). -/
def State.resident (s : State) (p : BitVec 4) : Nat :=
  ((List.range 64).filter (fun k => decide ((s.slot k).st ≠ .free) && decide ((s.slot k).part = p))).length

/-- PART.HARB_QUOTA.MIN. -/
def State.quotaMin (s : State) (p : BitVec 4) : Nat := s.num (rPART p 0x4C) 0 7

/-- eligible of R91. -/
def State.eligible (s : State) (p : BitVec 4) (k : Nat) : Bool :=
  let sl := s.slot k
  decide (sl.st = .idle) && (decide (sl.part = p) || decide (s.quotaMin sl.part < s.resident sl.part))

/-- An event on the HARB page for a context (R630). -/
def State.ctxRecErr (s : State) (p : BitVec 4) (ctx : BitVec 16) (grave : Bool) : State :=
  s.raise { ev pHARB 0x02 (if grave then 4 else 1) with part := some p, ctx := some (ctx.setWidth 24) }

/-- A lost change to this line 0x40 would be grave (R630). -/
def recGrave (l : Line) : Bool := bit l 1 || bit l 2

/-- Write staged lines to the record (R75). -/
def State.writeStaged (s : State) (x : Staged) : State :=
  let a := s.ctxAddr x.part x.ctx + 0x40
  let g := recGrave (x.lines.getD 1 0)
  if x.full then s.write a 192 (x.lines.drop 1) (.ctxWb x.part x.ctx 1 g)
  else s.write a 64 [x.lines.getD 1 0] (.ctxWb x.part x.ctx 1 g)

/-- Stage line 0x40 of a context's record: a pending memory write that every later reader of the record sees (R85, R93). A line
staged before is replaced, and written again once its write is acknowledged. -/
def State.stageLine1 (s : State) (p : BitVec 4) (ctx : BitVec 16) (l : Line) : State :=
  let hit := fun (x : Staged) => decide (x.part = p) && decide (x.ctx = ctx)
  if s.harb.staged.any hit then
    { s with harb := { s.harb with staged := s.harb.staged.map (fun x => if hit x then { x with lines := x.lines.set 1 l, again := true } else x) } }
  else
    let x : Staged := ⟨p, ctx, [0, l, 0, 0], false, false, 1⟩
    ({ s with harb := { s.harb with staged := s.harb.staged ++ [x] } }).writeStaged x

/-- Merge lines 0x40 up of a record that a command writes into its staged copy, if it has one (R93). -/
def State.mergeStaged (s : State) (p : BitVec 4) (ctx : BitVec 16) (lines : List Line) : State :=
  let hit := fun (x : Staged) => decide (x.part = p) && decide (x.ctx = ctx)
  { s with harb := { s.harb with staged := s.harb.staged.map (fun x =>
      if hit x then { x with lines := setLines x.lines 1 lines, again := true, full := x.full || decide (lines.length = 3) } else x) } }

/-- Stage lines of a context for write-back; lines staged before are replaced (R93). -/
def State.stage (s : State) (p : BitVec 4) (ctx : BitVec 16) (lines : List Line) (full : Bool) : State :=
  match s.harb.staged.find? (fun x => decide (x.part = p) && decide (x.ctx = ctx)) with
  | some x =>
    let x' : Staged := { x with lines := lines, full := full || x.full, again := true }
    { s with harb := { s.harb with staged := s.harb.staged.map (fun y => if y = x then x' else y) } }
  | none =>
    let x : Staged := ⟨p, ctx, lines, full, false, 1⟩
    ({ s with harb := { s.harb with staged := s.harb.staged ++ [x] } }).writeStaged x

/-- Handle reads of a slot that were issued before an invalidation bring entries that may be old: they are not cached (R99). -/
def staleHandle : Nat := 0x1000000

/-- Mark the outstanding handle reads of a slot that a test picks as stale. -/
def State.staleHandles (s : State) (k : Nat) (f : Nat → Bool) : State :=
  { s with mmp := s.mmp.map (fun r => match r.why with
    | .handle n i => if n = k ∧ i < staleHandle ∧ f i then { r with why := .handle n (i + staleHandle) } else r
    | _ => r) }

/-- Free a slot (R89); its contents stay in the debug view (R88). What is still being read for its handle cache is not wanted. -/
def State.freeSlot (s : State) (k : Nat) : State :=
  let s := (s.staleHandles k (fun _ => true)).setSlot k { s.slot k with st := .free, geomWait := false, missing := 0 }
  let leave := fun (e : Entry) => if e.slot = some k then { e with slot := none } else e
  { s with
    harb := { s.harb with lru := s.harb.lru.filter (· ≠ k) }
    entries := Tbl.remap (fun _ => none) (fun x => x.map leave) s.entries }

/-- Evict a slot: its Swisto-owned lines are staged (R89). -/
def State.evict (s : State) (k : Nat) : State :=
  let sl := s.slot k
  (s.stage sl.part sl.ctx sl.recLines true).freeSlot k

/-- Load a context into a free slot (R89, R93). -/
def State.loadSlot (s : State) (k : Nat) (p : BitVec 4) (ctx : BitVec 16) : State :=
  match s.harb.staged.find? (fun x => decide (x.part = p) && decide (x.ctx = ctx) && x.full) with
  | some x => (s.setSlot k ⟨.loading, p, ctx, x.lines, [], false, 1⟩).read (s.ctxAddr p ctx) 1 (.ctxLoad k)
  | none => (s.setSlot k ⟨.loading, p, ctx, [0, 0, 0, 0], [], false, 4⟩).read (s.ctxAddr p ctx) 4 (.ctxLoad k)

/-- A slot that a context may be given: a free one, or the eligible one idle longest (R91). -/
def State.findSlot (s : State) (p : BitVec 4) : Option Nat :=
  match (List.range 64).find? (fun k => decide ((s.slot k).st = .free)) with
  | some k => some k
  | none => s.harb.lru.find? (fun k => s.eligible p k)

/-- A partition's context command. -/
def State.ctxCmd (s : State) (p : BitVec 4) : Option CtxCmd := Tbl.get (fun _ => none) s.harb.cmds p.toNat

/-- Set a partition's context command. -/
def State.setCtxCmd (s : State) (p : BitVec 4) (c : Option CtxCmd) : State :=
  { s with harb := { s.harb with cmds := Tbl.set (fun _ => none) s.harb.cmds p.toNat c } }

/-- The entry's context is being destroyed: DESTROY has marked it (R85), so a launch that has no slot of it completes CTX_LOST
when it is reached (R80). -/
def State.destroying (s : State) (e : Entry) : Bool :=
  match s.ctxCmd e.part with
  | some c => decide (c.op = 2) && (decide (c.step = 1) || decide (c.step = 2)) && decide (e.ctx = c.ctx.setWidth 24)
  | none => false

/-- Take a slot for a launch that needs its context: the resident one, or a load (R89 to R91). None: it must queue. -/
def State.takeCtx (s : State) (k : EKey) (p : BitVec 4) (ctx : BitVec 16) : Option State :=
  let use := fun (s : State) (n : Nat) => s.updEntry k (fun e => { e with slot := some n })
  match s.slotOf p ctx with
  | some n =>
    let s := if (s.slot n).st = .idle then
        { s.setSlot n { s.slot n with st := .busy } with harb := { (s.setSlot n { s.slot n with st := .busy }).harb with lru := s.harb.lru.filter (· ≠ n) } }
      else s
    some (use s n)
  | none => match s.findSlot p with
    | none => none
    | some n =>
      let s := if (s.slot n).st = .free then s else s.evict n
      some (use (s.loadSlot n p ctx) n)

/-- A launch enters the Harbour queue (R91, R182, R189): its channel lets the stream go and its units go to the park slot. A
launch whose lines are expanded keeps them in the store. -/
def State.enqueueHarb (s : State) (k : EKey) : State :=
  match s.entry k with
  | none => s
  | some e =>
    if !s.parkValid then s.cbFault k 0x09
    else
      let s := ({ s with harb := { s.harb with queue := s.harb.queue ++ [k] } }).updStream k.stream (fun x => { x with harbQ := true })
      if e.prepared then s.updEntry k (fun e => { e with stage := .harbQueue })
      else
        let s := s.updEntry k (fun e => { e with stage := .harbQueue, parkAcks := 1, inPark := true })
        (s.writeLines (s.parkAddr k.stream) e.units (.park k)).freeChan k.stream

/-! ## Changes to non-resident contexts (R75, R630) -/

/-- Make a change in line 0x40; whether a loss was counted by it is the second part (R81). -/
def CtxChange.apply (c : CtxChange) (l : Line) : Line × Bool :=
  match c with
  | .lose r t st => (recLose l r t st, !recLost l)
  | .destroyed => ((l &&& ~~~1#512) ||| 4#512, false)
  | .genInc => (Line.put l 4 (Line.w32 l 4 + 1), false)
  | .relocInc => (Line.put l 0x1C (satAdd (Line.w32 l 0x1C) 1), false)

/-- Make every change that waits for a context, in order. -/
def State.applyChanges (s : State) (p : BitVec 4) (ctx : BitVec 16) (l : Line) : State × Line :=
  let mine := s.harb.changes.filter (fun x => decide (x.1 = p) && decide (x.2.1 = ctx))
  let s := { s with harb := { s.harb with changes := s.harb.changes.filter (fun x => !(decide (x.1 = p) && decide (x.2.1 = ctx))) } }
  mine.foldl (fun a x =>
    let r := x.2.2.apply a.2
    (if r.2 then a.1.bump (rPART p 0x88) else a.1, r.1)) (s, l)

/-- CTX_RECORD_ACCESS_DONE (R75, R93, R630). -/
def execCtxRecordAccessDone (write : Bool) (mtag : BitVec 8) (gen : BitVec 4) (err : Bool) (lines : List Line) (s : State) :
    Host.Outcome State Fault Refusal :=
  let r := s.answer (!write) mtag gen
  match r.2 with
  | none => .next r.1
  | some q => match q.why with
    | .ctxWb p ctx _ grave =>
      let s := if err then r.1.ctxRecErr p ctx grave else r.1
      match s.harb.staged.find? (fun x => decide (x.part = p) && decide (x.ctx = ctx)) with
      | none => .next s
      | some x =>
        if x.again then
          let x' := { x with again := false }
          .next (({ s with harb := { s.harb with staged := s.harb.staged.map (fun y => if y = x then x' else y) } }).writeStaged x')
        else .next { s with harb := { s.harb with staged := s.harb.staged.erase x } }
    | .ctxMod p ctx =>
      let s := r.1
      let mine := s.harb.changes.filter (fun x => decide (x.1 = p) && decide (x.2.1 = ctx))
      if mine.isEmpty then .next s
      else if err then
        let lose := mine.any (fun x => match x.2.2 with | .lose _ _ _ | .destroyed => true | _ => false)
        let s := { s with harb := { s.harb with changes := s.harb.changes.filter (fun x => !(decide (x.1 = p) && decide (x.2.1 = ctx))) } }
        .next (s.ctxRecErr p ctx lose)
      else if (s.slotOf p ctx).isSome then .next s
      else
        let a := s.applyChanges p ctx (lines.getD 0 0)
        .next (a.1.stageLine1 p ctx a.2)
    | _ => .next s

/-! ## Context commands (R77, R78, R85) -/

/-- The ADD that follows a command of a partition when its SO register enables one (R78, R164, R461). -/
def State.cmdAdd (s : State) (so : Word) : State :=
  if bit so 31 then s.offer .command [⟨.add, so.extractLsb' 0 14, 1⟩] none else s

/-- An enabled command object lies outside the partition's range. -/
def State.soBad (s : State) (p : BitVec 4) (so : Word) : Bool := bit so 31 && !s.soIn p (so.extractLsb' 0 20).toNat

/-- The command ends with an ERR (R78). The ADD's object is CMD_SO as it stands then: the spec does not say which value counts
when CMD_SO is rewritten while the command is BUSY (DESIGN CHOICE, log entry 47). -/
def State.ctxCmdEnd (s : State) (p : BitVec 4) (err : BitVec 4) : State :=
  let s := ((s.setCtxCmd p none).setBit (rPART p 0x78) 27 false).setF (rPART p 0x78) 20 err
  if err = 5 then s else s.cmdAdd (s.rd (rPART p 0x80))

/-- Launch entries of a context. -/
def State.launchesOf (s : State) (p : BitVec 4) (ctx : BitVec 16) : List (EKey × Entry) :=
  s.allEntries.filter (fun x => x.2.etype.isLaunch && decide (x.2.part = p) && decide (x.2.ctx = ctx.setWidth 24))

/-- The entry is past stage 4 and its record is not written. -/
def Entry.past4 (e : Entry) : Bool :=
  !e.recDone && !(decide (e.stage = .input) || decide (e.stage = .harbQueue) || decide (e.stage = .reenter) ||
    decide (e.stage = .ferry) || decide (e.stage = .miss))

/-- DESTROY's third step is over (R85). -/
def State.destroyClear (s : State) (p : BitVec 4) (ctx : BitVec 16) : Bool :=
  !(s.launchesOf p ctx).any (fun x => x.2.past4) && !(s.launchesOf p ctx).any (fun x => x.2.slot.isSome && !x.2.recDone)

/-- Write lines 0x40 up of a context for a command (R78), staged copies of them following (R93); line 0x40 is kept with the
command for what its failure would be (R630). -/
def State.ctxCmdWrite (s : State) (p : BitVec 4) (c : CtxCmd) (lines : List Line) : State :=
  ((s.mergeStaged p c.ctx lines).setCtxCmd p (some { c with step := 2, line1 := lines.getD 0 0 })).write
    (s.ctxAddr p c.ctx + 0x40) (64 * lines.length) lines (.ctxCmd p 1)

/-- DESTROY goes on to its record write when it may (R85); a reset of the partition completes it instead (R79). -/
def State.destroyTry (s : State) (p : BitVec 4) : State :=
  match s.ctxCmd p with
  | some c =>
    if c.op = 2 ∧ c.step = 1 ∧ !s.resetting p ∧ s.destroyClear p c.ctx then
      match s.slotOf p c.ctx with
      | some k =>
        let sl := s.slot k
        s.ctxCmdWrite p c ((sl.recLines.modify 1 (fun l => l &&& ~~~1#512)).drop 1)
      | none => s.ctxCmdWrite p c [c.line1 &&& ~~~1#512]
    else s
  | none => s

/-- Entries of the handle table that the next request of a walk brings whole: those in the 8 lines that a request may cover (R584). -/
def CtxCmd.walkN (c : CtxCmd) : Nat := min c.htCount ((512 - c.htBase.toNat % 64) / 32)

/-- Start reading the next entries of the handle table for FLUSH with BOUND (R78). -/
def State.walkTable (s : State) (p : BitVec 4) (c : CtxCmd) : State :=
  (s.setCtxCmd p (some { c with step := 3 })).read (c.htBase &&& ~~~63#57) (ceilDiv (c.htBase.toNat % 64 + 32 * c.walkN) 64) (.ctxCmd p 2)

/-- FLUSH writes a resident context's lines, or changes line 0x40 of one that is not resident (R78). -/
def State.flushWrite (s : State) (p : BitVec 4) (c : CtxCmd) : State :=
  match s.slotOf p c.ctx with
  | some k =>
    let s := if c.bound then s.setSlot k { s.slot k with recLines := (s.slot k).recLines.modify 1 (fun l => Line.put l 0x20 c.sum) } else s
    s.ctxCmdWrite p c ((s.slot k).recLines.drop 1)
  | none =>
    if c.bound then (s.setCtxCmd p (some { c with step := 4 })).read (s.ctxAddr p c.ctx + 0x40) 1 (.ctxCmd p 1)
    else s.ctxCmdEnd p 0

/-- The command goes on once VALID is known; `l1` is line 0x40 and `l0` line 0x00 (R78, R85). DESTROY marks the slot at once, or
else the pending memory write that every later reader sees. R85 names no stream for its loss: LOST_STREAM is 0 (DESIGN CHOICE, log
entry 47). -/
def State.ctxCmdValid (s : State) (p : BitVec 4) (c : CtxCmd) (l0 l1 : Line) : State :=
  if !recValid l1 then s.ctxCmdEnd p 3
  else
    let res := s.slotOf p c.ctx
    match c.op.toNat with
    | 2 =>
      let l1' := recLose (l1 ||| 4#512) 4 s.time 0
      let s := if recLost l1 then s else s.bump (rPART p 0x88)
      let s := match res with
        | some k => s.setSlot k { s.slot k with recLines := (s.slot k).recLines.modify 1 (fun l => recLose (l ||| 4#512) 4 s.time 0) }
        | none => s.stageLine1 p c.ctx l1'
      ((s.setCtxCmd p (some { c with step := 1, line1 := l1' })).loseLaunches p c.ctx 0).destroyTry p
    | 3 =>
      if c.bound then
        let n := min (Line.w32 l0 8 &&& 0x1FFFFFF).toNat 16777216
        let c := { c with htBase := (Line.w64 l0 0).extractLsb' 0 57, htCount := n, sum := 0 }
        if n = 0 then s.flushWrite p c else s.walkTable p c
      else s.flushWrite p c
    | _ =>
      match res with
      | some k =>
        let sl := s.slot k
        if c.all then
          ((s.setSlot k { sl with geomWait := true }).setCtxCmd p (some { c with step := 5 })).read (s.ctxAddr p c.ctx) 1 (.ctxCmd p 0)
        else
          let s := (s.staleHandles k (fun i => decide (i = c.index.toNat))).setSlot k { sl with
            cache := sl.cache.filter (fun x => x.1 ≠ c.index.toNat), recLines := sl.recLines.modify 1 (fun l => Line.put l 4 (Line.w32 l 4 + 1)) }
          s.ctxCmdEnd p 0
      | none =>
        let l := Line.put l1 4 (Line.w32 l1 4 + 1)
        s.ctxCmdWrite p c [l]

/-- The first access of a command, or its effect when VALID is already known; while the context's record is being loaded it
waits for the load. -/
def State.ctxCmdRun (s : State) (p : BitVec 4) (c : CtxCmd) : State :=
  let loading : Bool := match s.slotOf p c.ctx with | some k => decide ((s.slot k).st = .loading) | none => false
  if c.op = 1 then (s.setCtxCmd p (some { c with step := 0 })).read (s.ctxAddr p c.ctx) 2 (.ctxCmd p 0)
  else if loading then s.setCtxCmd p (some { c with step := 6 })
  else match s.slotOf p c.ctx with
    | some k => s.ctxCmdValid p c ((s.slot k).recLines.getD 0 0) ((s.slot k).recLines.getD 1 0)
    | none =>
      -- staged lines are written before they are read, and changes wait for their own read: the command reads after them
      (s.setCtxCmd p (some { c with step := 0 })).read (s.ctxAddr p c.ctx) 2 (.ctxCmd p 0)

/-- A write of PART.CTX_CMD with an assigned OP while no command is BUSY (R77, R78). -/
def State.ctxCmdStart (s : State) (p : BitVec 4) (op : BitVec 4) (bound : Bool) : State :=
  let ctx := s.fld (rPART p 0x78) 0 16
  let arg := s.rd (rPART p 0x7C)
  let c : CtxCmd := ⟨op, ctx, bound, bit arg 31, arg.extractLsb' 0 24, 0, 0, 0, 0, 0, 0⟩
  let s := (s.setBit (rPART p 0x78) 27 true).setF (rPART p 0x78) 20 (0#4)
  if s.soBad p (s.rd (rPART p 0x80)) then s.ctxCmdEnd p 5
  else if s.num (rPART p 0x68) 0 17 ≤ ctx.toNat then s.ctxCmdEnd p 1
  else s.ctxCmdRun p c

/-- Sum of EXTENT over the valid entries of table lines (R78). -/
def extentSum (ls : List Line) (off n : Nat) : Nat :=
  ((List.range n).map (fun i =>
    let b := off + 32 * i
    if bit (bytesAt 32 ls (b + 0x10) 4) 31 then (bytesAt 48 ls (b + 8) 6).toNat else 0)).foldl (· + ·) 0

/-- The line 0x40 of a record as commands see it: a staged copy or waiting changes win over memory. Changes that waited for their
own read are made now, as a pending memory write (R81, R93). -/
def State.seenLine1 (s : State) (p : BitVec 4) (ctx : BitVec 16) (mem : Line) : State × Line :=
  let l := match s.heldLine1 p ctx with | some l => l | none => mem
  if s.harb.changes.any (fun x => decide (x.1 = p) && decide (x.2.1 = ctx)) then
    let a := s.applyChanges p ctx l
    (a.1.stageLine1 p ctx a.2, a.2)
  else (s, l)

/-- A read or write of a context command has returned (R78). -/
def State.ctxCmdStep (s : State) (p : BitVec 4) (c : CtxCmd) (write err : Bool) (lines : List Line) : State :=
  if write then
    let grave := decide (c.op = 2) || recGrave c.line1
    let s := if err then s.ctxRecErr p c.ctx grave else s
    let s := if c.op = 2 then (match s.slotOf p c.ctx with | some k => s.freeSlot k | none => s) else s
    s.ctxCmdEnd p (if err then 8 else 0)
  else if err then
    let s := match c.step with
      | 5 => (match s.slotOf p c.ctx with | some k => s.setSlot k { s.slot k with geomWait := false } | none => s)
      | _ => s
    let s := if (c.op = 2 ∨ c.op = 4 ∨ (c.op = 3 ∧ c.bound)) ∧ (c.step = 0 ∨ c.step = 4) then s.ctxRecErr p c.ctx (decide (c.op = 2)) else s
    s.ctxCmdEnd p 7
  else
    match c.op.toNat, c.step with
    | 1, _ =>
      let a := s.seenLine1 p c.ctx (lines.getD 1 0)
      let s := a.1
      let l0 := lines.getD 0 0
      if recValid a.2 ∨ (s.launchesOf p c.ctx).any (fun x => x.2.past4) then s.ctxCmdEnd p 2
      else if (Line.w64 l0 0).extractLsb' 0 5 ≠ 0#5 ∨ 16777216 < (Line.w32 l0 8 &&& 0x1FFFFFF).toNat then s.ctxCmdEnd p 4
      else s.ctxCmdWrite p c [1, 0, 0]
    | _, 3 =>
      let off := c.htBase.toNat % 64
      let n := c.walkN
      let c := { c with sum := satAdd c.sum (extentSum lines off n), htCount := c.htCount - n, htBase := c.htBase + BitVec.ofNat 57 (32 * n) }
      if c.htCount = 0 then s.flushWrite p c else s.walkTable p c
    | 3, 4 =>
      let a := s.seenLine1 p c.ctx (lines.getD 0 0)
      match a.1.slotOf p c.ctx with
      | some _ => a.1.flushWrite p c
      | none => a.1.ctxCmdWrite p c [Line.put a.2 0x20 c.sum]
    | _, 5 =>
      match s.slotOf p c.ctx with
      | some k =>
        let sl := s.slot k
        let rs := (sl.recLines.set 0 (lines.getD 0 0)).modify 1 (fun l => Line.put l 4 (Line.w32 l 4 + 1))
        ((s.staleHandles k (fun _ => true)).setSlot k { sl with cache := [], geomWait := false, recLines := rs }).ctxCmdEnd p 0
      | none => s.ctxCmdEnd p 0
    | _, _ =>
      match s.slotOf p c.ctx with
      | some k =>
        if (s.slot k).st = .loading then s.setCtxCmd p (some { c with step := 6 })
        else s.ctxCmdValid p c ((s.slot k).recLines.getD 0 0) ((s.slot k).recLines.getD 1 0)
      | none =>
        let a := s.seenLine1 p c.ctx (lines.getD 1 0)
        a.1.ctxCmdValid p c (lines.getD 0 0) a.2

/-- A context's record has been loaded, or its load has failed: a command that waited for it goes on. -/
def State.ctxCmdLoaded (s : State) (p : BitVec 4) (ctx : BitVec 16) : State :=
  match s.ctxCmd p with
  | some c => if c.step = 6 ∧ c.ctx = ctx then s.ctxCmdRun p c else s
  | none => s

end Sys2Proof.Machine
end

