-- ==== Sys2Proof/Machine/Image.lean ====
section
/-! DEFINITION. Command-buffer images (spec/05_command_buffers.md R151 to R157): header and operation checks, patch lists
(R171 to R175), and the conversions of CONST_CVT (R174). An image is its lines; bytes beyond them read 0. -/
namespace Sys2Proof.Machine

/-! ## Headers and operations -/

/-- OP_COUNT, P_COUNT, OPND_COUNT, PROG_LEN, WCET_NS, PROG_HANDLE, PVER, PROG_OFFSET, TVER, TEMPLATE (R151). -/
def hOps (h : Line) : Nat := ((Line.w32 h 0).extractLsb' 16 9).toNat
def hP (h : Line) : Nat := ((Line.w32 h 4).extractLsb' 8 6).toNat
def hOpnds (h : Line) : Nat := ((Line.w32 h 4).extractLsb' 0 8).toNat
def hWcet (h : Line) : Word := Line.w32 h 8
def hProgLen (h : Line) : Nat := (Line.w32 h 0xC).toNat
def hProg (h : Line) : Word := Line.w32 h 0x10
def hPver (h : Line) : Nat := (Line.byte h 0x14).toNat
def hProgOff (h : Line) : Nat := ((Line.w64 h 0x18).extractLsb' 0 48).toNat
def hTver (h : Line) : Nat := (Line.byte h 0x22).toNat
def hTmpl (h : Line) : BitVec 16 := (Line.w32 h 0x20).extractLsb' 0 16
/-- Lines of the image that a header describes. -/
def hLines (h : Line) : Nat := 3 + hOps h + ceilDiv (hOpnds h * 16) 64

/-- A program length that R151 and R148 allow. -/
def progLenOk (n : Nat) : Bool := decide (64 ≤ n) && decide (n ≤ 32768) && decide (n % 64 = 0)

/-- A version lies between MIN and MAX of a GLBL format register. -/
def State.fmtOk (s : State) (off v : Nat) : Bool :=
  decide (s.num (pageAddr pGLBL off) 0 8 ≤ v) && decide (v ≤ s.num (pageAddr pGLBL off) 8 8)

/-- The header checks of R191 from BAD_CB_VERSION to BAD_WCET, in order; `tmpl` is the TEMPLATE the header must carry. -/
def State.headCheck (s : State) (h : Line) (tmpl : BitVec 16) : Option Nat :=
  if !s.fmtOk 0x54 (Line.byte h 0).toNat then some 0x02
  else if 256 < hOps h ∨ 32 < hP h then some 0x03
  else if hTmpl h ≠ tmpl then some 0x04
  else if !progLenOk (hProgLen h) then some 0x05
  else if hWcet h = 0 then some 0x06
  else none

/-- Operation i of an image. -/
def imgOp (img : List Line) (i : Nat) : Line := img.getD (3 + i) 0

/-- An OPND byte of an operation other than 0xFF is not below OPND_COUNT (R191 BAD_OPND). -/
def opndBad (h l : Line) : Bool :=
  (List.range 4).any (fun j => slotUsed l j && decide (hOpnds h ≤ (Line.byte l (0x10 + j)).toNat))

/-- A DEP bit of operation i names no operation (R159). -/
def depBad (l : Line) (i : Nat) : Bool := decide (i < 64) && decide ((Line.w64 l 8) >>> i ≠ 0)

/-- The checks of R191 on an operation that do not depend on the partition's ports; `port` is the outcome of BAD_PORT's. -/
def opCheck (h l : Line) (i : Nat) (port : Bool) : Option Nat :=
  if 1 < opKind l then some 0x10
  else if opKind l = 1 ∧ port then some 0x11
  else if depBad l i then some 0x12
  else if opKind l = 1 ∧ opndBad h l then some 0x13
  else none

/-- Byte offset of operand k in an image (R155). -/
def opndOff (h : Line) (k : Nat) : Nat := 0xC0 + 64 * hOps h + 16 * k

/-- The check of R165: code and operation index of the first failure. -/
def State.imageCheck (s : State) (img : List Line) (id : BitVec 12) : Option (Nat × Nat) :=
  let h := img.getD 0 0
  match s.headCheck h (id.setWidth 16) with
  | some c => some (c, 0)
  | none =>
    if !s.fmtOk 0x60 (hPver h) then some (0x0C, 0)
    else if !s.fmtOk 0x58 (hTver h) then some (0x0D, 0)
    else (List.range (hOps h)).findSome? (fun i => (opCheck h (imgOp img i) i false).map (fun c => (c, i)))

/-! ## CONST_CVT (R174) -/

/-- Quotient rounded to nearest, ties to even. -/
def rne (num den : Nat) : Nat :=
  let q := num / den
  let r := num % den
  if den < 2 * r ∨ (2 * r = den ∧ q % 2 = 1) then q + 1 else q

/-- Code of a magnitude `mag` * 2^-149 in a binary format with `m` mantissa bits and a bias, without a bound on the exponent. -/
def fpCode (mag m bias : Nat) : Nat :=
  let t := max (Nat.log2 mag) (150 - bias)
  (t - (150 - bias)) * 2 ^ m + rne mag (2 ^ (t - m))

/-- A magnitude in a format, rounded; a subnormal FP32 input below the smallest subnormal gives 0. -/
def fpMagCode (x : Word) (m bias : Nat) : Nat :=
  let mag := fp32Mag x
  let sub := decide (x.extractLsb' 23 8 = 0#8)
  if mag = 0 ∨ (sub ∧ mag < 2 ^ (150 - bias - m)) then 0 else fpCode mag m bias

/-- NaN. -/
def fp32Nan (x : Word) : Bool := fp32Special x && decide (x.extractLsb' 0 23 ≠ 0#23)

/-- An FP32 value as an integer clamped to a range (R174); NaN gives 0. -/
def fpInt (x : Word) (lo hi : Nat) : Int :=
  let neg := bit x 31
  if fp32Nan x then 0
  else
    let big := fp32Special x
    let n := rne (fp32Mag x) (2 ^ 149)
    if neg then -(Int.ofNat (if big then lo else min n lo)) else Int.ofNat (if big then hi else min n hi)

/-- Size of an element of a format that CONST_CVT accepts (R174). -/
def cvtSize : Nat → Option Nat
  | 0x00 => some 4 | 0x01 => some 2 | 0x02 => some 2 | 0x03 => some 1 | 0x04 => some 1 | 0x08 => some 4 | 0x09 => some 2
  | 0x0A => some 1 | 0x0B => some 1 | _ => none

/-- The converted value (R174). The payload of a quiet NaN is left open, and a function of the operands (R449, log entry 3). -/
def cvtValue (fmt : Nat) (x : Word) : Word :=
  let open' := Config.nanPayload fmt x
  let sg := x.extractLsb' 31 1
  let nan := fp32Nan x
  let inf := fp32Special x
  match fmt with
  | 0x00 => x
  | 0x01 =>
    let c := if inf then 0x7C00 else min (fpMagCode x 10 15) 0x7C00
    (sg ++ (if nan then 0x3F#6 ++ open'.extractLsb' 0 9 else BitVec.ofNat 15 c)).setWidth 32
  | 0x02 =>
    let c := if inf then 0x7F80 else min (fpMagCode x 7 127) 0x7F80
    (sg ++ (if nan then 0x1FF#9 ++ open'.extractLsb' 0 6 else BitVec.ofNat 15 c)).setWidth 32
  | 0x03 => (sg ++ (if nan then 0x7F#7 else BitVec.ofNat 7 (if inf then 0x7E else min (fpMagCode x 3 7) 0x7E))).setWidth 32
  | 0x04 => (sg ++ (if nan then 0x7E#7 else BitVec.ofNat 7 (if inf then 0x7C else min (fpMagCode x 2 15) 0x7C))).setWidth 32
  | 0x08 => BitVec.ofInt 32 (fpInt x (2 ^ 31) (2 ^ 31 - 1))
  | 0x09 => BitVec.ofInt 32 (fpInt x (2 ^ 15) (2 ^ 15 - 1))
  | 0x0A => BitVec.ofInt 32 (fpInt x (2 ^ 7) (2 ^ 7 - 1))
  | _ => BitVec.ofInt 32 (fpInt x 0 255)

/-! ## Patch lists (R171 to R175) -/

/-- A patch record: OP, A and the bytes that follow. -/
structure PRec where
  op : Nat
  a : Nat
  bs : List Byte
deriving DecidableEq, Repr

/-- Little-endian value of some bytes. -/
def leNat (bs : List Byte) : Nat := bs.foldr (fun b n => b.toNat + 256 * n) 0

/-- Bytes that follow the opcode byte, or none when R172's rule for A or R173's bounds are broken. -/
def recLen (op a : Nat) (rest : List Byte) : Option Nat :=
  let b0 := (rest.getD 0 0).toNat
  let b1 := (rest.getD 1 0).toNat
  match op with
  | 1 => some 4
  | 2 => if b0 < 32 ∧ a + b0 + 1 ≤ 32 then some (1 + 4 * (b0 + 1)) else none
  | 3 => if a = 0 ∧ b0 + b1 + 1 ≤ 256 then some (2 + b1 + 1) else none
  | 4 => some 5
  | 5 => if a < 8 then some (1 + 4 * (a % 2) + 6 * (a / 2 % 2) + 4 * (a / 4 % 2)) else none
  | 6 => if a < 8 then some (2 + a + 1) else none
  | _ => if a = 0 then some 1 else none

/-- The records of a list after its header, up to END (R171, R173). -/
def parsePl : Nat → List Byte → Option (List PRec)
  | 0, _ => none
  | _ + 1, [] => none
  | n + 1, b :: rest =>
    let op := b.toNat / 32
    let a := b.toNat % 32
    if op = 0 then (if a = 0 then some [] else none)
    else match recLen op a rest with
      | none => none
      | some len => if rest.length < len then none else (parsePl n (rest.drop len)).map (⟨op, a, rest.take len⟩ :: ·)

/-- The records of a patch list of `len` bytes, or the code of R173. -/
def State.decodePl (s : State) (pl : List Line) (len : Nat) : Except Nat (List PRec) :=
  let bs := (List.range len).map (byteAt pl)
  if !s.fmtOk 0x5C (bs.getD 0 0).toNat then .error 0x0A
  else match parsePl len (bs.drop 4) with
    | none => .error 0x0B
    | some rs => .ok rs

/-- The record targets the constant buffer. -/
def PRec.toConst (r : PRec) : Bool := decide (r.op = 3) || decide (r.op = 4)

/-- What patching works on: the image, the constant buffer when the launch has one, operations skipped, records skipped. -/
structure Work where
  img : List Line
  cst : Option (List Line)
  skips : List Nat
  bad : List (Option Nat)
deriving DecidableEq, Repr

/-- Write bytes, one after the other, from an offset of a run of lines. -/
def putList (ls : List Line) (off : Nat) : List Byte → List Line
  | [] => ls
  | b :: bs => putList (putByte ls off b) (off + 1) bs

/-- Apply one record, or skip it (R175). -/
def Work.apply (w : Work) (r : PRec) : Work :=
  let h := w.img.getD 0 0
  let b0 := (r.bs.getD 0 0).toNat
  let b1 := (r.bs.getD 1 0).toNat
  let skip : Work := { w with bad := w.bad ++ [none] }
  let skipOp := fun (i : Nat) =>
    if i < hOps h then { w with bad := w.bad ++ [some i], skips := w.skips ++ [i] } else skip
  let put := fun (off : Nat) (bs : List Byte) => ({ w with img := putList w.img off bs } : Work)
  let putC := fun (off : Nat) (bs : List Byte) =>
    match w.cst with
    | none => skip
    | some c => { w with cst := some (putList c off bs) }
  match r.op with
  | 1 => if r.a < hP h then put (0x40 + 4 * r.a) r.bs else skip
  | 2 => if r.a + b0 + 1 ≤ hP h then put (0x40 + 4 * r.a) (r.bs.drop 1) else skip
  | 3 => putC b0 (r.bs.drop 2)
  | 4 => match cvtSize r.a with
    | none => skip
    | some n =>
      if (b0 + 1) * n ≤ 256 then
        let v := cvtValue r.a (BitVec.ofNat 32 (leNat (r.bs.drop 1)))
        putC (b0 * n) ((List.range n).map (fun i => v.extractLsb' (8 * i) 8))
      else skip
  | 5 =>
    if b0 < hOpnds h then
      let o := opndOff h b0
      let bs := r.bs.drop 1
      let n1 := 4 * (r.a % 2)
      let n2 := 6 * (r.a / 2 % 2)
      { w with img := putList (putList (putList w.img o (bs.take n1)) (o + 8) ((bs.drop n1).take n2)) (o + 4) (bs.drop (n1 + n2)) }
    else skip
  | 6 => if b0 < hOps h ∧ b1 + r.a + 1 ≤ 32 then put (0xC0 + 64 * b0 + 0x20 + b1) (r.bs.drop 2) else skipOp b0
  | _ => if b0 < hOps h then put (0xC0 + 64 * b0) [0] else skip

end Sys2Proof.Machine
end

