-- ==== Sys2Proof/Machine/Template.lean ====
section
/-! DEFINITION. The template directory, pinned images and the registration commands (spec/05_command_buffers.md R161 to R170),
and the fields of the launch descriptor heads (R148, R149, spec/10 R335). -/
namespace Sys2Proof.Machine

/-! ## Descriptor heads -/

/-- The header unit and its word at 0x10. -/
def Entry.hd (e : Entry) : Line := e.units.getD 0 0
def Entry.lctrl (e : Entry) : Word := Line.w32 e.hd 0x10

/-- The launch expands a template; runs a program directly; carries its patch list inline; has no constant buffer. -/
def Entry.isTmpl (e : Entry) : Bool :=
  decide (e.etype = .templateLaunch) || (decide (e.etype = .lookupLaunch) && bit e.lctrl 26)
def Entry.isDirect (e : Entry) : Bool := decide (e.etype = .launch) && bit e.lctrl 26
def Entry.plInl (e : Entry) : Bool := decide (e.etype = .templateLaunch) && bit e.lctrl 25
def Entry.noConst (e : Entry) : Bool := bit e.lctrl 27
/-- The constant buffer is given by handle. -/
def Entry.constByHandle (e : Entry) : Bool := !e.inlc && !e.noConst

/-- TEMPLATE, PL_LEN, MAIN_HANDLE, MAIN_OFFSET, CONST_HANDLE, CONST_OFFSET, SEED, TAG. -/
def Entry.tmplId (e : Entry) : BitVec 12 := e.lctrl.extractLsb' 12 12
def Entry.plLen (e : Entry) : Nat := (e.lctrl.extractLsb' 0 11).toNat
def Entry.mainH (e : Entry) : Word := Line.w32 e.hd 0x14
def Entry.mainOff (e : Entry) : Nat := ((Line.w64 e.hd 0x18).extractLsb' 0 48).toNat
def Entry.constH (e : Entry) : Word := Line.w32 e.hd 0x20
def Entry.constOff (e : Entry) : Nat := ((Line.w64 e.hd 0x28).extractLsb' 0 48).toNat
def Entry.seed (e : Entry) : Dword := Line.w64 e.hd 0x30
def Entry.tag (e : Entry) : Word := Line.w32 e.hd 0x38
/-- PVER and PROG_LEN under DIRECT. -/
def Entry.dPver (e : Entry) : Nat := ((Line.w32 e.hd 0x24).extractLsb' 16 8).toNat
def Entry.dProgLen (e : Entry) : Nat := ((Line.w32 e.hd 0x24).extractLsb' 0 16).toNat
/-- LK_N, LK_S + 1, LK_HANDLE and LK_OFFSET of a lookup head. -/
def Entry.lkN (e : Entry) : Nat := ((Line.w64 e.hd 0x18).extractLsb' 48 16).toNat
def Entry.lkS (e : Entry) : Nat := ((Line.w64 e.hd 0x28).extractLsb' 48 6).toNat + 1
def Entry.lkH (e : Entry) : Word := Line.w32 e.hd 0x24
def Entry.lkOff (e : Entry) : Nat := (Line.w32 e.hd 0x3C).toNat

/-- The head is invalid (R150, R336). -/
def Entry.descBad (e : Entry) : Bool :=
  let tmpl := e.isTmpl
  let plUsed := tmpl && !e.plInl
  let align := if plUsed then 4 else 64
  let off := decide ((tmpl && e.plInl) = false ∧ e.mainOff % align ≠ 0)
  let cst := e.constByHandle && decide (e.constOff % 64 ≠ 0)
  let noC := e.noConst && e.inlc
  let plBad := decide (e.plLen < 5) || decide (1024 < e.plLen)
  if e.etype = .lookupLaunch then
    e.xu || (!tmpl && (decide (e.tmplId ≠ 0) || decide (e.plLen ≠ 0))) || (tmpl && plBad) || noC ||
      decide (e.lkN = 0) || decide (4096 < e.lkN) || decide (e.lkN < e.lkS) || off || decide (e.lkOff % 64 ≠ 0) || cst
  else
    (bit e.lctrl 26 && !e.isDirect) ||
    (!tmpl && (bit e.lctrl 25 || decide (e.tmplId ≠ 0) || decide (e.plLen ≠ 0))) ||
    (tmpl && (decide (e.xu ≠ e.plInl) || plBad || (e.plInl && decide (64 < e.plLen)))) ||
    noC || (e.isDirect && !progLenOk e.dProgLen) || off || cst

/-! ## The directory (R161, R162) -/

/-- A FERRY register of partition p (R195): offsets 0x4C to 0x68 are chosen by PART_SEL. -/
def rFERYp (p : BitVec 4) (off : Nat) : Nat := bankKey p.toNat (pageAddr pFERY off)

/-- Address of the directory line that holds entry n. -/
def State.dirLineAddr (s : State) (p : BitVec 4) (id : BitVec 12) : Addr :=
  s.addrPair (rFERYp p 0x4C) 12 + BitVec.ofNat 57 (64 * (id.toNat / 2))

/-- The directory entry in a half of a line. -/
def DirEntry.ofLine (l : Line) (half : Nat) : DirEntry :=
  let w := fun (o : Nat) => Line.w32 l (32 * half + o)
  ⟨(Line.w64 l (32 * half)).extractLsb' 0 57, (w 8).extractLsb' 0 16, bit (w 8) 16, bit (w 8) 17, ((w 0xC).extractLsb' 0 9).toNat,
    (Line.w64 l (32 * half + 0x10)).extractLsb' 0 57, bit (w 0x18) 16, (w 0x18).extractLsb' 0 16, ((w 0x1C).extractLsb' 0 9).toNat⟩

/-- An entry's 32 bytes. -/
def DirEntry.bits (d : DirEntry) : BitVec 256 :=
  (BitVec.ofNat 32 d.prevLines) ++ (0#15 ++ ofBool d.prevValid ++ d.prevGen) ++ (d.prevImage.setWidth 64) ++
    (BitVec.ofNat 32 d.lines) ++ (0#14 ++ ofBool d.pinned ++ ofBool d.valid ++ d.gen) ++ (d.image.setWidth 64)

/-- An entry in the directory cache. -/
def State.dirGet (s : State) (p : BitVec 4) (id : BitVec 12) : Option DirEntry :=
  (s.ferry.dirs.find? (fun x => decide (x.1 = p) && decide (x.2.1 = id))).map (·.2.2)

/-- Drop the least recently used entry that is not pinned: the last such of a list. -/
def dropDir : List (BitVec 4 × BitVec 12 × DirEntry) → List (BitVec 4 × BitVec 12 × DirEntry)
  | [] => []
  | x :: xs => if xs.any (fun y => !y.2.2.pinned) then x :: dropDir xs else if x.2.2.pinned then x :: xs else xs

/-- Put an entry into the directory cache, most recently used (R179). -/
def State.dirPut (s : State) (p : BitVec 4) (id : BitVec 12) (d : DirEntry) : State :=
  let rest := s.ferry.dirs.filter (fun x => !(decide (x.1 = p) && decide (x.2.1 = id)))
  { s with ferry := { s.ferry with dirs := (p, id, d) :: (if rest.length < 512 then rest else dropDir rest) } }

/-- Copies of a partition's directory entries are dropped: its directory is no longer known (R161). -/
def State.dirsDrop (s : State) (p : BitVec 4) : State :=
  { s with ferry := { s.ferry with dirs := s.ferry.dirs.filter (fun x => decide (x.1 ≠ p)) } }

/-- The pinned image of a generation. -/
def State.pinned (s : State) (p : BitVec 4) (id : BitVec 12) (gen : BitVec 16) : Option (List Line) :=
  (s.ferry.pins.find? (fun x => decide (x.1 = p) && decide (x.2.1 = id) && decide (x.2.2.1 = gen))).map (·.2.2.2)

/-- Replace the pinned image of a template. -/
def State.setPins (s : State) (p : BitVec 4) (id : BitVec 12) (img : Option (BitVec 16 × List Line)) : State :=
  let rest := s.ferry.pins.filter (fun x => !(decide (x.1 = p) && decide (x.2.1 = id)))
  { s with ferry := { s.ferry with pins := match img with | some (g, ls) => rest ++ [(p, id, g, ls)] | none => rest } }

/-- Pinned lines, block-wide (FERRY.PINNED). -/
def State.pinLines (s : State) : Nat := (s.ferry.pins.map (fun x => x.2.2.2.length)).foldl (· + ·) 0

/-- Room to pin an image of a template beside the others (R197). -/
def State.pinRoom (s : State) (p : BitVec 4) (id : BitVec 12) (lines : Nat) : Bool :=
  let t := s.setPins p id none
  decide (t.ferry.pins.length < 256) && decide (t.pinLines + lines ≤ 1024)

/-! ## Pinning a generation at release (R168, R169) -/

/-- The launch pins what a directory entry says. -/
def State.pinEntry (s : State) (k : EKey) (d : DirEntry) : State :=
  s.updEntry k (fun e => { e with tpinned := d.valid, tgen := d.gen, timg := d.image, tlines := d.lines })

/-- At its release a launch of a template reads the directory entry: from the cache, from what was prefetched, or from
memory. -/
def State.pinTmpl (s : State) (k : EKey) : State :=
  match s.entry k with
  | none => s
  | some e =>
    if !e.isTmpl ∨ s.num (rFERYp e.part 0x54) 0 13 ≤ e.tmplId.toNat then s
    else match s.dirGet e.part e.tmplId with
      | some d => (s.dirPut e.part e.tmplId d).pinEntry k d
      | none =>
        let a := s.dirLineAddr e.part e.tmplId
        match s.ferry.ahead.find? (fun x => decide (x.1 = k) && decide (x.2.1 = a)) with
        | some x =>
          let d := DirEntry.ofLine x.2.2 (e.tmplId.toNat % 2)
          (s.dirPut e.part e.tmplId d).pinEntry k d
        | none => (s.updEntry k (fun e => { e with waiting := e.waiting + 1 })).read a 1 (.input k 0 0)

/-- The entry is pinned to a generation and has not left stage 4. -/
def Entry.holdsTmpl (e : Entry) (p : BitVec 4) (id : BitVec 12) (gen : BitVec 16) : Bool :=
  e.isTmpl && e.tpinned && decide (e.part = p) && decide (e.tmplId = id) && decide (e.tgen = gen) &&
    (decide (e.stage = .input) || decide (e.stage = .harbQueue) || decide (e.stage = .reenter) || decide (e.stage = .ferry) ||
      decide (e.stage = .miss))

/-! ## Prefetched inputs (R134, R168) -/

/-- What was prefetched for the entries that satisfy `f`, or is being prefetched, is not wanted any more. -/
def State.aheadDrop (s : State) (f : EKey → Bool) : State :=
  { s with
    mmp := s.mmp.map (fun r => match r.why with
      | .ahead k a _ => if f k then { r with why := .ahead k a false } else r
      | _ => r)
    ferry := { s.ferry with ahead := s.ferry.ahead.filter (fun x => !f x.1) } }

/-! ## Registration commands (R163 to R167) -/

/-- A partition's template command. -/
def State.tmplCmd (s : State) (p : BitVec 4) : Option TmplCmd := Tbl.get (fun _ => none) s.ferry.cmds p.toNat

/-- Set a partition's template command. -/
def State.setTmplCmd (s : State) (p : BitVec 4) (c : Option TmplCmd) : State :=
  { s with ferry := { s.ferry with cmds := Tbl.set (fun _ => none) s.ferry.cmds p.toNat c } }

/-- The command ends with an ERR (R164). -/
def State.tmplEnd (s : State) (p : BitVec 4) (err : BitVec 4) : State :=
  let s := ((s.setTmplCmd p none).setBit (rFERYp p 0x58) 27 false).setF (rFERYp p 0x58) 20 err
  if err = 5 then s else s.cmdAdd (s.rd (rFERYp p 0x64))

/-- A write of FERRY.TMPL_CMD with an assigned OP; ID and PIN are stored. -/
def State.tmplStart (s : State) (p : BitVec 4) (op : BitVec 4) : State :=
  let cmd := s.rd (rFERYp p 0x58)
  let c : TmplCmd := ⟨op, cmd.extractLsb' 0 12, bit cmd 26, s.addrPair (rFERYp p 0x5C) 6, 0, []⟩
  let s := (s.setBit (rFERYp p 0x58) 27 true).setF (rFERYp p 0x58) 20 (0#4)
  if s.soBad p (s.rd (rFERYp p 0x64)) then s.tmplEnd p 5
  else if s.num (rFERYp p 0x54) 0 13 ≤ c.id.toNat then s.tmplEnd p 1
  else (s.setTmplCmd p (some c)).read (s.dirLineAddr p c.id) 1 (.tmplCmd p 0)

/-- The directory changes: the new entry is in force and its line is written (R161, R168); lines of an image that may be displaced
are not kept for later launches. -/
def State.tmplWrite (s : State) (p : BitVec 4) (c : TmplCmd) (d : DirEntry) (step : Nat) : State :=
  let l := Line.put (c.got.getD 0 0) (32 * (c.id.toNat % 2)) d.bits
  let s := ((s.aheadDrop (fun k => decide (s.partOf (funcOf k.stream) = some p))).dirPut p c.id d).setTmplCmd p (some { c with step := step, got := [l] })
  s.write (s.dirLineAddr p c.id) 64 [l] (.tmplCmd p 0)

/-- The directory entry that a command acts on. -/
def TmplCmd.entry (c : TmplCmd) : DirEntry := DirEntry.ofLine (c.got.getD 0 0) (c.id.toNat % 2)

/-- Every line of the image is in: the checks of the table, then the action (R164, R165). -/
def State.tmplImage (s : State) (p : BitVec 4) (c : TmplCmd) : State :=
  let img := c.got.drop 1
  let d := c.entry
  if c.op = 4 then
    if !s.pinRoom p c.id img.length then s.tmplEnd p 4 else
    let s := s.setPins p c.id (some (d.gen, img))
    s.tmplWrite p c { d with pinned := true } 2
  else match s.imageCheck img c.id with
    | some (code, op) =>
      (s.wr (rFERYp p 0x68) (0#16 ++ BitVec.ofNat 8 code ++ BitVec.ofNat 8 op)).tmplEnd p 3
    | none =>
      if c.pin ∧ !s.pinRoom p c.id img.length then s.tmplEnd p 4
      else
        let d' := { d with image := c.src, gen := d.gen + 1, valid := true, pinned := c.pin, lines := img.length }
        let d' := if c.op = 2 then { d' with prevImage := d.image, prevGen := d.gen, prevLines := d.lines, prevValid := true } else d'
        let s := s.setPins p c.id (if c.pin then some (d'.gen, img) else none)
        s.tmplWrite p c d' 2

/-- The directory line is in (R164). -/
def State.tmplDir (s : State) (p : BitVec 4) (c : TmplCmd) : State :=
  let d := c.entry
  let put := fun (s : State) (n : Nat) (a : Addr) =>
    (s.setTmplCmd p (some { c with step := 1, got := c.got ++ List.replicate n 0 })).readLines a n (fun o => .tmplCmd p (1 + o))
  match c.op.toNat with
  | 1 => if d.valid then s.tmplEnd p 2 else put s 1 c.src
  | 2 => if d.valid then put s 1 c.src else s.tmplEnd p 2
  | 3 =>
    if d.valid then (s.setPins p c.id none).tmplWrite p c { d with valid := false, pinned := false } 2 else s.tmplEnd p 2
  | _ =>
    if !d.valid then s.tmplEnd p 2
    else if c.pin then (if s.pinRoom p c.id d.lines then put s d.lines d.image else s.tmplEnd p 4)
    else (s.setPins p c.id none).tmplWrite p c { d with pinned := false } 2

/-- A command that waits for the launches of the outgoing generation goes on when none remains (R164). -/
def State.tmplTry (s : State) (p : BitVec 4) : State :=
  match s.tmplCmd p with
  | none => s
  | some c =>
    if c.step ≠ 4 then s
    else
      let d := c.entry
      let gen := if c.op = 2 then d.prevGen else d.gen
      if (c.op = 2 ∨ c.op = 3) ∧ s.allEntries.any (fun x => x.2.holdsTmpl p c.id gen) then s
      else if c.op = 2 then s.tmplWrite p c { d with prevValid := false } 3
      else s.tmplEnd p 0

/-- A reset of the partition ends a REPLACE or RETIRE (R170): one that has not written the directory yet ends with READ_ERROR
(DESIGN CHOICE, log entry 28), one that waits for launches goes on, as they are discarded. -/
def State.tmplReset (s : State) (p : BitVec 4) : State :=
  match s.tmplCmd p with
  | none => s
  | some c =>
    if c.op ≠ 2 ∧ c.op ≠ 3 then s
    else if c.step = 4 then s.tmplTry p
    else if c.step = 2 ∨ c.step = 3 then s
    else (s.orphan (fun w => match w with | .tmplCmd q _ => decide (q = p) | _ => false)).tmplEnd p 6

/-- An access of a template command has returned; `line` says which. -/
def State.tmplStep (s : State) (p : BitVec 4) (c : TmplCmd) (write err : Bool) (line : Nat) (lines : List Line) : State :=
  if write then
    if c.step = 2 then (s.setTmplCmd p (some { c with step := 4 })).tmplTry p
    else if c.step = 3 then s.tmplEnd p 0
    else s
  else if line = 0 then
    if err then s.tmplEnd p 6
    else
      -- the directory cache holds what Swisto wrote last
      let l := lines.getD 0 0
      let l := match s.dirGet p c.id with | some d => Line.put l (32 * (c.id.toNat % 2)) d.bits | none => l
      s.tmplDir p { c with got := [l] }
  else
    let c := { c with got := if err then c.got else setLines c.got line lines, step := if err then 6 else c.step }
    if s.mmp.any (fun r => match r.why with | .tmplCmd q _ => decide (q = p) | _ => false) then s.setTmplCmd p (some c)
    else if c.step = 6 then s.tmplEnd p 6
    else
      -- the header of an image that is to be registered says how many lines follow
      let n := hLines (c.got.getD 1 0)
      if c.op ≠ 4 ∧ c.got.length = 2 ∧ (s.headCheck (c.got.getD 1 0) (c.id.setWidth 16)).isNone ∧ 1 < n then
        (s.setTmplCmd p (some { c with got := c.got ++ List.replicate (n - 1) 0 })).readLines (c.src + 64) (n - 1) (fun o => .tmplCmd p (2 + o))
      else s.tmplImage p c

/-- Swisto reloads the pinned copies: each one's directory line is read first (R170, R533). -/
def State.pinsReload (s : State) : State :=
  s.ferry.pins.foldl (fun s x => s.read (s.dirLineAddr x.1 x.2.1) 1 (.pinReload x.1 x.2.1.toNat 0)) s

/-- A read of a pinned copy's reload has returned. A template that reads unpinned, or whose lines cannot be read, has no pinned
copy any more (log entry 27). -/
def State.pinStep (s : State) (p : BitVec 4) (id : BitVec 12) (off : Nat) (err : Bool) (lines : List Line) : State :=
  if err then s.setPins p id none
  else if off = 0 then
    let d := DirEntry.ofLine (lines.getD 0 0) (id.toNat % 2)
    if d.valid ∧ d.pinned then
      ((s.dirPut p id d).setPins p id (some (d.gen, List.replicate d.lines 0))).readLines d.image d.lines (fun o => .pinReload p id.toNat (1 + o))
    else s.setPins p id none
  else match s.ferry.pins.find? (fun x => decide (x.1 = p) && decide (x.2.1 = id)) with
    | some x => s.setPins p id (some (x.2.2.1, setLines x.2.2.2 (off - 1) lines))
    | none => s

/-- TMPL_CMD_DONE (R164, R170): an access that a partition's template command or a reload of its pinned copies made has
returned. -/
def execTmplCmdDone (p : BitVec 4) (write : Bool) (mtag : BitVec 8) (gen : BitVec 4) (err : Bool) (lines : List Line) (s : State) :
    Host.Outcome State Fault Refusal :=
  let r := s.answer (!write) mtag gen
  match r.2 with
  | none => .next r.1
  | some q => match q.why with
    | .tmplCmd p' line =>
      if p' ≠ p then .next s
      else if !write ∧ !err ∧ lines.length * 64 ≠ q.len then .fault .illFormed
      else match r.1.tmplCmd p with
        | none => .next r.1
        | some c => .next (r.1.tmplStep p c write err line lines)
    | .pinReload p' id off =>
      if p' ≠ p then .next s
      else if !err ∧ lines.length * 64 ≠ q.len then .fault .illFormed
      else .next (r.1.pinStep p (BitVec.ofNat 12 id) off err lines)
    | _ => .next s

end Sys2Proof.Machine
end

