-- ==== Sys2Proof/Machine/Ferry.lean ====
section
/-! DEFINITION. The Ferry (spec/05_command_buffers.md): inputs (R179), relocation (spec/03 R94 to R98), expansion (R177, R178),
slices (R183), parking (R187); and the Harbour's queue and loads (spec/03 R89 to R91). -/
namespace Sys2Proof.Machine

/-! ## Relocation (R94 to R96) -/

/-- One relocation: handle, offset, length, access (bit 0 read, 1 write, 2 atomic, 3 program), declared format. -/
structure RReq where
  h : Word
  off : Nat
  len : Nat
  acc : BitVec 4
  fmt : BitVec 6
deriving DecidableEq, Repr

/-- What a run of relocations gives: the addresses, the first fault's code, or the index that Harbour does not hold. -/
inductive Relocs where
  | ok (as : List Addr)
  | fault (code : Nat)
  | miss (idx : Nat)
deriving DecidableEq, Repr

/-- The checks of R95 after the first, on a handle-table entry. -/
def relocEntry (x : BitVec 256) (q : RReq) : Except Nat Addr :=
  let base := (x.extractLsb' 0 57).toNat
  let ext := (x.extractLsb' 64 48).toNat
  let w : Word := x.extractLsb' 128 32
  if !bit w 31 then .error 0x19
  else if w.extractLsb' 0 8 ≠ q.h.extractLsb' 24 8 then .error 0x1A
  else if w.extractLsb' 8 4 &&& q.acc ≠ q.acc then .error 0x1B
  else if ext < q.off + q.len then .error 0x1C
  else if w.extractLsb' 12 6 ≠ 0x3F ∧ q.fmt ≠ 0x3F ∧ w.extractLsb' 12 6 ≠ q.fmt then .error 0x1D
  else if 2 ^ 57 < base + q.off + q.len then .error 0x1C
  else .ok (BitVec.ofNat 57 (base + q.off))

/-- HT_BASE and HT_COUNT in line 0x00 of a record (R73). -/
def geomBase (l0 : Line) : Addr := (Line.w64 l0 0).extractLsb' 0 57
def geomCount (l0 : Line) : Nat := (Line.w32 l0 8 &&& 0x1FFFFFF).toNat

/-- The launch's pinned geometry is its context's present one (R97). -/
def Entry.sameGeom (e : Entry) (sl : Slot) : Bool :=
  let l0 := sl.recLines.getD 0 0
  decide (geomBase e.geom = geomBase l0) && decide (geomCount e.geom = geomCount l0)

/-- The handle entries that a launch is relocated against: Harbour's cache, or the launch's own reads when the context's table is
no longer the one that the launch has pinned (R97). -/
def Entry.handles (e : Entry) (sl : Slot) : List (Nat × BitVec 256) := if e.sameGeom sl then sl.cache else e.ownH

/-- Relocations in order, to the first fault or miss, in a table of `count` entries. -/
def relocs (count : Nat) (hs : List (Nat × BitVec 256)) : List RReq → Relocs
  | [] => .ok []
  | q :: qs =>
    let idx := (q.h.extractLsb' 0 24).toNat
    if count ≤ idx then .fault 0x18
    else match hs.find? (fun x => decide (x.1 = idx)) with
      | none => .miss idx
      | some x => match relocEntry x.2 q with
        | .error c => .fault c
        | .ok a => match relocs count hs qs with
          | .ok as => .ok (a :: as)
          | r => r

/-- A launch's relocations against the geometry it has pinned (R97). -/
def Entry.relocs (e : Entry) (sl : Slot) (qs : List RReq) : Relocs :=
  Sys2Proof.Machine.relocs (geomCount e.geom) (e.handles sl) qs

/-- The handle-cache entries that relocations used become the most recently used. -/
def Slot.touch (sl : Slot) (qs : List RReq) : Slot :=
  qs.foldl (fun sl q =>
    let idx := (q.h.extractLsb' 0 24).toNat
    { sl with cache := sl.cache.filter (fun x => decide (x.1 = idx)) ++ sl.cache.filter (fun x => decide (x.1 ≠ idx)) }) sl

/-- A launch that cannot go on gives back the thread that direct landing reserved (R204). -/
def State.unland (s : State) (k : EKey) : State :=
  match s.entry k with
  | some e => if e.core.isSome then s.unplace k else s
  | none => s

/-- A failed check of a whole launch. -/
def State.ferryFault (s : State) (k : EKey) (code : Nat) : State := (s.unland k).cbFault k code

/-- Count a relocation failure and log it (R96, R191): the event carries the handle, and the operation index where one applies,
beside R469's record, which has no field for them (DESIGN CHOICE, log entry 46). -/
def State.relocNote (s : State) (k : EKey) (e : Entry) (code sev : Nat) (op : Option Nat) (h : Word) : State :=
  let s := s.bump (rPART e.part 0x84)
  let s := match e.slot with
    | some n => let sl := s.slot n
      s.setSlot n { sl with recLines := sl.recLines.modify 1 (fun l => Line.put l 0x1C (satAdd (Line.w32 l 0x1C) 1)) }
    | none => s
  s.raiseLater { (ev pFERY code sev).ofEntry k e with handle := some h, index := op }

/-- PART.CTRL.LOSE_ON_RELOC. -/
def State.loseOnReloc (s : State) (p : BitVec 4) : Bool := s.flag (rPART p 0x40) 0

/-- A relocation failure of the whole launch, or any one under LOSE_ON_RELOC (R96, R157, R193). -/
def State.relocWhole (s : State) (k : EKey) (code : Nat) (op : Option Nat) (h : Word) : State :=
  match s.entry k with
  | none => s
  | some e =>
    let lose := s.loseOnReloc e.part
    let s := ((s.relocNote k e code (if lose then 3 else 1) op h).unland k).updEntry k (fun e => { e with ownReloc := lose })
    let s := s.refuseLaunch k ⟨3, BitVec.ofNat 8 code, BitVec.ofNat 8 (op.getD 0)⟩
    if lose then s.loseCtx e.part (e.ctx.extractLsb' 0 16) 0x01 (k.stream.setWidth 20) 0 else s

/-- A handle-cache miss: the entry leaves the Ferry while the entry's line is read (R98), from the table that the launch has
pinned (R97). -/
def State.missWait (s : State) (k : EKey) (n idx : Nat) : State :=
  match s.entry k with
  | none => s
  | some e =>
    let s := s.setEntry k (some { e with stage := .miss, missIdx := idx })
    let a := (geomBase e.geom + BitVec.ofNat 57 (32 * idx)) &&& ~~~63#57
    if !e.sameGeom (s.slot n) then s.read a 1 (.handleOwn k idx)
    else if s.mmp.any (fun r => decide (r.why = .handle n idx)) then s
    else s.read a 1 (.handle n idx)

/-- The handle of the first relocation that fails. -/
def Entry.badHandle (e : Entry) (sl : Slot) : List RReq → Word
  | [] => 0
  | q :: qs => match e.relocs sl [q] with
    | .fault _ => q.h
    | _ => e.badHandle sl qs

/-- A failure of the launch that is known before its inputs are read, and that the checks 0x01 to 0x06 come before in the order of
R191: BAD_DESC, TMPL_INVALID. -/
def Entry.early (e : Entry) : Option Nat :=
  if e.descBad then some 0x07 else if e.isTmpl ∧ !e.tpinned then some 0x08 else none

/-- Run relocations for a launch and go on with the addresses. A relocation fault comes after the early failures in the order of
R191. -/
def State.relocate (s : State) (k : EKey) (qs : List RReq) (go : State → List Addr → State) : State :=
  match s.entry k with
  | none => s
  | some e => match e.slot with
    | none => s
    | some n => match e.relocs (s.slot n) qs with
      | .ok as => go (s.setSlot n ((s.slot n).touch qs)) as
      | .fault c => match e.early with
        | some c' => s.ferryFault k c'
        | none => s.relocWhole k c none (e.badHandle (s.slot n) qs)
      | .miss i => s.missWait k n i

/-! ## Inputs (R179) -/

/-- Lines of an input: 1 and 2 the image or command buffer, 3 the patch list, 4 the constant buffer. -/
def Entry.inputPart (e : Entry) : Nat → List Line
  | 3 => e.pl
  | 4 => e.cst
  | _ => e.cb

/-- Replace the lines of an input. -/
def Entry.setInput (e : Entry) (part : Nat) (ls : List Line) : Entry :=
  match part with
  | 3 => { e with pl := ls }
  | 4 => { e with cst := ls }
  | _ => { e with cb := ls }

/-- Request lines `start` to `start + n - 1` of an input that begins at a line address; prefetched lines are not read again
(R181). The image cache always has room for them: what happens when its 1,792 lines are full is nowhere stated (DESIGN CHOICE, log
entry 49). -/
def State.issueInput (s : State) (k : EKey) (part : Nat) (base : Addr) (start n : Nat) : State :=
  let at' := fun i => base + BitVec.ofNat 57 (64 * i)
  let held := ((List.range n).map (fun i => (s.ferry.ahead.find? (fun x => decide (x.1 = k) && decide (x.2.1 = at' (start + i)))).map (·.2.2)))
  let got := (held.takeWhile (·.isSome)).map (fun x => x.getD 0)
  let left := n - got.length
  let s := s.updEntry k (fun e =>
    let ls := (e.inputPart part ++ List.replicate (start + n) 0).take (start + n)
    { e.setInput part (setLines ls start got) with waiting := e.waiting + ceilDiv left 8 })
  s.readLines (at' (start + got.length)) left (fun o => .input k part (start + got.length + o))

/-- Bytes of the lookup block of a lookup launch (R337). -/
def Entry.lkBytes (e : Entry) : Nat := 2 * lkM e.lkS e.lkN + 64

/-- The relocations that precede any input read (R157, R338). -/
def Entry.firstRelocs (e : Entry) : List RReq :=
  (if e.isTmpl then (if e.plInl then [] else [⟨e.mainH, e.mainOff, e.plLen, 1, 0x3F⟩])
   else if e.isDirect then [] else [⟨e.mainH, e.mainOff, 64, 1, 0x3F⟩]) ++
  (if e.etype = .lookupLaunch ∧ e.early.isNone then [⟨e.lkH, e.lkOff, e.lkBytes, 3, 0x3F⟩] else [])

/-- The relocation of a constant buffer given by handle (R157). -/
def Entry.constReloc (e : Entry) : RReq := ⟨e.constH, e.constOff, 256, 1, 0x3F⟩

/-- An inline patch list targets a constant buffer given by handle: the buffer's lines belong to the one round of reads (R179). A
relocation fault of the buffer is met later, in its place in the order of R191. -/
def State.constFirst (s : State) (e : Entry) (sl : Slot) : Bool :=
  e.plInl && e.constByHandle && e.early.isNone &&
    (match s.decodePl [e.extUnit.getD 0] e.plLen with | .ok rs => rs.any PRec.toConst | .error _ => false) &&
    (match e.relocs sl [e.constReloc] with | .fault _ => false | _ => true)

/-- The header of the launch's image, once it is in. -/
def Entry.header (e : Entry) : Line :=
  if e.isTmpl then e.cb.getD 0 0 else (alignLines e.cb (e.cbAddr.toNat % 64) 1).getD 0 0

/-- The first round of reads (R179). -/
def State.firstReads (s : State) (k : EKey) (as : List Addr) : State :=
  match s.entry k with
  | none => s
  | some e =>
    let a0 := as.getD 0 0
    let s := s.updEntry k (fun e => { e with asked := 3 })
    let s := if e.isTmpl then
        let s := if !e.tpinned then s else match s.pinned e.part e.tmplId e.tgen with
          | some img => s.updEntry k (fun e => { e with cb := img })
          | none => s.issueInput k 2 e.timg 0 e.tlines
        if e.plInl then
          let s := s.updEntry k (fun e => { e with pl := [e.extUnit.getD 0] })
          if as.isEmpty then s
          else (s.updEntry k (fun e => { e with constAddr := a0, constIn := true })).issueInput k 4 (a0 &&& ~~~63#57) 0 (linesOfExtent a0 256)
        else (s.updEntry k (fun e => { e with plAddr := a0 })).issueInput k 3 (a0 &&& ~~~63#57) 0 (linesOfExtent a0 e.plLen)
      else if e.isDirect then s
      else (s.updEntry k (fun e => { e with cbAddr := a0 })).issueInput k 1 (a0 &&& ~~~63#57) 0 (linesOfExtent a0 64)
    if e.etype = .lookupLaunch ∧ e.early.isNone then s.addLookup k e.part (as.getLastD 0) e.lkN e.lkS else s

/-- The version checks of a launch's header (R152), in the order of R191. -/
def State.versionCheck (s : State) (e : Entry) : Option Nat :=
  if !s.fmtOk 0x60 (if e.isDirect then e.dPver else hPver e.header) then some 0x0C
  else if !e.isTmpl ∧ !e.isDirect ∧ hTver e.header ≠ 0 then some 0x0D
  else none

/-- The relocation of the whole command buffer fails (R157). -/
def State.bufferFault (s : State) (e : Entry) : Bool :=
  match e.slot with
  | none => false
  | some n => match e.relocs (s.slot n) [⟨e.mainH, e.mainOff, 64 * hLines e.header, 1, 0x3F⟩] with
    | .fault _ => true
    | _ => false

/-- The header is in: its checks, then the rest of the command buffer (R157). A version check that fails as well comes before a
relocation fault in the order of R191. -/
def State.headerIn (s : State) (k : EKey) (e : Entry) : State :=
  let head := if e.isDirect ∨ (e.isTmpl ∧ !e.tpinned) then none
    else s.headCheck e.header (if e.isTmpl then e.tmplId.setWidth 16 else 0xFFFF)
  match head, e.early with
    | some code, _ => s.ferryFault k code
    | none, some code => s.ferryFault k code
    | none, none =>
      if e.isDirect ∨ e.isTmpl then s.updEntry k (fun e => { e with asked := 4 })
      else if s.bufferFault e ∧ (s.versionCheck e).isSome then s.ferryFault k ((s.versionCheck e).getD 0)
      else s.relocate k [⟨e.mainH, e.mainOff, 64 * hLines e.header, 1, 0x3F⟩] (fun s _ =>
        let n := linesOfExtent e.cbAddr (64 * hLines e.header)
        (s.updEntry k (fun e => { e with asked := 4 })).issueInput k 2 (e.cbAddr &&& ~~~63#57) e.cb.length (n - e.cb.length))

/-- The launch's image and patch list as whole lines. -/
def Entry.image (e : Entry) : List Line :=
  if e.isDirect then [] else if e.isTmpl then (e.cb ++ List.replicate 324 0).take (hLines e.header)
  else alignLines e.cb (e.cbAddr.toNat % 64) (hLines e.header)
def Entry.patchList (e : Entry) : List Line :=
  if e.plInl then e.pl else alignLines e.pl (e.plAddr.toNat % 64) (ceilDiv e.plLen 64)

/-- The records of the launch's patch list, or the code of R173; no template, no records. -/
def State.records (s : State) (e : Entry) (pl : List Line) : Except Nat (List PRec) :=
  if e.isTmpl then s.decodePl pl e.plLen else .ok []

/-- Image and patch list are in: the version checks and R173, then a constant buffer that the patch list targets (R179). -/
def State.imageIn (s : State) (k : EKey) (e : Entry) : State :=
  let img := e.image
  let pl := if e.isTmpl then e.patchList else []
  match s.records e pl with
  | .error c => s.ferryFault k c
  | .ok rs =>
    match s.versionCheck e with
    | some c => s.ferryFault k c
    | none =>
      let keep := fun (s : State) => s.updEntry k (fun e => { e with asked := 5, cb := img, pl := pl, cbAddr := 0, plAddr := 0 })
      if rs.any PRec.toConst ∧ e.constByHandle ∧ !e.constIn then
        s.relocate k [e.constReloc] (fun s as =>
          let a := as.getD 0 0
          ((keep s).updEntry k (fun e => { e with constAddr := a, constIn := true })).issueInput k 4 (a &&& ~~~63#57) 0 (linesOfExtent a 256))
      else (keep s).updEntry k (fun e => { e with constIn := e.inlc || e.constIn })

/-- An inconsistent patch record is logged (R175, R194). -/
def State.patchBad (s : State) (k : EKey) (op : Option Nat) : State :=
  match s.entry k with
  | none => s
  | some e =>
    let s := (s.bump (pageAddr pFERY 0x80)).raiseLater { (ev pFERY 0x14 1).ofEntry k e with index := op }
    s.setEntry k (some (e.failed ⟨2, 0x14, BitVec.ofNat 8 (op.getD 0)⟩))

/-- P_COUNT and OP_COUNT of the expanded launch (R153, R178). -/
def Entry.xP (e : Entry) : Nat :=
  if e.isDirect then (if e.xu then 16 else 0)
  else if e.xu ∧ !e.isTmpl then max (hP (e.cb.getD 0 0)) 16 else hP (e.cb.getD 0 0)
def Entry.xOps (e : Entry) : Nat := if e.isDirect then 0 else hOps (e.cb.getD 0 0)

/-- Everything is in: the working copy is made (R153, R175), and the launch is ready but for store room. -/
def State.prepare (s : State) (k : EKey) (e : Entry) : State :=
  let cst := if e.inlc then e.constUnits else if e.constIn then alignLines e.cst (e.constAddr.toNat % 64) 4 else []
  let rs := match s.records e e.pl with | .ok rs => rs | .error _ => []
  let img := if e.xu ∧ !e.isTmpl ∧ !e.isDirect then e.cb.set 1 (e.extUnit.getD 0) else e.cb
  let w := rs.foldl Work.apply ⟨img, if e.constIn then some cst else none, [], []⟩
  let s := w.bad.foldl (fun s b => s.patchBad k b) s
  let s := { s with ferry := { s.ferry with ahead := s.ferry.ahead.filter (fun x => !(decide (x.1.stream = k.stream) && decide (x.1.seq ≤ k.seq))) } }
  s.updEntry k (fun e =>
    let total := 1 + ceilDiv e.xP 16 + (if e.constIn then 4 else 0) + e.xOps
    { e with
      cb := w.img, cst := w.cst.getD [], skips := w.skips, prepared := true, stage := .ferry, total := total, lines := []
      decode := if e.isTmpl then ceilDiv e.plLen 64 - total else 0 })

/-- A context number that R80 and R105 refuse. -/
def State.ctxRange (s : State) (e : Entry) : Bool :=
  decide (e.ctx.extractLsb' 16 8 ≠ 0#8) || decide (s.num (rPART e.part 0x68) 0 17 ≤ (e.ctx.extractLsb' 0 16).toNat)

/-- One step of a launch at stage 4 or 5 before the Ferry emits it; none: it waits. -/
def State.advance1 (s : State) (k : EKey) : Option State :=
  match s.entry k with
  | none => none
  | some e =>
    if e.stage ≠ .input then none
    else if e.asked = 0 ∧ s.ctxRange e then some ((s.raise ((ev pHARB 0x01 1).ofEntry k e)).refuseLaunch k ⟨6, 0x01, 0⟩)
    else if e.asked = 0 ∧ s.destroying e then some (s.refuseLaunch k ⟨6, 0, 0⟩)
    else if e.waiting ≠ 0 then none
    else if e.inErr then some (s.ferryFault k 0x01)
    else match e.asked with
      | 0 =>
        match s.takeCtx k e.part (e.ctx.extractLsb' 0 16) with
        | some t => some (t.updEntry k (fun e => { e with asked := 1 }))
        | none => some (match e.early with
          | some c => if s.parkValid then s.enqueueHarb k else s.ferryFault k c
          | none => s.enqueueHarb k)
      | 1 => match e.slot with
        | none => none
        | some n =>
          let sl := s.slot n
          if sl.st = .loading ∨ sl.geomWait then none
          else some (s.updEntry k (fun e => { e with
            asked := 2, htGen := some (Line.w32 (sl.recLines.getD 1 0) 4), geom := sl.recLines.getD 0 0, ownH := [] }))
      | 2 => match e.slot with
        | none => none
        | some n =>
          let qs := e.firstRelocs ++ (if s.constFirst e (s.slot n) then [e.constReloc] else [])
          some (s.relocate k qs (fun s as => s.firstReads k as))
      | 3 => some (s.headerIn k e)
      | 4 => some (s.imageIn k e)
      | _ => some (s.prepare k e)

/-- A launch goes on as far as it can. -/
def State.advanceN (s : State) (k : EKey) : Nat → State
  | 0 => s
  | n + 1 => match s.advance1 k with
    | none => s
    | some t => t.advanceN k n

/-- A launch goes on as far as it can: there are at most seven steps. -/
def State.advance (s : State) (k : EKey) : State := s.advanceN k 8

/-- A launch has been released (stage 4 begins): a context number that R105 refuses ends it before anything is read for it. -/
def State.enter4 (s : State) (k : EKey) : State :=
  let s := s.updEntry k (fun e => { e with stage := .input })
  match s.entry k with
  | none => s
  | some e => if s.ctxRange e then s.advance k else (s.pinTmpl k).advance k

/-- A launch of which the context has become resident goes on: to its inputs, or from its park to stage 7 (R16). -/
def State.ctxReady (s : State) (k : EKey) : State :=
  match s.entry k with
  | none => s
  | some e => match e.slot with
    | none => s
    | some n =>
      if (s.slot n).st = .loading then s
      else if e.stage = .readback ∧ !e.inPark ∧ e.waiting = 0 then s.enter7 k
      else s.advance k

/-! ## What waits for others -/

/-- Retire a partition's old epoch once none of its launches is live (R304, R305). -/
def State.tideRetire (s : State) (p : BitVec 4) : State :=
  if s.flag (rTIDE p 8) 29 ∧ s.num (rTIDE p 0xC) 16 16 = 0 then
    let s := s.setBit (rTIDE p 8) 29 false
    let so := s.rd (rTIDE p 0x10)
    let s := if bit so 31 then s.offer .tide [⟨.signal, so.extractLsb' 0 14, (s.cur p).setWidth 64⟩] none else s
    (s.allEntries.filter (fun x => decide (x.2.part = p) && decide (x.2.etype = .epochAdvance) && decide (x.2.stage = .point) &&
      decide (x.2.pairDone = 3))).foldl (fun s x => (s.headLeaves x.1).enterLanding x.1) s
  else s

/-- What follows when launches have completed or have left stage 4: retirements (R304), DESTROY (R85), template commands
(R164), read-backs that wait for store room (R187), launches that wait for a geometry (R97), draining ports (R510). -/
def State.settle (s : State) : State :=
  let s := s.drainPorts
  let s := ((List.range 16).map (BitVec.ofNat 4)).foldl (fun s p => ((s.tideRetire p).destroyTry p).tmplTry p) s
  (s.allEntries.map (·.1)).foldl (fun s k => match s.entry k with
    | some e => if e.stage = .readback then s.tryReadback k else if e.stage = .input then s.advance k else s
    | none => s) s

/-! ## Expansion (R177, R178) -/

/-- The relocations of the launch block (R157). -/
def Entry.blockRelocs (e : Entry) : List RReq :=
  let h := e.cb.getD 0 0
  (if e.isDirect then ⟨e.mainH, e.mainOff, e.dProgLen, 8, 0x3F⟩ else ⟨hProg h, hProgOff h, hProgLen h, 8, 0x3F⟩) ::
  (if e.constByHandle ∧ !e.constIn then [⟨e.constH, e.constOff, 256, 1, 0x3F⟩] else [])

/-- The launch block (R178). -/
def Entry.block (e : Entry) (k : EKey) (as : List Addr) : Line :=
  let h := e.cb.getD 0 0
  let len : BitVec 16 := BitVec.ofNat 16 (if e.isDirect then e.dProgLen else hProgLen h)
  let w8 : Word := ofBool e.constIn ++ BitVec.ofNat 6 e.xP ++ BitVec.ofNat 9 e.xOps ++ (if len = 0x8000#16 then 0 else len)
  let wC : Word := 0#6 ++ (e.part.setWidth 6) ++ (k.stream.setWidth 20)
  let w10 : Word := 0#5 ++ ofBool (e.fails.any (fun f => f.status == 2)) ++ 0#2 ++ e.ctx
  let w30 : Word := if e.isTmpl then e.tgen ++ (e.tmplId.setWidth 16) else 0x0000FFFF
  let lo : BitVec 256 := e.cookie ++ ((if e.isDirect then 0 else hWcet h) ++ w10) ++ (wC ++ w8) ++ ((as.getD 0 0).setWidth 64)
  let hi : BitVec 256 := (0#32 ++ e.htGen.getD 0) ++ (e.tag ++ w30) ++ ((as.getD 1 0).setWidth 64) ++ e.seed
  hi ++ lo

/-- The core on which a launch lands directly, decided as the first line is emitted (R204). -/
def State.landsOn (s : State) (e : Entry) (blk : Line) : Option (BitVec 4) :=
  let holds : Bool := match e.waitUnit with
    | none => true
    | some u => (List.range 4).all (fun i =>
        let w := Line.w64 u (16 * i + 8)
        !bit w 63 || (decide (w.extractLsb' 60 3 = 0#3) && (s.obj (pairSo w)).holds (Line.w64 u (16 * i))))
  if holds ∧ e.etype ≠ .lookupLaunch ∧ !s.startHeld e ∧ !s.ctxGone e then
    s.mostFree (allCores.filter (fun c => let co := s.core c
      s.fit c (blkOps blk) && (co.bank co.active).has (progKey e.part blk)))
  else none

/-- Emit the launch block. -/
def State.emitBlock (s : State) (k : EKey) (e : Entry) : State :=
  s.relocate k e.blockRelocs (fun s as =>
    let b := e.block k as
    let s := s.updEntry k (fun e => { e with lines := [b], progAddr := as.getD 0 0, constAddr := as.getD 1 0 })
    match s.landsOn e b with
    | some c => s.placeOn k c [] (blkOps b) false
    | none => s)

/-- An operation is skipped as it is expanded: it stays as a NOP, and the launch block's bits are set (R192). -/
def State.emitSkip (s : State) (k : EKey) (l : Line) (reloc : Bool) : State :=
  s.updEntry k (fun e => { e with lines := (e.lines ++ [nopLine l]).modify 0 (fun b =>
    Line.put b 0x10 (Line.w32 b 0x10 ||| (1#32 <<< 25) ||| (if reloc then 1#32 <<< 24 else 0))) })

/-- The relocation of operand slot j (R155, R156). -/
def opndReq (img : List Line) (l : Line) (j : Nat) : RReq :=
  let o := opndOff (img.getD 0 0) (Line.byte l (0x10 + j)).toNat
  let w := bytesAt 64 img (o + 8) 8
  let acc : BitVec 4 := 0#1 ++ w.extractLsb' 56 1 ++ w.extractLsb' 55 1 ++ w.extractLsb' 54 1
  ⟨bytesAt 32 img o 4, (w.extractLsb' 0 48).toNat, (bytesAt 32 img (o + 4) 4).toNat, acc, w.extractLsb' 48 6⟩

/-- Write relocated addresses into the BODY words of the used slots. -/
def putBody (l : Line) : List (Nat × Addr) → Line
  | [] => l
  | (j, a) :: rest => putBody (Line.put l (0x20 + 8 * j) ((Line.w64 l (0x20 + 8 * j)).extractLsb' 57 7 ++ a)) rest

/-- Emit operation i (R156, R183, R191). The reserved bits of its line reach the expanded launch as the image holds them: R177 asks
only for the format of R154 (DESIGN CHOICE, log entry 50). -/
def State.emitOp (s : State) (k : EKey) (e : Entry) (i : Nat) : State :=
  let h := e.cb.getD 0 0
  let l := imgOp e.cb i
  let w := Line.w32 l 0
  let ports := s.portsOf e.part
  let noPort := if bit w 9 then !ports.any (fun n => decide (s.num (rEPRT n 0x40) 0 4 = (w.extractLsb' 24 4).toNat))
    else decide (ports.length ≤ (w.extractLsb' 16 7).toNat)
  if e.skips.contains i then (s.bump (pageAddr pFERY 0x84)).emitSkip k l false
  else match opCheck h l i noPort with
    | some code =>
      let s := (s.bump (pageAddr pFERY 0x84)).raiseLater { (ev pFERY code 1).ofEntry k e with index := some i }
      (s.updEntry k (fun e => e.failed ⟨1, BitVec.ofNat 8 code, BitVec.ofNat 8 i⟩)).emitSkip k l false
    | none =>
      let plain := fun (s : State) (l : Line) => s.updEntry k (fun e => { e with lines := e.lines ++ [l] })
      if opKind l = 0 then plain s l
      else
        let slots := (List.range 4).filter (slotUsed l)
        match e.slot with
        | none => s
        | some n =>
          let qs := slots.map (opndReq e.cb l)
          match e.relocs (s.slot n) qs with
          | .ok as => plain (s.setSlot n ((s.slot n).touch qs)) (putBody l (slots.zip as))
          | .miss x => s.missWait k n x
          | .fault c =>
            let bad := e.badHandle (s.slot n) qs
            if s.loseOnReloc e.part then s.relocWhole k c (some i) bad
            else ((s.relocNote k e c 1 (some i) bad).updEntry k (fun e => e.failed ⟨3, BitVec.ofNat 8 c, BitVec.ofNat 8 i⟩)).emitSkip k l true

/-- Emit the next line of a launch (R177). -/
def State.emit (s : State) (k : EKey) (e : Entry) : State :=
  let n := e.lines.length
  let pls := ceilDiv e.xP 16
  let cls := if e.constIn then 4 else 0
  if n = 0 then s.emitBlock k e
  else if n ≤ pls then
    let src := if e.isDirect then e.extUnit.getD 0 else e.cb.getD n 0
    let words := e.xP - 16 * (n - 1)
    let l := if 16 ≤ words then src else src &&& BitVec.ofNat 512 (2 ^ (32 * words) - 1)
    s.updEntry k (fun e => { e with lines := e.lines ++ [l] })
  else if n ≤ pls + cls then s.updEntry k (fun e => { e with lines := e.lines ++ [e.cst.getD (n - 1 - pls) 0] })
  else s.emitOp k e (n - 1 - pls - cls)

/-- The last line is emitted: stage 6, and for a launch that lands directly stage 8 (R183, R204). -/
def State.ferryDone (s : State) (k : EKey) : State :=
  let s := ((s.bump (pageAddr pFERY 0x78)).freeChan k.stream).stage6 k 0
  match s.entry k with
  | none => s
  | some e => match e.core, e.thread with
    | some c, some t =>
      if e.stage = .place ∧ !s.startHeld e then
        let th := s.thread c t
        let s := s.setThread c t { th with lines := e.lines, slots := paramSlots e.lines, arrived := e.lines.length }
        (s.updEntry k (fun e => { e with store := 0 })).tryStart c t
      else s.backTo8 k
    | _, _ => s

/-- The ready launch of a channel (R179): its lines have room in the expansion store, or had it before. -/
def State.chanReady (s : State) (c : Nat) : Option EKey :=
  match Tbl.get (fun _ => none) s.fetch.chans c with
  | none => none
  | some n => match (s.stream n).head with
    | none => none
    | some q => match s.entry ⟨n, q⟩ with
      | some e => if e.stage = .ferry ∧ (e.store ≠ 0 ∨ s.storeUsed + e.total ≤ 2048) then some ⟨n, q⟩ else none
      | none => none

/-- Lookup launches that the store cannot accept close their partitions' windows (R190). -/
def State.storeFull (s : State) : State :=
  (s.allEntries.filter (fun x => decide (x.2.stage = .ferry) && decide (x.2.etype = .lookupLaunch) && decide (x.2.store = 0) &&
    decide (2048 < s.storeUsed + x.2.total))).foldl (fun s x => s.closeOpen x.2.part 6) s

/-- Prefetched input lines of an entry that is not released yet (R181). -/
def State.aheadIn (s : State) (k : EKey) (a : Addr) (lines : List Line) : State :=
  if (s.stream k.stream).serial ≠ k.seq then s
  else { s with ferry := { s.ferry with ahead := s.ferry.ahead ++ lines.mapIdx (fun i l => (k, a + BitVec.ofNat 57 (64 * i), l)) } }

/-- FERRY_INPUT_READY (R179): input lines of a launch return. An MMP error on the directory line at the pin is taken for an input's error,
CB_READ: R169 and R191 name none for it (DESIGN CHOICE, log entry 53). -/
def execFerryInputReady (stream : BitVec 14) (mtag : BitVec 8) (gen : BitVec 4) (err : Bool) (lines : List Line) (s : State) :
    Host.Outcome State Fault Refusal :=
  let r := s.answer true mtag gen
  match r.2 with
  | none => .next r.1
  | some q => match q.why with
    | .input k part off =>
      if k.stream ≠ stream then .next s
      else if lines.length * 64 ≠ q.len ∧ !err then .fault .illFormed
      else match r.1.entry k with
        | none => .next r.1
        | some e =>
          let s := r.1.setEntry k (some { e with waiting := e.waiting - 1, inErr := e.inErr || err })
          let s := if err then s
            else if part = 0 then
              let d := match s.dirGet e.part e.tmplId with
                | some d => d
                | none => DirEntry.ofLine (lines.getD 0 0) (e.tmplId.toNat % 2)
              (s.dirPut e.part e.tmplId d).pinEntry k d
            else s.updEntry k (fun e => e.setInput part (setLines (e.inputPart part) off lines))
          .next (s.advance k).settle
    | .ahead k a live =>
      if k.stream ≠ stream then .next s
      else if lines.length * 64 ≠ q.len ∧ !err then .fault .illFormed
      else if err ∨ !live then .next r.1 else .next (r.1.aheadIn k a lines)
    | _ => .next s

/-! ## Harbour (R80, R89 to R93) -/

/-- Launches that wait for a slot's load. -/
def State.loadWaiters (s : State) (n : Nat) : List EKey :=
  (s.allEntries.filter (fun x => decide (x.2.slot = some n) && !x.2.recDone &&
    (decide (x.2.stage = .input) || decide (x.2.stage = .reenter) || decide (x.2.stage = .readback)))).map (·.1)

/-- A launch that waits for its context leaves every queue. -/
def State.leaveQueues (s : State) (k : EKey) : State :=
  let s := { s with harb := { s.harb with queue := s.harb.queue.filter (· ≠ k) }, fetch := { s.fetch with reenter := s.fetch.reenter.filter (· ≠ k) } }
  s.updStream k.stream (fun x => { x with harbQ := false, waitValue := 0, waitTarget := 0 })

/-- The four lines of a loaded record: the staged copy's lines win over memory's (R93). -/
def State.recordOf (s : State) (sl : Slot) (lines : List Line) : List Line :=
  let ls := if sl.missing = 1 then lines.take 1 ++ sl.recLines.drop 1 else lines
  match s.harb.staged.find? (fun x => decide (x.part = sl.part) && decide (x.ctx = sl.ctx) && !x.full) with
  | some x => ls.set 1 (x.lines.getD 1 0)
  | none => ls

/-- HARBOUR_RECORD_ARRIVES (R80, R89). -/
def execHarbourRecordArrives (mtag : BitVec 8) (gen : BitVec 4) (err : Bool) (lines : List Line) (s : State) :
    Host.Outcome State Fault Refusal :=
  let r := s.answer true mtag gen
  match r.2 with
  | none => .next r.1
  | some q => match q.why with
    | .ctxLoad n =>
      if lines.length * 64 ≠ q.len ∧ !err then .fault .illFormed
      else
        let s := r.1
        let sl := s.slot n
        let ws := s.loadWaiters n
        if sl.st ≠ .loading then .next s
        else if err then
          let s := ws.foldl (fun s k => (s.leaveQueues k).cbFault k 0x01) s
          let waits := s.harb.changes.any (fun x => decide (x.1 = sl.part) && decide (x.2.1 = sl.ctx))
          let s := if waits then s.read (s.ctxAddr sl.part sl.ctx + 0x40) 1 (.ctxMod sl.part sl.ctx) else s
          .next ((s.freeSlot n).ctxCmdLoaded sl.part sl.ctx).settle
        else
          let waits := s.harb.changes.any (fun x => decide (x.1 = sl.part) && decide (x.2.1 = sl.ctx))
          let ls := s.recordOf sl lines
          let a := s.applyChanges sl.part sl.ctx (ls.getD 1 0)
          let ls := ls.set 1 a.2
          let s := a.1.setSlot n { sl with st := .busy, recLines := ls, missing := 0 }
          if !recValid a.2 ∨ recLost a.2 then
            let s := ws.foldl (fun s k => (s.leaveQueues k).refuseLaunch k ⟨6, 0, 0⟩) s
            let s := if waits then s.stageLine1 sl.part sl.ctx a.2 else s
            .next ((s.freeSlot n).ctxCmdLoaded sl.part sl.ctx).settle
          else
            let s := ws.foldl State.ctxReady (s.ctxCmdLoaded sl.part sl.ctx)
            .next (s.slotIdle n).settle
    | _ => .next s

/-- The Harbour queue in the order of R91: requests of partitions below their minimum first. -/
def State.harbOrder (s : State) : List EKey :=
  let low := fun k => match s.entry k with | some e => decide (s.resident e.part < s.quotaMin e.part) | none => false
  s.harb.queue.filter low ++ s.harb.queue.filter (fun k => !low k)

/-- A request of the Harbour queue has a slot: the launch re-enters through a channel (R182), or goes on from its park (R16). -/
def State.served (s : State) (k : EKey) : State :=
  let s := s.leaveQueues k
  match s.entry k with
  | none => s
  | some e =>
    if e.prepared then (s.setEntry k (some { e with stage := .readback, inPark := false })).ctxReady k
    else { s.setEntry k (some { e with stage := .reenter, asked := 1 }) with fetch := { s.fetch with reenter := s.fetch.reenter ++ [k] } }

/-- A request of the Harbour queue of which the context is being destroyed is over: the launch is CTX_LOST (R80, R85). -/
def State.serveLost (s : State) (k : EKey) : State := (s.leaveQueues k).refuseLaunch k ⟨6, 0, 0⟩

/-- HARBOUR_QUEUE_SERVE (R91): the first request that may have a slot is served. -/
def execHarbourQueueServe (s : State) : Host.Outcome State Fault Refusal :=
  match s.harbOrder.find? (fun k => match s.entry k with | some e => s.destroying e | none => false) with
  | some k => .next (s.serveLost k)
  | none =>
    match s.harbOrder.findSome? (fun k => match s.entry k with
        | some e => (s.takeCtx k e.part (e.ctx.extractLsb' 0 16)).map (fun t => (k, t))
        | none => none) with
    | none => .next s
    | some (k, t) => .next (t.served k)

/-- The entry of a handle-table line. -/
def handleBits (base : Addr) (idx : Nat) (l : Line) : BitVec 256 :=
  if (base.toNat + 32 * idx) % 64 = 0 then l.extractLsb' 0 256 else l.extractLsb' 256 256

/-- HANDLE_ENTRY_RETURN (R98): the entry enters the handle cache, the least recently used of 120 leaving it (R88), and the
launches that wait for it go on; one that an invalidation has overtaken is read again (R99). -/
def execHandleEntryReturn (mtag : BitVec 8) (gen : BitVec 4) (err : Bool) (lines : List Line) (s : State) :
    Host.Outcome State Fault Refusal :=
  let r := s.answer true mtag gen
  match r.2 with
  | none => .next r.1
  | some q => match q.why with
    | .handle n i =>
      if lines.length * 64 ≠ q.len ∧ !err then .fault .illFormed
      else
        let s := r.1
        let old := decide (staleHandle ≤ i)
        let idx := if old then i - staleHandle else i
        let sl := s.slot n
        let ws := (s.allEntries.filter (fun x => decide (x.2.stage = .miss) && decide (x.2.slot = some n) && decide (x.2.missIdx = idx))).map (·.1)
        if old ∧ s.mmp.any (fun m => decide (m.why = .handle n idx)) then .next s
        else if err then .next (ws.foldl (fun s k => s.ferryFault k 0x01) s).settle
        else
          let s := if old then s else
            s.setSlot n { sl with cache := (idx, handleBits (geomBase (sl.recLines.getD 0 0)) idx (lines.getD 0 0)) :: (sl.cache.filter (fun x => decide (x.1 ≠ idx))).take 119 }
          .next (ws.foldl (fun s k =>
            (s.updEntry k (fun e => { e with stage := if e.prepared then .ferry else .input })).advance k) s).settle
    | .handleOwn k idx =>
      if lines.length * 64 ≠ q.len ∧ !err then .fault .illFormed
      else match r.1.entry k with
        | none => .next r.1
        | some e =>
          if e.stage ≠ .miss ∨ e.missIdx ≠ idx then .next r.1
          else if err then .next (r.1.ferryFault k 0x01).settle
          else .next ((r.1.setEntry k (some { e with
            stage := if e.prepared then .ferry else .input, ownH := (idx, handleBits (geomBase e.geom) idx (lines.getD 0 0)) :: e.ownH })).advance k).settle
    | _ => .next s

/-! ## Parking (R16, R187) -/

/-- A park-slot access of a launch has failed (R187). -/
def State.parkFail (s : State) (k : EKey) : State :=
  let s := (s.voidWaiters (fun j => decide (j = k))).leaveQueues k
  match s.entry k with
  | some e =>
    if e.stage = .parked ∨ e.stage = .fence ∨ e.stage = .readback ∨ e.stage = .harbQueue ∨ e.stage = .reenter then s.cbFault k 0x0E else s
  | none => s

/-- PARK_WRITE_ACK (R187). -/
def execParkWriteAck (mtag : BitVec 8) (gen : BitVec 4) (err : Bool) (s : State) : Host.Outcome State Fault Refusal :=
  let r := s.answer false mtag gen
  match r.2 with
  | none => .next r.1
  | some q => match q.why with
    | .park k =>
      let s := r.1.updEntry k (fun e => { e with parkAcks := e.parkAcks - 1, store := if e.parkAcks ≤ 1 ∧ e.inPark then 0 else e.store })
      .next ((if err then s.parkFail k else s).settle)
    | _ => .next s

/-- PARK_READBACK_RETURN (R16, R182, R187). -/
def execParkReadbackReturn (mtag : BitVec 8) (gen : BitVec 4) (err : Bool) (lines : List Line) (s : State) :
    Host.Outcome State Fault Refusal :=
  let r := s.answer true mtag gen
  match r.2 with
  | none => .next r.1
  | some q => match q.why with
    | .unpark k off =>
      if lines.length * 64 ≠ q.len ∧ !err then .fault .illFormed
      else if err then .next (r.1.parkFail k).settle
      else match r.1.entry k with
        | none => .next r.1
        | some e =>
          let e := { e with waiting := e.waiting - 1 }
          let e := if e.prepared then { e with lines := setLines e.lines off lines } else { e with units := setLines e.units off lines }
          let s := r.1.setEntry k (some e)
          if e.waiting ≠ 0 then .next s
          else
            let s := s.updEntry k (fun e => { e with inPark := false })
            if !e.prepared then .next ((s.updEntry k (fun e => { e with stage := .input })).advance k).settle
            else if s.destroying e then .next (s.refuseLaunch k ⟨6, 0, 0⟩).settle
            else match s.takeCtx k e.part (e.ctx.extractLsb' 0 16) with
              | some t => .next (t.ctxReady k).settle
              | none => .next (s.enqueueHarb k).settle
    | _ => .next s

/-- CTX_CMD_DONE (R78): an access of a partition's context command has returned; a reset that ends the command leaves it without
further effect (R79). -/
def execCtxCmdDone (p : BitVec 4) (write : Bool) (mtag : BitVec 8) (gen : BitVec 4) (err : Bool) (lines : List Line) (s : State) :
    Host.Outcome State Fault Refusal :=
  let r := s.answer (!write) mtag gen
  match r.2 with
  | none => .next r.1
  | some q => match q.why with
    | .ctxCmd p' _ =>
      if p' ≠ p then .next s
      else if !write ∧ !err ∧ lines.length * 64 ≠ q.len then .fault .illFormed
      else if r.1.resetting p then .next r.1
      else match r.1.ctxCmd p with
        | none => .next r.1
        | some c => .next (r.1.ctxCmdStep p c write err lines).settle
    | _ => .next s

end Sys2Proof.Machine
end

