-- ==== Sys2Proof/Machine/Streams.lean ====
section
/-! DEFINITION. Streams, rings and doorbells (spec/04_streams_and_rings.md): doorbells, stream states, fetch channels, the
descriptor cache, the checks and the release of entries, and the points of the non-launch entries. -/
namespace Sys2Proof.Machine

/-! ## Doorbell page (R124 to R127, R134, R142) -/

/-- A write from outside for a function breaks the timing of its partition's run (R455). -/
def State.funcBreak (s : State) (f : BitVec 12) : State := match s.partOf f with | some p => s.timingBreak p | none => s

/-- What a doorbell does to its stream (R125, R127). -/
def State.ring (s : State) (n : BitVec 14) (pi : BitVec 16) : State :=
  let st := s.stream n
  if st.st = .disabled ∨ st.st = .draining ∨ st.st = .faulted then s.bump (pageAddr pFTCH 0x60)
  else
    let hint := BitVec.ofNat 16 (pi.toNat % 2 ^ st.log2.toNat)
    let s := s.setStream n { st with hint := hint, dbCount := st.dbCount + 1, dbPending := true }
    if st.st = .idle then s.queueReady n true else s

/-- A doorbell write of a bound function (R125, R127, R455). -/
def State.doorbell (s : State) (n : BitVec 14) (pi : BitVec 16) : State := (s.funcBreak (funcOf n)).ring n pi

/-- PAUSE written 1 (R142). -/
def State.pauseStream (s : State) (n : BitVec 14) : State :=
  let st := s.stream n
  if st.st = .ready ∨ st.st = .idle then (s.unqueue n).setStream n { st with pause := true, st := .paused }
  else s.setStream n { st with pause := true }

/-- PAUSE written 0 (R142): a read after a resume that found a doorbell pending is started by it (R126). -/
def State.resumeStream (s : State) (n : BitVec 14) : State :=
  let st := s.stream n
  let s := s.setStream n { st with pause := false }
  if st.st = .paused then
    (if st.dbPending ∨ st.hint ≠ st.cons then s.queueReady n st.dbPending else s.updStream n (fun x => { x with st := .idle }))
  else s

/-- Prefetch reads of a stream's ring that are under way are not wanted any more (R134). -/
def State.dropAhead (s : State) (n : BitVec 14) : State :=
  { s with mmp := s.mmp.map (fun r => match r.why with
    | .ring m pos _ true => if m = n then { r with why := .ring m pos 0 true } else r
    | _ => r) }

/-- INVAL (R134): the stream's cached units and what was prefetched for unreleased entries go. A fetch in progress has taken
its units out of the cache's keeping. -/
def State.invalStream (s : State) (n : BitVec 14) : State :=
  let s := (s.dropAhead n).aheadDrop (fun k => decide (k.stream = n) && decide ((s.stream n).serial ≤ k.seq))
  { s with fetch := { s.fetch with cache := s.fetch.cache.filter (fun x => x.1 ≠ n) } }

/-! ## Enabling and disabling (R139, R142) -/

/-- Unit pages whose EN gates the enabling of streams (R139, R632). -/
def State.unitPages (s : State) : List Nat :=
  [pBCON, 0x08, 0x09, 0x0A, 0x0B, 0x0C, 0x0D, 0x0E, 0x0F, pSHOL, pSYNC, pDISP, pHARB, pAUDT, pDBUG, pSCAL] ++
    (List.range 16).map (0xB0 + ·) ++ (List.range s.ecpCount).map (0x30 + ·)

/-- A write of FETCH.STREAM_CTRL.EN = 1 for a stream (R139, R446). Units that the descriptor cache still holds from before are dropped:
whether they survive a disabling or a fault is nowhere stated (DESIGN CHOICE, log entry 51). -/
def State.streamEnable (s : State) (n : BitVec 14) : State :=
  let st := s.stream n
  if st.st = .draining then s.setErr pFTCH 16
  else if st.st ≠ .disabled then s
  else
    let bound : Bool := match s.partOf (funcOf n) with | some p => s.partEn p | none => false
    if bound ∧ s.unitPages.all s.pageEn ∧ 4 ≤ st.log2.toNat ∧ st.log2.toNat ≤ 16 ∧ st.startPos.toNat < 2 ^ st.log2.toNat then
      (s.invalStream n).setStream n { st with
        st := .idle, ctrlEn := true, cons := st.startPos, fetchPos := st.startPos, phase := st.startPhase, hint := st.startPos
        entries := 0, faultCode := 0, dbPending := false, dbStarted := false, got := [], fetching := false }
    else s.setErr pFTCH 17

/-- A write of FETCH.STREAM_CTRL.EN = 0 for a stream (R142). -/
def State.streamDisable (s : State) (n : BitVec 14) : State :=
  let st := s.stream n
  if st.st = .disabled then s
  else ((s.unqueue n).setStream n { st with st := .draining, ctrlEn := false }).drained n

/-! ## The descriptor cache (R128 to R131) -/

/-- A cached unit. -/
def State.cached (s : State) (n : BitVec 14) (pos : BitVec 16) : Option Line :=
  (s.fetch.cache.find? (fun x => decide (x.1 = n) && decide (x.2.1 = pos))).map (·.2.2)

/-- Drop the least recently used unit of a stream that is not being fetched: the last such of a list. -/
def dropUnit (busy : BitVec 14 → Bool) : List (BitVec 14 × BitVec 16 × Line) → List (BitVec 14 × BitVec 16 × Line)
  | [] => []
  | x :: xs => if xs.any (fun y => !busy y.1) then x :: dropUnit busy xs else if busy x.1 then x :: xs else xs

/-- Put a unit into the cache (R131). -/
def State.cachePut (s : State) (n : BitVec 14) (pos : BitVec 16) (l : Line) : State :=
  let rest := s.fetch.cache.filter (fun x => !(decide (x.1 = n) && decide (x.2.1 = pos)))
  let rest := if rest.length < 4096 then rest else dropUnit (fun m => (s.stream m).fetching) rest
  { s with fetch := { s.fetch with cache := if rest.length < 4096 then (n, pos, l) :: rest else rest } }

/-- The position `d` units after another (R100). -/
def posAdd (log2 : BitVec 5) (pos : BitVec 16) (d : Nat) : BitVec 16 := BitVec.ofNat 16 ((pos.toNat + d) % 2 ^ log2.toNat)

/-- Address of a unit (R100). -/
def StreamE.unitAddr (st : StreamE) (pos : BitVec 16) : Addr := (st.ringBase ++ 0#12) + (pos.setWidth 57 <<< 6)

/-- d of R128. -/
def StreamE.ahead (st : StreamE) : Nat := (st.hint.toNat + 2 ^ st.log2.toNat - st.cons.toNat) % 2 ^ st.log2.toNat

/-- Read `units` of the entry at CONS, from unit `from'` on. -/
def State.ringRead (s : State) (n : BitVec 14) (from' units : Nat) : State :=
  let st := s.stream n
  let pos := posAdd st.log2 st.cons from'
  (s.setStream n { st with fetchPos := posAdd st.log2 st.cons (from' + units) }).read (st.unitAddr pos) units (.ring n pos units false)

/-- Cached units of a stream from a position on, at most `m`. -/
def State.cachedRun (s : State) (n : BitVec 14) (log2 : BitVec 5) (pos : BitVec 16) : Nat → List Line
  | 0 => []
  | m + 1 => match s.cached n pos with
    | none => []
    | some l => l :: s.cachedRun n log2 (posAdd log2 pos 1) m

/-! ## Entries (R103 to R113, R146) -/

/-- Units that an entry's header says it has; a PAD has LEN + 1 (R106, R107). -/
def unitCount (t : EType) (w : Word) : Nat :=
  match t with
  | .pad => (w.extractLsb' 27 3).toNat + 1
  | .nop | .barrier | .modelSwitch | .epochAdvance => 1
  | .wait | .signal => 2
  | _ => 1 + (if bit w 1 then 1 else 0) + (if bit w 2 then 1 else 0) + (if bit w 3 then 4 else 0) + (if bit w 4 then 1 else 0)

/-- A used pair is invalid (R111). -/
def State.pairBad (s : State) (p : BitVec 4) (u : Line) (i : Nat) (wait : Bool) : Bool :=
  let w := Line.w64 u (16 * i + 8)
  let kind := (w.extractLsb' 60 3).toNat
  bit w 63 && (decide (1 < kind) ||
    (if wait && kind == 1 then decide (w.extractLsb' 0 3 ≠ 0#3)
     else decide (w.extractLsb' 20 37 ≠ 0#37) || !s.soIn p (w.extractLsb' 0 20).toNat))

/-- A unit has an invalid pair. -/
def State.unitBad (s : State) (p : BitVec 4) (u : Line) (wait : Bool) : Bool := (List.range 4).any (fun i => s.pairBad p u i wait)

/-- The checks of R146 on a header with OWN = 1, up to BAD_MODEL, in order; otherwise the entry's type. -/
def State.headerCheck (s : State) (n : BitVec 14) (h : Line) : Except (BitVec 8) EType :=
  let st := s.stream n
  let w := Line.w32 h 0
  if w.extractLsb' 30 1 ≠ st.phase then .error 0x05
  else if !s.fmtOk 0x50 (w.extractLsb' 20 4).toNat then .error 0x02
  else match EType.ofCode (w.extractLsb' 16 4).toNat with
    | none => .error 0x01
    | some t =>
      let units := (w.extractLsb' 27 3).toNat + 1
      let owner := match s.partOf (funcOf n) with | some p => decide (s.fld (rPART p 0x6C) 0 12 = funcOf n) | none => false
      if units ≠ unitCount t w then .error 0x03
      else if 2 ^ st.log2.toNat < st.cons.toNat + units then .error 0x04
      else if (t = .tableUpdate ∨ t = .epochAdvance) ∧ classOf n ≠ 2#2 then .error 0x06
      else if t = .modelSwitch ∧ (classOf n ≠ 2#2 ∨ !owner) then .error 0x07
      else if t = .modelSwitch ∧ Line.w32 h 0x10 = 0 then .error 0x09
      else .ok t

/-- The stream's fetch ends without a release. -/
def State.endFetch (s : State) (n : BitVec 14) : State :=
  (s.freeChan n).updStream n (fun x => { x with fetching := false, got := [], fetchPos := x.cons })

/-- The entry at CONS passes every check: it is released (R117, R118, R131, R142). -/
def State.releaseEntry (s : State) (n : BitVec 14) (t : EType) (units : List Line) : State :=
  let st := s.stream n
  let p := (s.partOf (funcOf n)).getD 0
  let k : EKey := ⟨n, st.serial⟩
  let cons := st.cons.toNat + units.length
  let wrap := decide (cons = 2 ^ st.log2.toNat)
  let w := Line.w32 (units.getD 0 0) 0 &&& 0x7FFFFFFF
  let s := s.write (st.unitAddr st.cons) 4 [w.setWidth 512] (.release k st.cons)
  let gone := (List.range units.length).map (fun i => posAdd st.log2 st.cons i)
  let s := { s with fetch := { s.fetch with cache := s.fetch.cache.filter (fun x => !(decide (x.1 = n) && gone.contains x.2.1)) } }
  let consN : BitVec 16 := if wrap then 0 else BitVec.ofNat 16 cons
  let head := t.isLaunch || decide (t = .wait) || decide (t = .barrier) || decide (t = .modelSwitch) || decide (t = .epochAdvance)
  let s := s.setStream n { st with
    cons := consN, fetchPos := consN, phase := if wrap then st.phase ^^^ 1#1 else st.phase, entries := st.entries + 1, serial := st.serial + 1
    inflight := if t = .nop ∨ t = .pad then st.inflight else st.inflight + 1
    fetching := false, got := [], st := if st.st = .draining then .draining else .blocked
    head := if head then some k.seq else none, sigPending := if t = .signal then some k.seq else st.sigPending }
  let s := s.progress p
  let e := { Entry.fresh t p st.cons units with seqNo := st.entries }
  let again := fun (s : State) =>
    let x := s.stream n
    if x.st = .blocked then (if x.pause then s.updStream n (fun x => { x with st := .paused }) else s.queueReady n false) else s.drained n
  if t.isLaunch then (s.setEntry k (some e)).enter4 k
  else
    let s := s.freeChan n
    match t with
    | .pad => again s
    | .nop => again ((s.setEntry k (some e)).enterLanding k)
    | .wait => (s.setEntry k (some e)).stage6 k 0
    | .signal => again (s.setEntry k (some e))
    | _ => s.setEntry k (some e)

/-- The units of an entry are in: the check of its pairs, and the release, or the wait of a second SIGNAL (R111, R114). -/
def State.unitsIn (s : State) (n : BitVec 14) (t : EType) (units : List Line) : State :=
  let st := s.stream n
  let w := Line.w32 (units.getD 0 0) 0
  let p := (s.partOf (funcOf n)).getD 0
  let waitBad := (decide (t = .wait) || (t.isLaunch && bit w 1)) && s.unitBad p (units.getD 1 0) true
  let sigBad := if t = .signal then s.unitBad p (units.getD 1 0) false
    else t.isLaunch && bit w 2 && s.unitBad p (units.getD (if bit w 1 then 2 else 1) 0) false
  if waitBad ∨ sigBad then (s.freeChan n).streamFault n 0x08 st.cons
  else if t = .signal ∧ st.sigPending.isSome then
    ((s.endFetch n).updStream n (fun x => { x with st := if x.st = .draining then .draining else .blocked, head := none })).drained n
  else s.releaseEntry n t units

/-- What a fetch that reads the header does next, with the units read so far (R117, R126, R129). -/
def State.fetchGo (s : State) (n : BitVec 14) : State :=
  let st := s.stream n
  match st.got with
  | [] => s
  | h :: _ =>
    let w := Line.w32 h 0
    if !bit w 31 then
      let s := if st.dbStarted then s.bump (pageAddr pFTCH 0x64) else s
      if st.dbPending ∧ !st.pause ∧ st.st = .fetching then
        let s := s.setStream n { st with dbPending := false, dbStarted := true, got := [] }
        s.ringRead n 0 (1 + min 7 (min (st.ahead - 1) (2 ^ st.log2.toNat - 1 - st.cons.toNat)))
      else
        let s := s.endFetch n
        if st.st = .draining then s.drained n
        else s.updStream n (fun x => { x with st := if x.pause then .paused else .idle, dbStarted := false })
    else match s.headerCheck n h with
      | .error code => (s.freeChan n).streamFault n code st.cons
      | .ok t =>
        let units := unitCount t w
        if st.got.length < units then s.ringRead n st.got.length (units - st.got.length)
        else
          -- units of the burst beyond this entry stay in the descriptor cache
          let s := ((st.got.drop units).mapIdx (fun i l => (i, l))).foldl
            (fun s x => s.cachePut n (posAdd st.log2 st.cons (units + x.1)) x.2) s
          s.unitsIn n t (st.got.take units)

/-- A channel has the stream: it reads the header at CONS, from the cache if a posted header is there (R129, R131). -/
def State.takeHeader (s : State) (n : BitVec 14) : State :=
  let st := s.stream n
  let run := s.cachedRun n st.log2 st.cons (min 8 (2 ^ st.log2.toNat - st.cons.toNat))
  let s := s.setStream n { st with st := .fetching, fetching := true, dbPending := false, got := [] }
  match run with
  | h :: _ =>
    if bit (Line.w32 h 0) 31 then
      (s.updStream n (fun x => { x with got := run, fetchPos := posAdd x.log2 x.cons run.length })).fetchGo n
    else
      let s := { s with fetch := { s.fetch with cache := s.fetch.cache.filter (fun x => !(decide (x.1 = n) && decide (x.2.1 = st.cons))) } }
      s.ringRead n 0 (1 + min 7 (min (st.ahead - 1) (2 ^ st.log2.toNat - 1 - st.cons.toNat)))
  | [] => s.ringRead n 0 (1 + min 7 (min (st.ahead - 1) (2 ^ st.log2.toNat - 1 - st.cons.toNat)))

/-- No stage 3 fetch begins (R473, R487). -/
def State.fetchHeld (s : State) : Bool := decide (s.lhse.mode = .halted) || s.rst.stopped

/-- No stage 3 fetch begins for a stream whose partition is being reset (R498). -/
def State.streamHeld (s : State) (n : BitVec 14) : Bool := match s.partOf (funcOf n) with | some p => s.resetting p | none => false

/-- Give a channel a stream. -/
def State.setChan (s : State) (ch : BitVec 4) (n : BitVec 14) : State :=
  { s with fetch := { s.fetch with chans := Tbl.set (fun _ => none) s.fetch.chans ch.toNat (some n) } }

/-- A free channel takes a launch that re-enters, or the oldest stream of the class it prefers, or of the lowest class that has one
(R135, R182). -/
def State.chanTake (s : State) (ch : BitVec 4) : State :=
  if (Tbl.get (fun _ => none) s.fetch.chans ch.toNat).isSome then s
  else match s.fetch.reenter.find? (fun k => match s.entry k with | some e => decide (e.parkAcks = 0) | none => false) with
    | some k =>
      let s := { s with fetch := { s.fetch with reenter := s.fetch.reenter.filter (· ≠ k) } }
      let n := ((s.entry k).map (·.units.length)).getD 0
      let s := (s.setChan ch k.stream).updEntry k (fun e => { e with waiting := ceilDiv n 8 })
      s.readLines (s.parkAddr k.stream) n (.unpark k)
    | none =>
      if s.fetchHeld then s
      else
        let pref := ch.toNat % 4
        match ([pref, 0, 1, 2, 3].map (fun c => (s.fetch.queue c).filter (fun n => !(s.stream n).pause && !s.streamHeld n))).find? (fun q => !q.isEmpty) with
        | some (n :: _) => ((s.unqueue n).setChan ch n).takeHeader n
        | _ => s

/-- CHANNEL_TAKE_STREAM (R135, R182). -/
def execChannelTakeStream (ch : BitVec 4) (s : State) : Host.Outcome State Fault Refusal := .next (s.chanTake ch)

/-- Up to `n` CCLKs of a channel's slice (R183, R184). A launch that is done leaves the channel, which takes its next stream; the slice
goes on if that gives it a ready launch at once. -/
def State.sliceN (s : State) (ch : BitVec 4) (k : EKey) : Nat → State
  | 0 => s
  | n + 1 =>
    match s.entry k with
    | none => s
    | some e =>
      if e.stage ≠ .ferry then s
      else if e.decode ≠ 0 then (s.setEntry k (some { e with decode := e.decode - 1 })).sliceN ch k n
      else
        let s := s.emit k e
        match s.entry k with
        | none => s
        | some e' =>
          if e'.stage = .ferry ∧ e'.lines.length = e'.total then
            let s := (s.ferryDone k).chanTake ch
            match s.chanReady ch.toNat with
            | none => s
            | some j => (s.updEntry j (fun e => { e with store := e.total })).sliceN ch j n
          else s.sliceN ch k n

/-- FERRY_SLICE (R183): one slice of the next channel that holds a ready launch. -/
def execFerrySlice (s : State) : Host.Outcome State Fault Refusal :=
  let order := (List.range 16).map (fun i => (s.ferry.last.toNat + 1 + i) % 16)
  let s := s.storeFull
  match order.findSome? (fun c => (s.chanReady c).map (fun k => (c, k))) with
  | none => .next s
  | some (c, k) =>
    let s := s.updEntry k (fun e => { e with store := e.total })
    let s := { (s.bumpWrap (pageAddr 0x0D (0x40 + 4 * c))) with ferry := { s.ferry with last := BitVec.ofNat 4 c } }
    .next (s.sliceN (BitVec.ofNat 4 c) k (s.num (pageAddr pFERY 0x40) 0 7)).settle

/-- RING_READ_RETURN (R117, R129, R146): ring units return, for a fetch or for the descriptor cache. -/
def execRingReadReturn (mtag : BitVec 8) (gen : BitVec 4) (err : Bool) (lines : List Line) (s : State) :
    Host.Outcome State Fault Refusal :=
  let r := s.answer true mtag gen
  match r.2 with
  | none => .next r.1
  | some q => match q.why with
    | .ring n pos units pre =>
      if lines.length * 64 ≠ q.len ∧ !err then .fault .illFormed
      else
        let s := r.1
        let st := s.stream n
        if units = 0 then .next s
        else if pre then
          .next (if err then s else (lines.mapIdx (fun i l => (i, l))).foldl (fun s x => s.cachePut n (posAdd st.log2 pos x.1) x.2) s)
        else if !st.fetching ∨ pos ≠ posAdd st.log2 st.cons st.got.length then .next s
        else if err then .next ((s.freeChan n).streamFault n 0x0A st.cons)
        else .next ((s.setStream n { st with got := st.got ++ lines }).fetchGo n).settle
    | _ => .next s

/-! ## Prefetch (R128, R130, R181) -/

/-- Position up to which units of a stream may be prefetched, as a distance from CONS (R128). -/
def StreamE.reach (st : StreamE) : Nat := min 8 (max 1 st.ahead)

/-- Some request of the stream's ring or of its next entry's inputs is under way. -/
def State.prefetching (s : State) (n : BitVec 14) : Bool :=
  s.mmp.any (fun r => match r.why with
    | .ring m _ u true => decide (m = n) && decide (u ≠ 0)
    | .ahead e _ live => decide (e.stream = n) && live
    | _ => false)

/-- Lines that a prefetch asks for, but those that it has already. -/
def State.aheadRead (s : State) (k : EKey) (a : Addr) (n : Nat) : State :=
  let base := a &&& ~~~63#57
  let at' := fun (i : Nat) => base + BitVec.ofNat 57 (64 * i)
  let has := fun (i : Nat) => s.ferry.ahead.any (fun x => decide (x.1 = k) && decide (x.2.1 = at' i))
  let n0 := ((List.range n).takeWhile has).length
  s.readLines (at' n0) (n - n0) (fun o => .ahead k (at' (n0 + o)) true)

/-- The directory entry of a template that a prefetch knows: from the cache, or from a line that it has read. -/
def State.dirAhead (s : State) (k : EKey) (p : BitVec 4) (id : BitVec 12) : Option DirEntry :=
  match s.dirGet p id with
  | some d => some d
  | none => (s.ferry.ahead.find? (fun x => decide (x.1 = k) && decide (x.2.1 = s.dirLineAddr p id))).map
      (fun x => DirEntry.ofLine x.2.2 (id.toNat % 2))

/-- The one-ahead prefetch of inputs for the entry after the head (R181): its directory line and, once that is known, up to four
lines of its image; or up to four lines of its command buffer; and its patch list, as far as its handles hit in a resident
context. -/
def State.inputAhead (s : State) (n : BitVec 14) (h : Line) : State :=
  let st := s.stream n
  match EType.ofCode ((Line.w32 h 0).extractLsb' 16 4).toNat, s.partOf (funcOf n) with
  | some t, some p =>
    let e := Entry.fresh t p st.cons [h]
    let k : EKey := ⟨n, st.serial⟩
    if !t.isLaunch ∨ e.descBad ∨ e.isDirect ∨ e.ctx.extractLsb' 16 8 ≠ 0#8 then s
    else
      let hit := fun (q : RReq) => match s.slotOf p (e.ctx.extractLsb' 0 16) with
        | none => none
        | some m =>
          let sl := s.slot m
          if sl.st = .loading ∨ sl.geomWait then none
          else match ({ e with geom := sl.recLines.getD 0 0 } : Entry).relocs sl [q] with | .ok [a] => some a | _ => none
      if e.isTmpl then
        let s := match s.dirAhead k p e.tmplId with
          | none => if s.num (rFERYp p 0x54) 0 13 ≤ e.tmplId.toNat then s else s.aheadRead k (s.dirLineAddr p e.tmplId) 1
          | some d => if d.valid ∧ !d.pinned then s.aheadRead k d.image (min 4 d.lines) else s
        if e.plInl then s
        else match hit ⟨e.mainH, e.mainOff, e.plLen, 1, 0x3F⟩ with
          | some a => s.aheadRead k a (linesOfExtent a e.plLen)
          | none => s
      else match [256, 192, 128, 64].findSome? (fun len => (hit ⟨e.mainH, e.mainOff, len, 1, 0x3F⟩).map (fun a => (a, len))) with
        | some (a, len) => s.aheadRead k a (linesOfExtent a len)
        | none => s
  | _, _ => s

/-- PREFETCH (R128, R130, R181): ring units of an enabled stream that is not paused, up to the hint's reach; or the inputs of
the entry after the head. -/
def execPrefetch (stream : BitVec 14) (s : State) : Host.Outcome State Fault Refusal :=
  let st := s.stream stream
  let can := decide (st.st = .idle) || decide (st.st = .ready) || decide (st.st = .blocked)
  if !can ∨ st.pause ∨ s.prefetching stream ∨ s.streamHeld stream ∨ s.rst.stopped then .next s
  else
    let stop := min st.reach (2 ^ st.log2.toNat - st.cons.toNat)
    match (List.range stop).find? (fun i => (s.cached stream (posAdd st.log2 st.cons i)).isNone) with
    | some i =>
      if st.ahead = 0 then .next s
      else
        let pos := posAdd st.log2 st.cons i
        .next (s.read (st.unitAddr pos) (stop - i) (.ring stream pos (stop - i) true))
    | none => match s.cached stream st.cons with
      | some h =>
        if s.flag (pageAddr pFERY 0x44) 1 ∧ bit (Line.w32 h 0) 31 ∧ (Line.w32 h 0).extractLsb' 30 1 = st.phase then .next (s.inputAhead stream h)
        else .next s
      | none => .next s

/-! ## Release acknowledgement (R117, R123) -/

/-- Completions of a stream that wait at step 2 of R406 are tried again in order. -/
def State.land2Retry (s : State) (n : BitVec 14) : State :=
  (s.land.step2.filter (fun k => k.stream = n)).foldl State.land2 s

/-- RELEASE_WRITE_ACK (R117, R123). -/
def execReleaseWriteAck (mtag : BitVec 8) (gen : BitVec 4) (err : Bool) (s : State) : Host.Outcome State Fault Refusal :=
  let r := s.answer false mtag gen
  match r.2 with
  | none => .next r.1
  | some q => match q.why with
    | .release k pos =>
      let s := r.1.updEntry k (fun e => { e with released := true })
      let s := if err then (if (s.stream k.stream).fetching then s.freeChan k.stream else s).streamFault k.stream 0x0C pos else s
      .next (s.land2Retry k.stream).settle
    | _ => .next s

/-! ## The points of SIGNAL and BARRIER (R112, R114) -/

/-- SIGNAL_ENTRY_APPLY (R112): every earlier launch of the stream has passed step 2 of R406. -/
def execSignalEntryApply (stream : BitVec 14) (s : State) : Host.Outcome State Fault Refusal :=
  match (s.stream stream).sigPending with
  | none => .next s
  | some q =>
    let k : EKey := ⟨stream, q⟩
    match s.entry k with
    | none => .next s
    | some e =>
      if e.pairDone ≠ 0 ∨ (s.entriesOf stream).any (fun x => x.2.etype.isLaunch && decide (x.1.seq < q) && !x.2.recDone) then .next s
      else
        let us := unitUpds (e.units.getD 1 0)
        let s := s.setEntry k (some { e with pairDone := 1 })
        if us.isEmpty then
          let st := s.stream stream
          let s := s.setStream stream { st with sigPending := none }
          let s := if st.st = .blocked ∧ st.head = none then
              (if st.pause then s.updStream stream (fun x => { x with st := .paused }) else s.queueReady stream false) else s
          .next (s.enterLanding k)
        else .next (s.offer .signalEntry us (some k))

/-- BARRIER_PASS (R112): every earlier entry of the stream has completed. -/
def execBarrierPass (stream : BitVec 14) (s : State) : Host.Outcome State Fault Refusal :=
  match (s.stream stream).head with
  | none => .next s
  | some q =>
    let k : EKey := ⟨stream, q⟩
    match s.entry k with
    | none => .next s
    | some e =>
      if e.etype ≠ .barrier ∨ e.stage ≠ .point ∨ (s.entriesOf stream).any (fun x => decide (x.1.seq < q)) then .next s
      else .next ((s.headLeaves k).enterLanding k)

/-! ## Progress timeout (R144, R145) -/

/-- STREAM_TIMEOUT (R145). A launch that has reached its t_done and still waits for its completion record keeps the timer running (R144)
but is not taken: it has completed by R405, and there is nothing left to abort (DESIGN CHOICE, log entry 52). -/
def execStreamTimeout (stream : BitVec 14) (s : State) : Host.Outcome State Fault Refusal :=
  let st := s.stream stream
  let live := (s.entriesOf stream).filter (fun x => x.2.running)
  if live.isEmpty ∨ s.time.toNat < st.progressT.toNat + st.limitUs.toNat * 1000 then .next s
  else
    let s := s.timerRestart stream
    match live.find? (fun x => !x.2.aborted && (decide (x.2.stage = .running) || decide (x.2.stage = .draining))) with
    | none => .next s
    | some (k, e) =>
      let s := (s.bump (pageAddr pFTCH 0x6C)).raise ((ev pFTCH 0x0B 3).ofEntry k e)
      .next (s.loseCtx e.part (e.ctx.extractLsb' 0 16) 0x02 (stream.setWidth 20) 0x0B)

end Sys2Proof.Machine
end

