-- ==== Sys2Proof/Machine/Tide.lean ====
section
/-! DEFINITION. The entries that act on a partition: EPOCH_ADVANCE (spec/08_visibility_and_epochs.md R298 to R302) and
MODEL_SWITCH (spec/03_tenancy_objects.md R70), held behind Shoal's windows (spec/10 R348). An entry's `pairDone` is 1 while it
is held at stage 7, 2 once it has taken its first effect, 3 while it waits for a retirement. -/
namespace Sys2Proof.Machine

/-- Every launch of every closed window of the partition has started or has completed without executing (R348). -/
def State.windowsStarted (s : State) (p : BitVec 4) : Bool :=
  s.shoal.wins.all (fun w => decide (w.part ≠ p) || decide (w.st = .opened) || w.members.all (fun m => match s.entry m.e with
    | none => true
    | some e => e.executed || decide (e.stage = .finished) || decide (e.stage = .landing)))

/-- The entry may take effect at its stage 8 (R70, R473, R487). -/
def State.pointOpen (s : State) (p : BitVec 4) : Bool :=
  decide (s.lhse.mode ≠ .halted) && !s.rst.stopped && decide (s.num (rPART p 0x74) 0 3 = 1)

/-- The entry at the head of a stream, when it is of a type and waits for its point. -/
def State.headPoint (s : State) (n : BitVec 14) (t : EType) : Option (EKey × Entry) :=
  match (s.stream n).head with
  | none => none
  | some q => match s.entry ⟨n, q⟩ with
    | none => none
    | some e => if e.etype = t ∧ e.stage = .point then some (⟨n, q⟩, e) else none

/-- The entry arrives at stage 7: the partition's open window closes (R25, R348). -/
def State.hold7 (s : State) (k : EKey) (e : Entry) : State :=
  if e.pairDone = 0 then (s.closeOpen e.part 5).updEntry k (fun e => { e with pairDone := 1 }) else s

/-- EPOCH_ADVANCE (R298, R348): held at stage 7, then the advance is pending. -/
def execEpochAdvance (stream : BitVec 14) (s : State) : Host.Outcome State Fault Refusal :=
  match s.headPoint stream .epochAdvance with
  | none => .next s
  | some (k, e) =>
    let p := e.part
    let s := s.hold7 k e
    if e.pairDone ≤ 1 ∧ s.windowsStarted p ∧ s.pointOpen p ∧ !s.flag (rTIDE p 8) 31 then
      .next ((s.setBit (rTIDE p 8) 31 true).updEntry k (fun e => { e with pairDone := 2 }))
    else .next s

/-- The pending advance of a partition: ADV_PENDING is set, and its entry has been neither committed nor refused. -/
def State.advancing (s : State) (p : BitVec 4) : Option (EKey × Entry) :=
  if s.flag (rTIDE p 8) 31 then
    s.allEntries.find? (fun x => decide (x.2.part = p) && decide (x.2.etype = .epochAdvance) && decide (x.2.stage = .point) && decide (x.2.pairDone = 2))
  else none

/-- A refused advance (R301). -/
def State.refuseAdvance (s : State) (k : EKey) (p : BitVec 4) : State :=
  let s := ((s.setBit (rTIDE p 8) 31 false).bump (rTIDE p 0x18)).setErr pSHOL 25
  let s := s.raise { ev pSHOL 0x39 1 with part := some p, stream := some k.stream }
  let s := s.updEntry k (fun e => e.failed ⟨7, 0, 0⟩)
  (s.headLeaves k).enterLanding k

/-- The commit of an advance (R299, R302, R305). -/
def State.commitAdvance (s : State) (k : EKey) (e : Entry) (p : BitVec 4) : State :=
  let cur : BitVec 48 := s.cur p + 1
  let s := s.wr64 (rTIDE p 0) (cur.setWidth 64)
  let s := s.wr (rTIDE p 0xC) ((s.fld (rTIDE p 0xC) 0 16) ++ 0#16)
  let s := ((s.setBit (rTIDE p 8) 31 false).setBit (rTIDE p 8) 29 true).bump (rTIDE p 0x14)
  let s := if bit e.lctrl 0 then s.updEntry k (fun e => { e with pairDone := 3 }) else (s.headLeaves k).enterLanding k
  s.settle

/-- EPOCH_COMMIT (R299, R301): a launch boundary of the partition. -/
def execEpochCommit (p : BitVec 4) (s : State) : Host.Outcome State Fault Refusal :=
  match s.advancing p with
  | none => .next s
  | some (k, e) =>
    let live := s.rd (rTIDE p 0xC)
    let stat := s.rd (rTIDE p 8)
    if live.extractLsb' 16 16 ≠ 0#16 ∨ stat.extractLsb' 0 16 ≠ 0#16 ∨ !s.windowsStarted p then .next s
    else if bit stat 30 ∨ s.cur p = 0xFFFFFFFFFFFF then .next (s.refuseAdvance k p).settle
    else .next (s.commitAdvance k e p)

/-- MODEL_SWITCH (R70, R348): at its stage 8 the partition becomes DRAINING. -/
def execModelSwitch (stream : BitVec 14) (s : State) : Host.Outcome State Fault Refusal :=
  match s.headPoint stream .modelSwitch with
  | none => .next s
  | some (k, e) =>
    let p := e.part
    let s := s.hold7 k e
    if e.pairDone ≤ 1 ∧ s.windowsStarted p ∧ s.pointOpen p then
      let s := (s.setF (rPART p 0x74) 0 (2#3)).updEntry k (fun e => { e with pairDone := 2 })
      let placed := s.allEntries.filter (fun x => decide (x.2.part = p) && x.2.core.isSome && !x.2.executed)
      .next (placed.foldl (fun s x => if x.2.stage = .place then s.backTo8 x.1 else s.unplace x.1) s)
    else .next s

/-- MODEL_SWITCH_DRAINED (R70): no launch runs and every record of the partition is written. -/
def execModelSwitchDrained (p : BitVec 4) (s : State) : Host.Outcome State Fault Refusal :=
  let owed := fun (e : Entry) => decide (e.part = p) &&
    (e.running || ((decide (e.stage = .finished) || decide (e.stage = .landing)) && e.writesRecord && !e.recDone))
  if s.num (rPART p 0x74) 0 3 ≠ 2 ∨ s.allEntries.any (fun x => owed x.2) then .next s
  else .next ((s.closeOpen p 5).setF (rPART p 0x74) 0 (3#3))

/-- MODEL_SWITCH_COMPLETE (R70): the new identifier, the entry's completion, SERVING. -/
def execModelSwitchComplete (p : BitVec 4) (s : State) : Host.Outcome State Fault Refusal :=
  if s.num (rPART p 0x74) 0 3 ≠ 3 then .next s
  else
    let s := s.setF (rPART p 0x74) 0 (1#3)
    match s.allEntries.find? (fun x => decide (x.2.part = p) && decide (x.2.etype = .modelSwitch) && decide (x.2.pairDone = 2)) with
    | none => .next s
    | some (k, e) =>
      let s := s.wr (rPART p 0x70) e.lctrl
      let s := s.modelForget p
      .next ((s.headLeaves k).enterLanding k).settle

end Sys2Proof.Machine
end

