-- ==== Sys2Proof/Machine/Report.lean ====
section
/-! DEFINITION. Reports and ports that do not respond (spec/11_engine_ports_and_formats.md R371 to R385, spec/12 R403, spec/14
R457, R458, spec/16 R494, R510). -/
namespace Sys2Proof.Machine

/-! ## A report's fields (R382) -/

def repGen (r : Report) : BitVec 4 := r.w0.extractLsb' 0 4
def repTag (r : Report) : BitVec 6 := r.w0.extractLsb' 4 6
def repStats (r : Report) : Bool := bit r.w0 10
def repCrcOk (r : Report) : Bool := bit r.w0 11
def repStatus (r : Report) : BitVec 8 := r.w0.extractLsb' 16 8
def repDetail (r : Report) : BitVec 8 := r.w0.extractLsb' 24 8
def repBusy (r : Report) : Word := r.w0.extractLsb' 32 32
def repBytes (r : Report) : Word := r.w2.extractLsb' 32 32

/-! ## Collectors (R403, R601) -/

/-- Messages of a port can reach Swisto: its group's domain is powered, and a remote group's link is Active (R579, R604). -/
def State.portHeard (s : State) (n : Nat) : Bool :=
  decide (n < s.ecpCount) && (match s.linkOf (n / 16) with
    | some k => s.powered 28 && s.linkOn k
    | none => s.powered (if n < 64 then 26 else 27))

/-- A message of a remote group leaves the receive buffer: one credit goes back in a CREDIT flit (R599, R601). -/
def State.credit (s : State) (g : Nat) : State :=
  if (s.linkOf g).isSome then
    { s with cw := { s.cw with credits := Tbl.set (fun _ => 0) s.cw.credits g (Tbl.get (fun _ => 0) s.cw.credits g + 1) } }.sendDown g
      (controlFlit (.credit g 1))
  else s

/-- A collector's FIFO. -/
def State.fifo (s : State) (g : Nat) : List (Report × Nat) := Tbl.get (fun _ => []) s.land.fifos g

/-- Write a collector's FIFO. -/
def State.setFifo (s : State) (g : Nat) (l : List (Report × Nat)) : State :=
  { s with land := { s.land with fifos := Tbl.set (fun _ => []) s.land.fifos g l } }

/-- The ports of a group that show a report, each with the CCLK since when it has done so, plus 1 (R428). -/
def State.noteShown (s : State) (g : Nat) (shown : List Report) : State :=
  { s with land := { s.land with shown := (List.range 16).foldl (fun t i =>
      let n := 16 * g + i
      Tbl.set (fun _ => 0) t n
        (if !shown.any (fun r => decide (r.port.toNat = n)) then 0
         else if Tbl.get (fun _ => 0) t n = 0 then s.cclk + 1 else Tbl.get (fun _ => 0) t n)) s.land.shown } }

/-- The CCLK since when a port has shown the report that is taken from it now. -/
def State.shownAt (s : State) (n : Nat) : State × Nat :=
  ({ s with land := { s.land with shown := Tbl.set (fun _ => 0) s.land.shown n 0 } }, Tbl.get (fun _ => 0) s.land.shown n - 1)

/-- REPORT_ACCEPT (R403): a collector whose FIFO has room takes one of the reports shown on its ports, the first port after
the one it served last. A report waits from the CCLK in which it is first shown (R428). -/
def execReportAccept (group : BitVec 3) (shown : List Report) (s : State) : Host.Outcome State Fault Refusal :=
  let g := group.toNat
  let ptr := Tbl.get (fun _ => 15) s.land.colPtr g
  let order := (List.range 16).map (fun i => 16 * g + (ptr + 1 + i) % 16)
  match order.findSome? (fun n => shown.find? (fun r => decide (r.port.toNat = n) && s.portHeard n)) with
  | none => .next s
  | some r =>
    let s := s.noteShown g shown
    if 16 ≤ (s.fifo g).length then .next s
    else
      let x := s.idleExit.shownAt r.port.toNat
      let s := x.1.setFifo g (s.fifo g ++ [(r, x.2)])
      .next ({ s with land := { s.land with colPtr := Tbl.set (fun _ => 15) s.land.colPtr g (r.port.toNat % 16) } }.credit g)

/-! ## The merge (R371, R372, R383 to R385) -/

/-- The command of a report (R372): the unreported one that holds its tag, from its admission on (R370). -/
def State.cmdOf (s : State) (r : Report) : Option Cmd :=
  if repGen r = (s.port r.port.toNat).gen then
    s.disp.cmds.find? (fun c => decide (c.port = r.port.toNat) && decide (c.ctag = repTag r))
  else none

/-- Take a command out: its engine-queue entry and its tag are free (R371). -/
def State.dropCmd (s : State) (c : Cmd) : State := { s with disp := { s.disp with cmds := s.disp.cmds.filter (· ≠ c) } }

/-- SUSE, SEND and SCALE of a command (R374, R377, R379). -/
def Cmd.scale (c : Cmd) : Bool × Bool × Nat := bodyScale (((c.hdr.getD 0 0) >>> 12).toNat % 128) c.body

/-- The scale tracker takes a report (R396 to R398). -/
def State.scaleTake (s : State) (r : Report) : State :=
  match s.cmdOf r with
  | none => s
  | some c => match c.who with
    | .gather _ _ _ => s
    | .op _ _ =>
      if c.scale.1 ∧ repStats r ∧ !s.resetting c.part then
        s.scaleReport (c.part.toNat * 1024 + c.scale.2.2) (r.w1.extractLsb' 0 32) (r.w1.extractLsb' 32 32) (r.w2.extractLsb' 0 32) c.scale.2.1
      else s

/-- The report of a SEND command. -/
def State.isSend (s : State) (r : Report) : Bool := match s.cmdOf r with | some c => c.scale.2.1 | none => false

/-- An event of a port whose code the spec does not number (Config.eventCode, log entry 3). -/
def State.portEvent (s : State) (n kind sev : Nat) (k : Option (EKey × Entry)) : State :=
  let v := { ev (pEPRT n) 0 sev with code := Config.eventCode kind }
  s.raise (match k with | some (k, e) => v.ofEntry k e | none => v)

/-- BUSY[g] of the launch's context grows (R385, R73). -/
def State.addBusy (s : State) (e : Entry) (port : Nat) (busy : Word) : State :=
  match e.slot with
  | none => s
  | some n =>
    let sl := s.slot n
    let off := 8 * (port / 16)
    s.setSlot n { sl with recLines := sl.recLines.modify 2 (fun l => Line.put l off (Line.w64 l off + busy.setWidth 64)) }

/-- The item of a layer digest (R457). -/
def digestItem (crc : Dword) (bytes : Word) (i : Nat) : Dword := crc64 (bytesOf crc 8 ++ bytesOf bytes 4 ++ bytesOf (BitVec.ofNat 32 (i % 256)) 4)

/-- The launch's digest takes a report (R457), and the digest log an entry per report in MODE OPS (R458). -/
def State.digestTake (s : State) (k : EKey) (i : Nat) (r : Report) (counts : Bool) : State :=
  if !repCrcOk r then s
  else
    let s := if counts then s.updEntry k (fun e => { e with
        ldigest := e.ldigest ^^^ digestItem r.w3 (repBytes r) i, outBytes := e.outBytes + (repBytes r).setWidth 64 }) else s
    match s.entry k with
    | none => s
    | some e => if s.flag (rAUDT (0x508 + 0x10 * e.part.toNat)) 30 then
        s.dlogWrite k e false r.w3 (repBytes r) (BitVec.ofNat 8 i) else s

/-- A retried command is a candidate again, with its first candidacy time (R384); its body is checked again (R381), and its
port must serve (R512). -/
def State.retry (s : State) (c : Cmd) (k : EKey) (e : Entry) (i : Nat) : State :=
  let n := c.port
  let s := (s.portEvent n 0 0 (some (k, e))).bump (rEPRT n 0x58)
  if e.aborted then s.opOver k i .done
  else match s.bodyCheck e.part (s.opLine e i) with
    | some code =>
      let s := (s.bump (rEPRT n 0x68)).raise { (ev (pEPRT n) code 1).ofEntry k e with index := some i }
      (s.skipOp k i (BitVec.ofNat 8 code)).promote k
    | none =>
      if (s.port n).serves then
        let x : Cand := ⟨c.who, n, c.cls, c.part, c.func, c.since, c.retries + 1, c.hdr, c.body⟩
        { s with disp := { s.disp with cands := s.disp.cands ++ [x] } }.updEntry k (fun e => { e with ops := e.ops.set i (.cand false) })
      else (s.opError k e n (BitVec.setWidth 8 ((c.hdr.getD 0 0).extractLsb' 12 7)) 3 0 (BitVec.ofNat 8 i) 0).opOver k i .done

/-- Action of a report of an operation, by STATUS (R383). -/
def State.opReport (s : State) (r : Report) (c : Cmd) (k : EKey) (e : Entry) (i : Nat) : State :=
  let n := r.port.toNat
  let again := decide (repStatus r = 1#8) && decide (c.retries < s.num (rEPRT n 0x4C) 0 4)
  let s := (s.addBusy e n (repBusy r)).digestTake k i r (!(again && !e.aborted) && decide (repStatus r ≠ 2#8))
  if repStatus r = 0#8 then s.opOver k i .done
  else if again then s.retry c k e i
  else if repStatus r = 2#8 then
    let s := (s.portEvent n 2 1 (some (k, e))).bump (rEPRT n 0x68)
    (s.updEntry k (fun e => e.failed ⟨1, Config.eventCode 2, BitVec.ofNat 8 i⟩)).opOver k i .skipped
  else
    let kind : BitVec 8 := BitVec.setWidth 8 ((c.hdr.getD 0 0).extractLsb' 12 7)
    (s.opError k e n kind (repStatus r) (repDetail r) (BitVec.ofNat 8 i) 0).opOver k i .done

/-- A RETRY report is a timing break of the partition that owns its port (R455). -/
def State.retryBreak (s : State) (r : Report) : State :=
  match s.portOwner r.port.toNat with
  | some p => if repStatus r = 1#8 then s.timingBreak p else s
  | none => s

/-- A report enters Landing (R371, R372, R385, R455). -/
def State.mergeOne (s : State) (r : Report) : State :=
  let n := r.port.toNat
  if repGen r ≠ (s.port n).gen then (s.bump (rEPRT n 0x5C)).setErr (pEPRT n) 19
  else match s.cmdOf r with
    | none => (s.portEvent n 1 1 none).bump (rEPRT n 0x60)
    | some c =>
      let s := ((s.dropCmd c).bump (rEPRT n 0x54)).retryBreak r
      let s := s.wr64 (rEPRT n 0x70) (s.rd64 (rEPRT n 0x70) + (repBusy r).setWidth 64)
      let s := s.progress c.part
      let s := s.traceRec 4 (s.portOwner n) (0#4 ++ BitVec.ofNat 7 n ++ repTag r ++ repStatus r ++ 0#39)
      if s.resetting c.part then s
      else match c.who with
        | .gather p w g => s.gatherDone p w g (repStatus r ≠ 0#8)
        | .op k i => match s.entry k with
          | none => s
          | some e => s.opReport r c k e i

/-- The reports that the merge takes: at most `m`, from the collectors in rotating order (R403). -/
def State.mergeTake (s : State) : Nat → State × List (Report × Nat)
  | 0 => (s, [])
  | m + 1 =>
    match ((List.range 8).map (fun i => (s.land.mergePtr + 1 + i) % 8)).find? (fun g => !(s.fifo g).isEmpty) with
    | none => (s, [])
    | some g => match s.fifo g with
      | [] => (s, [])
      | x :: rest =>
        let s := s.setFifo g rest
        let r := State.mergeTake { s with land := { s.land with mergePtr := g } } m
        (r.1, x :: r.2)

/-- The second of two reports that bear one tag of a port finds the tag free, and is dropped before it has any effect (R372, R385). -/
def firstOfTag : List Report → List Report
  | [] => []
  | r :: rs => r :: (firstOfTag rs).filter (fun x => !(decide (x.port = r.port) && decide (repGen x = repGen r) && decide (repTag x = repTag r)))

/-- REPORT_MERGE (R403, R405): up to two reports enter Landing, none while its completion queue is full. The tracker applies
both first, a report without SEND before one with SEND (R397, R398). -/
def execReportMerge (s : State) : Host.Outcome State Fault Refusal :=
  if 1024 ≤ s.land.queue.length then .next s
  else
    let t := s.mergeTake 2
    let s := t.2.foldl (fun s x => s.maxF (rAUDT 0x64) 0 16 (s.cclk - x.2)) t.1
    let rs := t.2.map (·.1)
    let us := firstOfTag rs
    let s := (us.filter (fun r => !s.isSend r) ++ us.filter s.isSend).foldl State.scaleTake s
    .next (rs.foldl State.mergeOne s).settle

/-! ## Ports that do not respond (R494, R510, R604) -/

/-- The age of a port's oldest unreported command counts from its presentation (R494, R592). -/
def State.oldest (s : State) (n : Nat) : Option Cmd :=
  match s.disp.cmds.find? (fun c => decide (c.port = n) && decide (c.stage = .sent)) with
  | some c => some c
  | none => s.disp.cmds.find? (fun c => decide (c.port = n) && decide (c.stage = .granted))

/-- A port's commands are handled as reported with ERROR and their tags are free (R373); `code` is the CODE of the launches
that this aborts (R414). -/
def State.failCmds (s : State) (n : Nat) (code : BitVec 8) : State :=
  let cmds := s.disp.cmds.filter (fun c => decide (c.port = n))
  let s := { s with disp := { s.disp with cmds := s.disp.cmds.filter (fun c => decide (c.port ≠ n)) } }
  cmds.foldl (fun s c =>
    if s.resetting c.part then s
    else match c.who with
      | .gather p w g => s.gatherDone p w g true
      | .op k i => match s.entry k with
        | none => s
        | some e =>
          let kind : BitVec 8 := BitVec.setWidth 8 ((c.hdr.getD 0 0).extractLsb' 12 7)
          (s.opError k e n kind 3 0 (BitVec.ofNat 8 i) code).opOver k i .done) s

/-- A pending change to a port is cancelled (R513). -/
def State.cancelDefer (s : State) (n : Nat) : State :=
  if (s.port n).defer = 0 then s
  else (s.setPort n { s.port n with defer := 0 }).setF (pageAddr pCLKR 0x100) 20 (5#4)

/-- ENG_DEFER of a partition says whether a change to one of its ports waits (R513). -/
def State.engDefer (s : State) (p : BitVec 4) : State :=
  s.setBit (rAUDT (0x280 + 4 * p.toNat)) 29 ((s.portsOf p).any (fun n => decide ((s.port n).defer ≠ 0)))

/-- NOT_RESPONDING (R494, R510): the event names the oldest command's partition, stream and context. -/
def State.notResponding (s : State) (n code : Nat) : State :=
  let old := s.oldest n
  let s := s.cancelDefer n
  let s := s.setPort n { s.port n with st := .resetting, gen := (s.port n).gen + 1, reqT := some s.time }
  let s := s.resetDown n
  let s := match s.portOwner n with | some p => s.engDefer p | none => s
  let s := match old.map (·.who) with
    | some (.op k _) => (match s.entry k with
      | some e => s.ctxFault ((ev (pEPRT n) code 3).ofEntry k e) e.part (e.ctx.extractLsb' 0 16) k.stream (BitVec.ofNat 8 code)
      | none => s.raise (ev (pEPRT n) code 1))
    | some (.gather p _ _) => s.raise { ev (pEPRT n) code 1 with part := some p }
    | none => s.raise { ev (pEPRT n) code 1 with part := s.portOwner n }
  (s.failCmds n (BitVec.ofNat 8 code)).settle

/-- The time that a command may take (R494), in microseconds: ENGINE_TIMEOUT at the start of its launch (R27, R59); for a gather command,
which is no one launch's, the present one. -/
def State.waitLimit (s : State) (c : Cmd) : Nat :=
  let now := s.num (pageAddr pINTG 0x48) 0 20
  match c.who with
  | .op k _ => (match s.entry k with | some e => if e.executed then e.waitUs.toNat else now | none => now)
  | .gather _ _ _ => now

/-- ENGINE_HANG (R494): on a tick, a serving port whose oldest unreported command is older than its limit. -/
def execEngineHang (port : BitVec 7) (s : State) : Host.Outcome State Fault Refusal :=
  let n := port.toNat
  match s.oldest n with
  | none => .next s
  | some c =>
    if (s.port n).serves ∧ !s.resetting c.part ∧ s.waitLimit c * 1000 < s.viewTime.toNat - c.sentT.toNat then
      .next (s.notResponding n 0x48)
    else .next s

end Sys2Proof.Machine
end

