-- ==== Sys2Proof/Machine/Landing.lean ====
section
/-! DEFINITION. Landing's steps as its reads and writes come back, the function event cache, interrupt messages and the FEV
commands (spec/12_completion_and_events.md R405 to R428), and the digests of audited launches (spec/14 R464, R465). -/
namespace Sys2Proof.Machine

/-! ## Helpers -/

/-- The vectors of a function. -/
def vectors : List (BitVec 2) := [0, 1, 2, 3]

/-- Audited completions that wait for their digest have their table lines read (R465). -/
def State.auditKick (s : State) : State :=
  s.land.hashing.foldl (fun s k => match s.entry k with | some e => s.auditReads k e | none => s) s

/-- Completions, held events and stream faults that wait for a function whose entry could not take a place in the cache ask for
it again (R410). -/
def State.fevRetry (s : State) : State :=
  let waiting := s.land.queue.filter (fun k => match s.entry k with | some e => decide (e.lstep = 0 ∨ e.lstep = 3 ∨ e.lstep = 7) | none => false)
  let s := waiting.foldl (fun s k => s.fevMiss (funcOf k.stream)) s
  let s := (s.land.vecs.filter (fun x => decide (x.2.pend ≠ 0))).foldl (fun s x => s.fevMiss (BitVec.ofNat 12 (x.1 / 4))) s
  s.land.faults.foldl (fun s f => s.fevMiss f) s

/-- The end of an FEV command (R428). -/
def State.fevEnd (s : State) (err : BitVec 4) : State :=
  (({ s with land := { s.land with cmd := none } }.setBit (rAUDT 0x48) 27 false).setF (rAUDT 0x48) 20 err)

/-- A write of a function is in flight, or one of its completions is past the beginning of its first write (R409, and the meetings
of spec/12: such a completion uses the old entry). -/
def State.fevBusy (s : State) (f : BitVec 12) : Bool :=
  s.fevInFlight f ||
  s.mmp.any (fun r => match r.why with | .message g _ => decide (g = f) | .fevWrite g => decide (g = f) | _ => false) ||
  s.land.queue.any (fun k => decide (funcOf k.stream = f) && (match s.entry k with
    | some e => decide (e.lstep = 2) || decide (4 ≤ e.lstep ∧ e.lstep ≤ 8)
    | none => false))

/-- REFRESH goes on (R409): once no write of the function is in flight and no read of its entry is outstanding, the three
software lines are read again; an entry that is not cached is read whole first (log entry 23). -/
def State.refreshTry (s : State) : State :=
  match s.land.cmd with
  | some (op, f) =>
    if op ≠ 1 ∨ s.fevBusy f ∨ s.mmp.any (fun r => decide (r.why = .fevRead f)) then s
    else match s.fev f with
      | some _ => s.read (s.fevAddr f) 3 (.fevRead f)
      | none => s.fevMiss f
  | none => s

/-- FLUSH and FLUSH_ALL end when the lines they wrote back are acknowledged (R428). -/
def State.flushTry (s : State) : State :=
  match s.land.cmd with
  | some (op, f) =>
    let busy := s.mmp.any (fun r => match r.why with | .fevWrite g => decide (op = 3) || decide (g = f) | _ => false)
    if op = 1 ∨ busy then s else s.fevEnd 0
  | none => s

/-- A function that is in the middle of REFRESH, or whose entry is cached, may go on after a write has come back. -/
def State.landAgain (s : State) : State := (s.refreshTry.fevRetry).settle

/-! ## Completion (R405) -/

/-- LAUNCH_COMPLETE (R405): a launch that has reached t_done enters Landing's completion queue when it has room; so does an entry
of another type that has found the queue full. -/
def execLaunchComplete (stream : BitVec 14) (seq : BitVec 64) (s : State) : Host.Outcome State Fault Refusal :=
  let k : EKey := ⟨stream, seq⟩
  match s.entry k with
  | none => .next s
  | some e =>
    if e.stage ≠ .finished ∨ 1024 ≤ s.land.queue.length then .next s
    else if !e.etype.isLaunch then .next (s.landIn k).settle
    else
      let st := e.status.status
      let s := if e.etype = .tableUpdate ∧ st ≠ 0 then s.setBit (rTIDE e.part 8) 30 true else s
      let fields : Dword := 0#4 ++ (stream.setWidth 20) ++ (e.ctx.extractLsb' 0 16) ++ BitVec.ofNat 8 st ++ 0#16
      let s := s.traceRec 2 (some e.part) fields
      .next ((s.landIn k).auditKick).settle

/-! ## The digest of an audited completion (R423 to R425, R464, R465) -/

/-- The audit record (R424). -/
def auditRecord (k : EKey) (e : Entry) (digest : BitVec 256) (ph : BitVec 1) : Line :=
  let w38 : Dword := ph ++ 0#31 ++ e.dur
  let w30 : Dword := BitVec.ofNat 8 e.status.status ++ e.ctx ++ (k.stream.setWidth 32)
  let hi : BitVec 256 := w38 ++ w30 ++ e.seqNo ++ e.cookie
  hi ++ digest

/-- The completion's audit record is written or dropped: what was read for it is not wanted any more. -/
def State.insLeave (s : State) (k : EKey) : State := { s with aud := { s.aud with ins := s.aud.ins.filter (fun x => x.e ≠ k) } }

/-- The completion leaves the hash engine's list. -/
def State.hashLeaves (s : State) (k : EKey) : State := { s with land := { s.land with hashing := s.land.hashing.filter (· ≠ k) } }

/-- A completion has its digest: write its audit record, or drop it when the ring is full (R425). With FULL_STALL it waits until
CONS moves, behind no completion of another partition. -/
def State.auditWrite (s : State) (k : EKey) (e : Entry) (x : AudIn) : State :=
  let r := fun off => rAUDT (off + 0x10 * e.part.toNat)
  let cfg := s.rd (r 0x108)
  let size := 2 ^ (cfg.extractLsb' 0 5).toNat
  let prod := (cfg.extractLsb' 12 16).toNat
  let full := decide ((prod + 1) % size = s.num (r 0x10C) 0 16)
  if full && bit cfg 30 then s
  else if full then
    let s := ((s.bumpF (r 0x10C) 16 16).setErr pAUDT 18).updEntry k (fun e => { e with audLost := true })
    ((s.insLeave k).land1b k).settle
  else
    let ph := cfg.extractLsb' 29 1
    let wrap := decide (prod + 1 = size)
    let blk := e.lines.getD 0 0
    let pd := progDigest blk (x.prog.getD 0)
    let md := modelDigest x.mid (x.model.getD 0)
    let dig := shaOut ((canonical pd md (inputDigest e.lines) (blkSeed blk) e.engines).foldl shaBlock shaInit)
    let s := if pd = 0 ∨ md = 0 then s.bump (rAUDT 0x228) else s
    let s := s.wr (r 0x108) (putBits (putBits cfg 12 (BitVec.ofNat 16 (if wrap then 0 else prod + 1))) 29 (if wrap then ph ^^^ 1#1 else ph))
    let s := (s.insLeave k).updEntry k (fun e => { e with lstep := 2, audIdx := some (BitVec.ofNat 32 prod) })
    s.write (s.addrPair (r 0x100) 12 + BitVec.ofNat 57 (64 * prod)) 64 [auditRecord k e dig ph] (.audit k)

/-- A completion whose digest is known goes on to step 1 (R406), behind earlier ones of its partition that wait for room in its audit
ring, and not while REFRESH reads its function's entry (R409). -/
def State.auditGo (s : State) (k : EKey) : State :=
  match s.entry k, s.aud.ins.find? (fun x => decide (x.e = k)) with
  | some e, some x =>
    let behind := (s.land.queue.takeWhile (· ≠ k)).any (fun j => match s.entry j with
      | some e' => decide (e'.lstep = 9) && decide (e'.part = e.part) | none => false)
    if e.lstep ≠ 9 ∨ behind ∨ s.refreshing (funcOf k.stream) then s else s.auditWrite k e x
  | _, _ => s

/-- Completions whose digests are known are tried again, oldest first. -/
def State.auditResume (s : State) : State := s.land.queue.foldl State.auditGo s

/-- A completion before `k` in the queue may still turn out to be audited: its function's entry has not come (R423). -/
def State.hashWaits (s : State) (k : EKey) : Bool :=
  (s.land.queue.takeWhile (· ≠ k)).any (fun j => match s.entry j with
    | some e => decide (e.lstep = 0) && e.etype.isLaunch && e.executed && s.flag (rAUDT (0x108 + 0x10 * e.part.toNat)) 31
    | none => false)

/-- AUDIT_DIGEST_DONE (R423): the hash engine has served the oldest audited completion, whose table lines have come. -/
def execAuditDigestDone (s : State) : Host.Outcome State Fault Refusal :=
  match s.land.hashing with
  | [] => .next s
  | k :: _ => match s.entry k, s.aud.ins.find? (fun x => decide (x.e = k)) with
    | some _, some x =>
      if x.prog.isSome ∧ x.model.isSome ∧ !s.hashWaits k then .next (((s.hashLeaves k).updEntry k (fun e => { e with lstep := 9 })).auditGo k)
      else .next s
    | some _, none => .next s.auditKick
    | none, _ => .next (s.hashLeaves k)

/-! ## Function entries (R409, R410, R426) -/

/-- The completions of a function that wait for its entry, at any step, go on in the order of the queue. -/
def State.fevResume (s : State) (f : BitVec 12) : State :=
  let s := (s.land.queue.filter (fun k => decide (funcOf k.stream = f))).foldl (fun s k => match s.entry k with
    | some e => if e.lstep = 0 then s.land1 k else if e.lstep = 7 ∧ !s.signalsHeld then s.land3Go k else s
    | none => s) s
  (s.land.step2.filter (fun k => decide (funcOf k.stream = f))).foldl State.land2 s

/-- Landing first reads a function's entry: what REFRESH compares with from then on (R409). -/
def State.noteUsed (s : State) (f : BitVec 12) (l : Line) (again : Bool) : State :=
  if again || (Tbl.get (fun _ => none) s.land.used f.toNat).isNone then
    { s with land := { s.land with used := Tbl.set (fun _ => none) s.land.used f.toNat (some l) } }
  else s

/-- The whole entry has come (R410): what waits for it goes on. -/
def State.fevFill (s : State) (f : BitVec 12) (lines : List Line) : State :=
  let s := s.updFev f (fun x => { x with lines := lines, missing := 0 })
  let s := (s.noteUsed f (lines.getD 0 0) false).fevResume f
  let hits := s.land.faults.filter (· = f)
  let s := { s with land := { s.land with faults := s.land.faults.filter (· ≠ f) } }
  hits.foldl (fun s f => s.faultVec f) s

/-- A read of a function's entry has failed (R426): it is counted, and the event names the function. -/
def State.fevErr (s : State) (f : BitVec 12) : State :=
  (s.bump (rAUDT 0x60)).raise { ev pAUDT 0x74 1 with func := some f, part := s.partOf f }

/-- The read of a function's entry has failed (R426): the completions that waited for it apply their signals only. -/
def State.fevFail (s : State) (f : BitVec 12) : State :=
  let s := { s with land := { s.land with fev := s.land.fev.filter (fun x => x.func ≠ f), faults := s.land.faults.filter (· ≠ f) } }
  let s := s.fevErr f
  (s.land.queue.filter (fun k => decide (funcOf k.stream = f))).foldl (fun s k => match s.entry k with
    | some e => if e.lstep = 0 ∨ e.lstep = 3 then s.landSignals k else if e.lstep = 7 then s.signalsLeft k else s
    | none => s) s

/-- Whether the completion queue of class c differs between two copies of line 0x00 (R409). -/
def cqChanged (a b : Line) (c : Nat) : Bool :=
  let f := fun (l : Line) => let w := Line.w64 l (16 * c); (w.extractLsb' 12 45, w.extractLsb' 0 5)
  decide (f a ≠ f b)

/-- The three lines of a REFRESH have come (R409). -/
def State.refreshIn (s : State) (f : BitVec 12) (lines : List Line) : State :=
  match s.fev f with
  | none => s.fevEnd 0
  | some x =>
    let old := (Tbl.get (fun _ => none) s.land.used f.toNat).getD (x.lines.getD 0 0)
    let swl := x.lines.getD 3 0
    let swl := (List.range 4).foldl (fun l c => if cqChanged old (lines.getD 0 0) c then Line.put l (4 * c) 0x00010000#32 else l) swl
    let x' : Fev := { x with lines := lines.take 3 ++ [swl] }
    let pba := Line.w32 swl 0x10
    let due := vectors.filter (fun v => !x'.masked v && bit pba v.toNat)
    let pba' := due.foldl (fun (w : Word) v => w &&& ~~~(1#32 <<< v.toNat)) pba
    let s := s.updFev f (fun _ => { x' with lines := x'.lines.modify 3 (fun l => Line.put l 0x10 pba'), dirty := true })
    let s := s.noteUsed f (lines.getD 0 0) true
    let s := vectors.foldl (fun s v => s.setVec f v { s.vec f v with badSeen := false }) s
    let s := due.foldl (fun s v => s.vecEvent f v) s
    let s := vectors.foldl (fun s v => s.tryMessageAt f v none) s
    (s.fevEnd 0).fevResume f

/-- Landing's copies of a launch's digest-table lines (R465): an error reads as zeros. -/
def State.progIn (s : State) (k : EKey) (l : Line) : State :=
  { s with aud := { s.aud with ins := s.aud.ins.map (fun x => if x.e = k then { x with prog := some l } else x) } }

/-- The model line of a partition has come (R465); it is kept unless its read failed. -/
def State.modelIn (s : State) (p : BitVec 4) (err : Bool) (l : Line) : State :=
  let ins := s.aud.ins.map (fun x => match s.entry x.e with
    | some e => if e.part = p ∧ x.model.isNone then { x with model := some l } else x
    | none => x)
  let kept := if err then s.aud.models else Tbl.set (fun _ => none) s.aud.models p.toNat (some l)
  { s with aud := { s.aud with ins := ins, models := kept } }

/-- FEV_READ_RETURN (R409, R410, R426, R465): a read of Landing returns. -/
def execFevReadReturn (mtag : BitVec 8) (gen : BitVec 4) (err : Bool) (lines : List Line) (s : State) : Host.Outcome State Fault Refusal :=
  let r := s.answer true mtag gen
  match r.2 with
  | none => .next r.1
  | some q =>
    if lines.length * 64 ≠ q.len ∧ !err then .fault .illFormed
    else
      let l := if err then 0#512 else lines.getD 0 0
      match q.why with
      | .fevRead f =>
        if q.len = 192 then
          .next (if err then (((r.1.fevErr f).fevEnd 2).fevResume f).auditResume else (r.1.refreshIn f lines).auditResume).landAgain
        else
          let cmd := decide (r.1.land.cmd = some (1, f))
          let s := if err then r.1.fevFail f else ((r.1.fevFill f lines).auditKick).auditResume
          .next (if err && cmd then s.fevEnd 2 else s).landAgain
      | .progEntry k => .next (r.1.progIn k l)
      | .modelLine p => .next (r.1.modelIn p err l)
      | .modelOnce es => .next { r.1 with aud := { r.1.aud with ins := r.1.aud.ins.map (fun x => if x.e ∈ es then { x with model := some l } else x) } }
      | _ => .next s

/-! ## Acknowledgements (R406, R417, R426) -/

/-- RECORD_WRITE_ACK (R406): the record is written; the fence write is issued and the signals are offered. -/
def execRecordWriteAck (mtag : BitVec 8) (gen : BitVec 4) (err : Bool) (s : State) : Host.Outcome State Fault Refusal :=
  let r := s.answer false mtag gen
  match r.2 with
  | none => .next r.1
  | some q => match q.why with
    | .record k => match r.1.entry k with
      | none => .next r.1
      | some e =>
        let s := if err then r.1.landErr k (some e.part) 0x70 else r.1
        let s := ((s.progress e.part).recPassed k).land3 k
        .next (s.land2Retry k.stream).landAgain
    | _ => .next s

/-- FENCE_WRITE_ACK (R417, R418, R261): the fence word is raised; poll entries on it see its value, and the event becomes
pending. -/
def execFenceWriteAck (fab : Bool) (mtag : BitVec 8) (gen : BitVec 4) (err : Bool) (old : BitVec 64) (s : State) :
    Host.Outcome State Fault Refusal :=
  let r := s.answerAtom fab mtag gen
  match r.2 with
  | none => .next r.1
  | some q => match q.why with
    | .fence k => match r.1.entry k with
      | none => .next r.1
      | some e =>
        let s := if err then r.1.landErr k (some e.part) 0x71
          else r.1.fenceWritten q.addr (if old < e.cookie then e.cookie else old)
        .next (s.land4 k).landAgain
    | _ => .next s

/-- MSG_WRITE_ACK (R426): a message is written; so is a function entry's line that FLUSH or an eviction wrote back
(R410, R428). A REFRESH that has waited for the write goes on (R409). -/
def execMsgWriteAck (mtag : BitVec 8) (gen : BitVec 4) (err : Bool) (s : State) : Host.Outcome State Fault Refusal :=
  let r := s.answer false mtag gen
  match r.2 with
  | none => .next r.1
  | some q => match q.why with
    | .message f _ =>
      let s := if err then ((r.1.bump (rAUDT 0x60)).setErr pAUDT 17).raise { ev pAUDT 0x72 1 with func := some f, part := r.1.partOf f } else r.1
      .next s.landAgain
    | .fevWrite _ => .next r.1.flushTry.landAgain
    | _ => .next s

/-- AUDIT_WRITE_ACK (R406, R426, R458): the audit record, or a digest-log entry, is written. -/
def execAuditWriteAck (mtag : BitVec 8) (gen : BitVec 4) (err : Bool) (s : State) : Host.Outcome State Fault Refusal :=
  let r := s.answer false mtag gen
  match r.2 with
  | none => .next r.1
  | some q => match q.why with
    | .audit k => match r.1.entry k with
      | none => .next r.1
      | some e =>
        let s := if err then
            ((r.1.bump (rAUDT 0x60)).raise ((ev pAUDT 0x73 1).ofEntry k e)).updEntry k (fun e => { e with audIdx := none, audLost := true })
          else r.1
        .next (s.land1b k).landAgain
    | .dlog k launch =>
      if !launch then .next r.1
      else
        let s := { r.1 with aud := { r.1.aud with logs := r.1.aud.logs.erase k } }
        match s.entry k with
        | some e => .next (if e.lstep = 6 then s.land2 k else s).landAgain
        | none => .next s
    | _ => .next s

/-- MSG_HOLDOFF_TICK (R421): at a 64 ns tick, vectors whose hold-off has passed issue their messages. -/
def execMsgHoldoffTick (s : State) : Host.Outcome State Fault Refusal :=
  let now : Dword := s.viewTime / 64 * 64
  let s := (s.land.fev.map (·.func)).foldl (fun s f => vectors.foldl (fun s v => s.tryMessageAt f v (some now)) s) s
  .next s.fevRetry

/-! ## FEV commands (R428) -/

/-- A write of AUDT.FEV_CMD with OP 1 to 3, whose FUNC has been stored (R428). -/
def State.fevCmd (s : State) (op : BitVec 4) : State :=
  if s.flag (rAUDT 0x48) 27 then s.setErr pAUDT 19
  else
    let f := s.fld (rAUDT 0x48) 0 12
    let s := (s.setBit (rAUDT 0x48) 27 true).setF (rAUDT 0x48) 20 (0#4)
    if !s.fevValid then s.fevEnd 1
    else
      let s := { s with land := { s.land with cmd := some (op, f) } }
      if op = 1 then s.refreshTry
      else
        let xs := s.land.fev.filter (fun x => decide (x.missing = 0) && (decide (op = 3) || decide (x.func = f)))
        (xs.foldl State.fevBack s).flushTry

end Sys2Proof.Machine
end

