-- ==== Sys2Proof/Machine/Audit.lean ====
section
/-! DEFINITION. Registration of digests (spec/14_determinism_and_audit.md R460 to R463) and Tide-lock runs (R452 to R454, with
the alignment condition of spec/18 R553 and spec/21 R621). -/
namespace Sys2Proof.Machine

/-! ## Registration commands (R461) -/

/-- DIG_CMD and its ERR codes. -/
def rDIG : Nat := rAUDT 0x210

/-- The end of a registration command (R461): its ADD follows unless it ended with SO_RANGE. -/
def State.digEnd (s : State) (err : BitVec 4) : State :=
  let s := ({ s with aud := { s.aud with dig := none } }.setBit rDIG 27 false).setF rDIG 20 err
  let s := if err = 0 then s else s.setErr pAUDT 25
  if err = 5 then s else s.cmdAdd (s.rd (rAUDT 0x224))

/-- Index of the table line that a command acts on: 0 is the model line. -/
def State.digLine (s : State) (op : BitVec 4) (p : BitVec 4) (a : Addr) : Nat := if op = 1 ∨ op = 3 then s.dtabIndex p a else 0

/-- The table line that a registration writes, without its digest (R460). -/
def digBase (op : BitVec 4) (a : Addr) (lines model : Word) : Line :=
  let k : BitVec 1 := if op = 2 then 1 else 0
  let w8 : Dword := 1#1 ++ k ++ 0#30 ++ lines
  let l := Line.put (Line.put (0 : Line) 0 (a.setWidth 64)) 8 w8
  if op = 2 then Line.put l 0x10 model else l

/-- Read the next lines of the range, at most 8 (R584). -/
def State.digRead (s : State) (c : DigCmd) : State :=
  { s with aud := { s.aud with dig := some c } }.read c.addr (min 8 c.left) (.digCmd 1)

/-- The hash of the range is complete, or there is none: write the table line. -/
def State.digWrite (s : State) (c : DigCmd) (l : Line) : State :=
  { s with aud := { s.aud with dig := some { c with step := 2 } } }.write
    (s.dtabAddr c.part (s.digLine c.op c.part (entryAddr c.entry))) 64 [l] (.digCmd 2)

/-- A registration command starts (R461): SO_RANGE is checked before the table. -/
def State.digCmd (s : State) (op : BitVec 4) : State :=
  if s.flag rDIG 27 then s.setErr pAUDT 21
  else
    let p := s.fld rDIG 0 4
    let s := (s.setBit rDIG 27 true).setF rDIG 20 (0#4)
    let n := s.rd (rAUDT 0x21C)
    let model := s.rd (rAUDT 0x220)
    let a := s.addrPair (rAUDT 0x214) 6
    if s.soBad p (s.rd (rAUDT 0x224)) then s.digEnd 5
    else if !s.dtabValid p then s.digEnd 1
    else if (op = 1 ∧ ¬(1 ≤ n.toNat ∧ n.toNat ≤ 512)) ∨ (op = 2 ∧ (n = 0 ∨ model = 0)) then s.digEnd 2
    else
      let c : DigCmd := ⟨op, p, 0, digBase op a n model, n.toNat, a, shaInit⟩
      if op = 2 then s.digRead { c with step := 1 }
      else { s with aud := { s.aud with dig := some c } }.read (s.dtabAddr p (s.digLine op p a)) 1 (.digCmd 0)

/-- A read of a registration command has come back. -/
def State.digStep (s : State) (c : DigCmd) (lines : List Line) : State :=
  if c.step = 0 then
    let l := lines.getD 0 0
    let other := decide (entryAddr l ≠ entryAddr c.entry) || decide (entryLines l ≠ entryLines c.entry)
    if c.op = 1 then (if entryValid l && other then s.digEnd 3 else s.digRead { c with step := 1 })
    else if c.op = 3 ∧ ¬(entryValid l ∧ entryAddr l = entryAddr c.entry) then s.digEnd 2
    else s.digWrite c (Line.put l 0xC (Line.w32 l 0xC &&& 0x7FFFFFFF))
  else
    let h := lines.foldl shaBlock c.hash
    let left := c.left - lines.length
    let c := { c with hash := h, left := left, addr := c.addr + BitVec.ofNat 57 (64 * lines.length) }
    if left = 0 then
      let dig := shaOut (shaBlock h (shaPad (entryLines c.entry)))
      let s := (List.range 8).foldl (fun s i => s.wr (rAUDT (0x240 + 4 * i)) (dig.extractLsb' (32 * i) 32)) s
      s.digWrite c (Line.put c.entry 0x20 dig)
    else s.digRead c

/-- DIG_CMD_DONE (R461, R465): an access of the registration command ends, and with the acknowledgement of its write the
command. -/
def execDigCmdDone (write : Bool) (mtag : BitVec 8) (gen : BitVec 4) (err : Bool) (lines : List Line) (s : State) :
    Host.Outcome State Fault Refusal :=
  let r := s.answer (!write) mtag gen
  match r.2 with
  | none => .next r.1
  | some q => match q.why, r.1.aud.dig with
    | .digCmd _, some c =>
      if !write && !err && decide (lines.length ≠ q.len / 64) then .fault .illFormed
      else if err then .next (r.1.digEnd 4)
      else if write then .next ((if c.op = 2 ∨ c.op = 4 then r.1.modelForget c.part else r.1).digEnd 0)
      else .next (r.1.digStep c lines)
    | .digCmd _, none => .next r.1
    | _, _ => .next s

/-! ## Tide-lock runs (R452 to R454) -/

/-- REPRO_CMD and REPRO_STAT. -/
def rREPRO : Nat := rAUDT 0x200
def rRSTAT : Nat := rAUDT 0x204

/-- The partitions with MODE TIDE_LOCK (R452). -/
def State.tideLocked (s : State) : BitVec 16 :=
  (List.range 16).foldl (fun (b : BitVec 16) p => if s.num (rAUDT (0x280 + 4 * p)) 30 2 = 2 then b ||| (1#16 <<< p) else b) 0

/-- Place of a clock's multiplier, the clocks indexed as CLKR.MEASURE: register offset and low bit (R561). -/
def multPlace (i : Nat) : Nat × Nat :=
  if i = 0 then (0x44, 0) else if i = 1 then (0x44, 8) else if i = 10 then (0x44, 16) else if i = 11 then (0x44, 24)
  else (0x48 + 4 * ((i - 2) / 4), 8 * ((i - 2) % 4))

/-- The multiplier of a clock (R549). -/
def State.mult (s : State) (i : Nat) : Nat := s.num (pageAddr pCLKR (multPlace i).1) (multPlace i).2 8

/-- A clock other than CCLK is in the lock set (R561). -/
def State.inLockSet (s : State) (i : Nat) : Bool := s.flag (pageAddr pCLKR 0x40) i

/-- A group's crossing counts as ratio-locked (R549, R621). -/
def State.ratioLocked (s : State) (g : Nat) : Bool :=
  let i := if (s.linkOf g).isSome then 11 else 2 + g
  s.inLockSet i && decide (s.mult i % s.mult 0 = 0)

/-- CLKR.ALIGN_STAT.RATIO_OK (R553). -/
def State.ratioOk (s : State) : Bool :=
  decide (s.num (pageAddr pCLKR 0x50) 30 2 = 2) && s.inLockSet 1 && (List.range (s.ecpCount / 16)).all s.ratioLocked

/-- The end of a REPRO command. -/
def State.reproEnd (s : State) (err : BitVec 4) : State := (s.setBit rREPRO 27 false).setF rREPRO 20 err

/-- A write of AUDT.REPRO_CMD with OP 1 to 3 (R452, R454, log entry 24). -/
def State.reproCmd (s : State) (op : BitVec 4) : State :=
  if s.flag rREPRO 27 then s.setErr pAUDT 22
  else
    let st := s.num rRSTAT 30 2
    if op = 1 then
      if st ≠ 0 then s.reproEnd 3
      else if !s.ratioOk then s.reproEnd 1
      else if s.tideLocked = 0 then s.reproEnd 2
      else ((s.setBit rREPRO 27 true).setF rREPRO 20 (0#4)).wr rRSTAT (1#2 ++ 0#14 ++ s.tideLocked)
    else if op = 2 then
      if st ≠ 2 then s.reproEnd 3
      else { (s.setBit rREPRO 27 true).setF rREPRO 20 (0#4) with aud := { s.aud with going := true } }
    else (s.wr rRSTAT 0).reproEnd 0

/-- The block is idle for ARM (R452): no entry between stage 3 and its completion record, no flit, no Shoal window, no queued
completion. -/
def State.armIdle (s : State) : Bool :=
  s.allEntries.all (fun x => x.2.recDone) && s.disp.cands.isEmpty && s.disp.cmds.isEmpty && s.shoal.wins.isEmpty && s.land.queue.isEmpty

/-- Unlocked programs of a bank are invalid (R453). -/
def Bank.keepLocked (b : Bank) : Bank := { b with progs := b.progs.map (fun p => { p with valid := p.valid && p.lock }) }

/-- ARM (R453): fetch caches and queues, the Ferry's cursor and directory cache, and idle Harbour slots. -/
def State.armQueues (s : State) : State :=
  let s := { s with
    fetch := { s.fetch with q0 := [], q1 := [], q2 := [], q3 := [], cache := [] }
    ferry := { s.ferry with last := 15, dirs := s.ferry.dirs.filter (fun x => x.2.2.pinned), ahead := [] } }
  ((List.range 64).filter (fun k => decide ((s.slot k).st = .idle))).foldl State.evict s

/-- ARM (R453): unlocked programs, the cores' cursors and dispatch's counters and cursors. -/
def State.armCores (s : State) : State :=
  let s := allCores.foldl (fun s k =>
    let c := s.core k
    s.setCore k { c with bankA := c.bankA.keepLocked, bankB := c.bankB.keepLocked, lastThread := 0 }) s
  { s with disp := { s.disp with deficit := [], ptr := [], rr := [] } }

/-- A message vector's time of its last message goes back to 0. -/
def vecArm (x : Nat × Vec) : Option (Nat × Vec) :=
  let v : Vec := { x.2 with last := 0 }
  if v = Vec.reset then none else some (x.1, v)

/-- ARM (R453): Landing's function entries are written back and its message times go to 0. -/
def State.armLanding (s : State) : State :=
  let s := (s.land.fev.filter (fun x => decide (x.missing = 0))).foldl State.fevBack s
  { s with land := { s.land with fev := [], vecs := s.land.vecs.filterMap vecArm } }

/-- ARM's reset of R453. -/
def State.armReset (s : State) : State := s.armQueues.armCores.armLanding

/-- ARM_DONE (R453): once the block is idle, ARM resets what the table names and reads ARMED. -/
def execArmDone (s : State) : Host.Outcome State Fault Refusal :=
  if s.num rRSTAT 30 2 = 1 ∧ s.armIdle then .next ((s.armReset.setF rRSTAT 30 (2#2)).reproEnd 0) else .next s

/-- RUN_START (R454): PAUSE clears on every stream of the run's partitions, and the device time is recorded. -/
def execRunStart (s : State) : Host.Outcome State Fault Refusal :=
  if !s.aud.going then .next s
  else
    let mine := s.streams.filter (fun x => x.2.pause && (match s.partOf (funcOf (BitVec.ofNat 14 x.1)) with | some p => s.inRun p | none => false))
    let s := mine.foldl (fun s x => s.resumeStream (BitVec.ofNat 14 x.1)) s
    let s := ({ s with aud := { s.aud with going := false } }.setF rRSTAT 30 (3#2)).wr64 (rAUDT 0x208) s.time
    .next (s.reproEnd 0)

/-- A run in progress ends (R467). -/
def State.runEnds (s : State) : State :=
  if s.num rRSTAT 30 2 = 0 then s else ({ s with aud := { s.aud with going := false } }.wr rRSTAT 0).setBit rREPRO 27 false

end Sys2Proof.Machine
end

