-- ==== Sys2Proof/Machine/Beacon.lean ====
section
/-! DEFINITION. The Beacon interrupt controller (spec/13_beacon_interrupts.md). -/
namespace Sys2Proof.Machine

/-- Register addresses of the BCON page (R443). -/
def rBCON (off : Nat) : Nat := pageAddr pBCON off

/-- A source that R431 assigns. -/
def srcAssigned (n : Nat) : Bool :=
  decide (n ≤ 6) || (decide (64 ≤ n) && decide (n < 256) && (pageAt (n - 64)).isSome) || (decide (256 ≤ n) && decide (n < 512))

/-- Bit of a software source: its SW word and its place (R443). -/
def State.swBit (s : State) (n : Nat) : Bool := s.flag (rBCON (0x2C0 + 4 * ((n - 256) / 32))) ((n - 256) % 32)

/-- The condition of a source (R431). -/
def State.srcCond (s : State) (n : Nat) : Bool :=
  if n ≤ 5 then s.flag (pageAddr pREEF 0x48) (5 - n)
  else if n = 6 then s.lhse.a || s.lhse.b
  else if 64 ≤ n ∧ n < 256 then decide (s.rd (pageAddr (n - 64) 0x14) &&& s.rd (pageAddr (n - 64) 0x18) ≠ 0)
  else if 256 ≤ n ∧ n < 512 then s.swBit n
  else false

/-- The source is asserted as Beacon sees it (R432, R439): a software bit at once, another condition once it has been seen. -/
def State.srcSeen (s : State) (n : Nat) : Bool :=
  if 256 ≤ n then s.srcCond n else Tbl.get (fun _ => false) s.bcon.seen n

/-- EN of a source and its mask (R443). -/
def State.srcEn (s : State) (n : Nat) : Bool := s.flag (rBCON (0x200 + 4 * (n / 32))) (n % 32)
def State.srcMask (s : State) (n t : Nat) : Bool := s.flag (rBCON (0x400 + 4 * n)) t

/-- What a target holds (R434). -/
def State.holds (s : State) (t : Nat) : Option Nat := Tbl.get (fun _ => none) s.bcon.claims t

/-- The source is CLAIMED (R432). -/
def State.srcClaimed (s : State) (n : Nat) : Bool := s.bcon.claims.any (fun x => decide (x.2 = some n))

/-- The source is PENDING (R432). -/
def State.srcPending (s : State) (n : Nat) : Bool := srcAssigned n && s.srcSeen n && s.srcEn n && !s.srcClaimed n

/-- The hold-off timer of a group runs (R437). -/
def State.holdRuns (s : State) (g : Nat) : Bool := decide (Tbl.get (fun _ => 0#64) s.bcon.hold g ≠ 0)

/-- Source n is presented to target t (R433). -/
def State.presented (s : State) (t n : Nat) : Bool :=
  s.srcPending n && s.srcMask n t && !s.holdRuns (n / 16) && (s.holds t).isNone

/-- The lowest-numbered source presented to a target (R434). -/
def State.topSource (s : State) (t : Nat) : Option Nat := (List.range 512).find? (fun n => s.presented t n)

/-- IRQ_OUT[t], one HCLK later (R433), while PD1 is not isolated (R442). -/
def State.irqOut (s : State) (t : Nat) : Bool := s.powered 1 && s.pageEn pBCON && s.flag (rBCON (0x80 + 4 * t)) 0 && (s.topSource t).isSome

/-- SOURCE_ASSERT (R432, R439): Beacon sees that the condition of a level source has become `level`. -/
def execSourceAssert (source : BitVec 9) (level : Bool) (s : State) : Host.Outcome State Fault Refusal :=
  let n := source.toNat
  if srcAssigned n ∧ n < 256 ∧ s.srcCond n = level ∧ s.powered 1 then
    let s := if level then s.idleExit else s
    .next { s with bcon := { s.bcon with seen := Tbl.set (fun _ => false) s.bcon.seen n level } }
  else .next s

/-- A read of BCON.CLAIM[t] (R434): the state after it, and the source that it returns. -/
def State.claimRead (s : State) (t : Nat) : State × Nat :=
  match s.topSource t with
  | none => (s.bump (rBCON 0xC0), 0x3FF)
  | some n =>
    let s := { s with bcon := { s.bcon with claims := Tbl.set (fun _ => none) s.bcon.claims t (some n) } }
    let s := if 256 ≤ n then s.setBit (rBCON (0x2C0 + 4 * ((n - 256) / 32))) ((n - 256) % 32) false else s
    (s.bump (rBCON 0xC8), n)

/-- A write of source n to BCON.COMPLETE[t] (R436, R437). -/
def State.completeWrite (s : State) (t n : Nat) : State :=
  if s.holds t = some n then
    let s := { s with bcon := { s.bcon with claims := Tbl.set (fun _ => none) s.bcon.claims t none } }
    let g := n / 16
    let h := s.num (rBCON (0x100 + 4 * g)) 0 16
    if h = 0 then s
    else
      let stop := ceilDiv (s.time.toNat + h * 64) 64 * 64
      { s with bcon := { s.bcon with hold := Tbl.set (fun _ => 0) s.bcon.hold g (BitVec.ofNat 64 stop) } }
  else (s.bump (rBCON 0xC4)).setErr pBCON 16

/-- HOLDOFF_EXPIRE (R437): a group's hold-off ends once device time has reached its expiry. -/
def execHoldoffExpire (group : BitVec 5) (s : State) : Host.Outcome State Fault Refusal :=
  let g := group.toNat
  if s.holdRuns g ∧ Tbl.get (fun _ => 0#64) s.bcon.hold g ≤ s.time then
    .next { s with bcon := { s.bcon with hold := Tbl.set (fun _ => 0) s.bcon.hold g 0 } }
  else .next s

/-- A write of BCON.SW[j] sets bits; one of BCON.SW_CLR[j] clears them (R443). -/
def State.swSet (s : State) (j : Nat) (v : Word) : State := s.wr (rBCON (0x2C0 + 4 * j)) (s.rd (rBCON (0x2C0 + 4 * j)) ||| v)
def State.swClear (s : State) (j : Nat) (v : Word) : State := s.wr (rBCON (0x2C0 + 4 * j)) (s.rd (rBCON (0x2C0 + 4 * j)) &&& ~~~v)

/-- Every level source is evaluated again from its condition (R441, R442). -/
def State.srcEvaluate (s : State) : State :=
  { s with bcon := { s.bcon with seen := (List.range 256).filterMap (fun n => if srcAssigned n && s.srcCond n then some (n, true) else none) } }

/-- Claims, software sources and hold-off timers are cleared (R441). -/
def State.beaconClear (s : State) : State :=
  let s := { s with bcon := { s.bcon with claims := [], hold := [] } }
  ((List.range 8).foldl (fun s j => s.wr (rBCON (0x2C0 + 4 * j)) 0) s).srcEvaluate

/-- Beacon's SRST also resets its counters and PG_ERR (R441). -/
def State.beaconReset (s : State) : State :=
  (((s.wr (rBCON 0xC0) 0).wr (rBCON 0xC4) 0).wr (rBCON 0xC8) 0).wr (pageAddr pBCON 0x14) 0 |>.beaconClear

/-- Beacon's state is back after a wake (R442): a stored expiry that has passed counts as expired. -/
def State.beaconRestore (s : State) : State :=
  { s with bcon := { s.bcon with hold := s.bcon.hold.filter (fun x => decide (s.time < x.2)) } }.srcEvaluate

end Sys2Proof.Machine
end

