-- ==== Sys2Proof/Machine/Reef.lean ====
section
/-! DEFINITION. Reef and Lighthouse (spec/15_reef_faults.md). -/
namespace Sys2Proof.Machine

/-- Register addresses of the REEF and LHSE pages (R492, R493). -/
def rREEF (off : Nat) : Nat := pageAddr pREEF off
def rLHSE (off : Nat) : Nat := pageAddr pLHSE off

/-! ## Records and the fault state (R469 to R477) -/

/-- An event's record: its first two words, its third with severity bits `sev`, its fourth with a sequence (R469). -/
def Event.record (e : Event) (time : Dword) (sev : BitVec 6) (seq : BitVec 8) : BitVec 256 :=
  let opt := fun (w : Nat) (x : Option Nat) => (BitVec.ofBool x.isSome) ++ (BitVec.ofNat w (x.getD 0))
  let w1 : Dword := e.akind ++ 0#5 ++ (if e.akind = 0 then 0 else e.addr)
  let w2lo : Word := 0#1 ++ opt 6 (e.part.map (·.toNat)) ++ 0#2 ++ sev ++ e.code ++ e.unit
  let w2hi : Word := 0#11 ++ opt 20 (e.stream.map (·.toNat))
  let w3lo : Word := 0#7 ++ opt 24 (e.ctx.map (·.toNat))
  let w3hi : Word := seq ++ 0#7 ++ opt 16 (e.func.map (·.toNat))
  w3hi ++ w3lo ++ w2hi ++ w2lo ++ w1 ++ time

/-- REEF.CTRL.FAULT_MIN. -/
def State.faultMin (s : State) : Nat := s.num (rREEF 0x40) 0 3

/-- Reef is in FAULT (R474). -/
def State.inFault (s : State) : Bool := s.flag (rREEF 0x44) 31

/-- The quiet timer is held by a reset that an event of the current fault caused (R475). -/
def State.quietHeld (s : State) : Bool :=
  s.inFault && (s.rst.parts.any (fun x => match x.2 with | some r => r.fault | none => false) ||
    (match s.rst.block with | some r => r.fault | none => false) || (decide (s.faultMin ≤ 4) && s.rst.partWant.any (fun x => decide (x.2 = .s4))) ||
    decide (s.rst.blockWant = some .s5))

/-- QUIET_TIME in nanoseconds. -/
def State.quietNs (s : State) : Dword := BitVec.ofNat 64 (s.num (rREEF 0x4C) 0 20 * 1000)

/-- Start or restart the quiet timer (R474, R475). -/
def State.quietStart (s : State) : State :=
  { s with reef := { s.reef with quietDur := s.quietNs, quietEnd := s.time + s.quietNs } }

/-- A reset that held the quiet timer has ended: it starts counting from its full value (R475). -/
def State.quietRelease (s : State) : State :=
  if s.inFault && !s.quietHeld then { s with reef := { s.reef with quietEnd := s.time + s.reef.quietDur } } else s

/-- PG_STAT.FAULT of a page (R477). -/
def State.pageFault (s : State) (page : Nat) : Bool := decide (Tbl.get (fun _ => 0#64) s.reef.pageTimers page ≠ 0)

/-- Reef takes an event: the history entry, the counters, PEND, the fault state and the page's FAULT bit (R472, R474, R476,
R477). -/
def State.reefRecord (s : State) (e : Event) : State :=
  let sev : BitVec 6 := 1#6 <<< e.sev
  let head := s.num (rREEF 0x5C) 8 5
  let seq : BitVec 8 := s.fld (rREEF 0x78) 0 8
  let s := { s with reef := { s.reef with hist := Tbl.set (fun _ => 0) s.reef.hist head (e.record s.time sev seq) } }
  let s := s.setF (rREEF 0x5C) 8 (BitVec.ofNat 5 (head + 1))
  let s := (s.bump (rREEF (0x60 + 4 * e.sev))).bumpWrap (rREEF 0x78)
  let s := s.setBit (rREEF 0x48) e.sev true
  let s := s.traceRec 5 none (0#4 ++ BitVec.ofNat 3 e.sev ++ e.unit ++ e.code ++ BitVec.ofNat 6 ((e.part.map (·.toNat)).getD 0) ++
    BitVec.ofBool e.part.isSome ++ 0#34)
  let fault := decide (s.faultMin ≤ e.sev)
  let s := if e.sev < 2 then s else
    let t := if fault then BitVec.allOnes 64 else s.time + s.quietNs
    if Tbl.get (fun _ => 0) s.reef.pageTimers e.unit.toNat = BitVec.allOnes 64 then s
    else { s with reef := { s.reef with pageTimers := Tbl.set (fun _ => 0) s.reef.pageTimers e.unit.toNat t } }
  if !fault then s
  else if s.inFault then
    let s := { s with reef := { s.reef with fer := putBits s.reef.fer 144 (s.reef.fer.extractLsb' 144 6 ||| sev) } }
    (s.bumpF (rREEF 0x54) 0 16).quietStart
  else
    let s := if s.flag (rREEF 0x58) 30 then s.bumpF (rREEF 0x58) 0 16 else s
    let s := { s with reef := { s.reef with fer := e.record s.time sev 0 } }
    let s := ((s.setF (rREEF 0x54) 0 (0#16)).setBit (rREEF 0x58) 31 true).setBit (rREEF 0x58) 30 true
    (s.setBit (rREEF 0x44) 31 true).quietStart

/-- ALIVE stops, holding its level (R486). -/
def State.aliveStop (s : State) : State := { s with lhse := { s.lhse with aliveOn := false } }

/-- An event is an injected one, of which no action is taken (R492). -/
def Event.injected (e : Event) : Bool := decide (e.unit = BitVec.ofNat 8 pREEF) && decide (e.code = 0x54)

/-- The waiting event that Reef takes next: of the highest severity, the one of the lowest UNIT (R471). -/
def State.reefNext (s : State) : Option Event :=
  leastBy (fun a b => decide (b.sev < a.sev) || (decide (a.sev = b.sev) && decide (a.unit < b.unit))) s.reef.waiting

/-- Reef takes one event (R471, R472, R486), unless PD1 is off (R479). -/
def State.reefTake (s : State) : State :=
  if !s.powered 1 then s else
  match s.reefNext with
  | none => s
  | some e =>
    let s := { s with reef := { s.reef with waiting := s.reef.waiting.erase e } }.reefRecord e
    let s := s.meetLater
    if e.sev = 5 ∧ !e.injected then (s.setBit (rLHSE 0x50) 26 true).aliveStop else s

/-- REEF_TAKE_EVENT (R471, R472). -/
def execReefTakeEvent (s : State) : Host.Outcome State Fault Refusal := .next s.reefTake

/-- QUIET_TIMER_EXPIRE (R474, R475): Reef returns to CLEAR, and every page's FAULT bit clears. -/
def execQuietTimerExpire (s : State) : Host.Outcome State Fault Refusal :=
  if s.inFault ∧ !s.quietHeld ∧ s.reef.quietEnd ≤ s.time then
    .next { (s.setBit (rREEF 0x44) 31 false).bump (rREEF 0x50) with reef := { s.reef with pageTimers := [], quietEnd := 0 } }
  else .next s

/-- PAGE_FAULT_TIMER_EXPIRE (R477): a page's FAULT bit that no fault holds clears. -/
def execPageFaultTimerExpire (page : BitVec 8) (s : State) : Host.Outcome State Fault Refusal :=
  let t := Tbl.get (fun _ => 0#64) s.reef.pageTimers page.toNat
  if t ≠ 0 ∧ t ≠ BitVec.allOnes 64 ∧ t ≤ s.time then
    .next { s with reef := { s.reef with pageTimers := Tbl.set (fun _ => 0) s.reef.pageTimers page.toNat 0 } }
  else .next s

/-- A write of REEF.INJECT with OP INJECT (R492): the event is recorded and no action of its severity is taken. -/
def State.reefInject (s : State) (sev : Nat) : State :=
  if 5 < sev then s.setErr pREEF roWrite else s.intake (ev pREEF 0x54 sev)

/-! ## Duplicated configuration (R480 to R483) -/

/-- The used bits of a function's entry (R480). -/
def fpmUsed (e : BitVec 16) : BitVec 16 := if bit e 6 then 0x004F else 0x0040

/-- The used bits of a partition's entry (R480). -/
def State.pmapUsed (s : State) : BitVec 256 :=
  (BitVec.ofNat 256 (2 ^ s.ecpCount - 1) <<< 128) ||| 0x000000000000FFF7FFF03FFF1FFF0FFF#256

/-- What the scrubber finds in an entry (R482). -/
inductive Scrub (α : Type) where
  | fine | unused (v : α) | fixA (v : α) | fixB (v : α) | conflict | double

/-- The scrubber compares one entry's copies (R482). -/
def scrubOf {w : Nat} (a b : BitVec w) (badA badB : Bool) (used : BitVec w → BitVec w) : Scrub (BitVec w) :=
  if badA && badB then .double
  else if badA then .fixA (b &&& used b)
  else if badB then .fixB (a &&& used a)
  else if a &&& used a ≠ b &&& used b then .conflict
  else if a &&& ~~~used a ≠ 0 ∨ b &&& ~~~used b ≠ 0 then .unused (a &&& used a)
  else .fine

/-- An event of the scrubber, which Reef takes within the pass: it takes one in every CCLK, and the scrubber reports at most one
(R471, R482). -/
def State.scrubEvent (s : State) (e : Event) : State := (s.raise e).reefTake

/-- The scrubber has rewritten an entry (R482). -/
def State.scrubFixed (s : State) (e : Event) : State := ((s.bump (rREEF 0xCC)).setErr pREEF 17).scrubEvent e

/-- Take an uncorrectable mark away. -/
def State.mapMended (s : State) (pm b : Bool) (i : Nat) : State :=
  { s with reef := { s.reef with bad := s.reef.bad.filter (· ≠ (pm, b, i)) } }

/-- Write one copy of a function's entry, or of a partition's entry. -/
def State.putFpm (s : State) (b : Bool) (f : Nat) (v : BitVec 16) : State :=
  (if b then { s with fpmB := Tbl.set (fun _ => 0) s.fpmB f v } else { s with fpmA := Tbl.set (fun _ => 0) s.fpmA f v }).mapMended false b f
def State.putPmap (s : State) (b : Bool) (p : Nat) (v : BitVec 256) : State :=
  (if b then { s with pmapB := Tbl.set (fun _ => 0) s.pmapB p v } else { s with pmapA := Tbl.set (fun _ => 0) s.pmapA p v }).mapMended true b p

/-- Scrub one function's entry (R482). -/
def State.scrubFpm (s : State) (f : Nat) : State :=
  let e := fun (code sev : Nat) => { ev pREEF code sev with func := some (BitVec.ofNat 12 f) }
  match scrubOf (s.fpm false f) (s.fpm true f) (s.mapBad false false f) (s.mapBad false true f) fpmUsed with
  | .fine => s
  | .unused v => ((s.putFpm false f v).putFpm true f v).scrubFixed (e 0x50 0)
  | .fixA v => (s.putFpm false f v).scrubFixed (e 0x51 0)
  | .fixB v => (s.putFpm true f v).scrubFixed (e 0x51 0)
  | .conflict => s.scrubEvent (e 0x52 5)
  | .double => s.scrubEvent (e 0x53 5)

/-- Scrub one partition's entry (R482). -/
def State.scrubPmap (s : State) (p : Nat) : State :=
  let e := fun (code sev : Nat) => { ev pREEF code sev with part := some (BitVec.ofNat 4 p) }
  match scrubOf (s.pmapOf false p) (s.pmapOf true p) (s.mapBad true false p) (s.mapBad true true p) (fun _ => s.pmapUsed) with
  | .fine => s
  | .unused v => ((s.putPmap false p v).putPmap true p v).scrubFixed (e 0x50 0)
  | .fixA v => (s.putPmap false p v).scrubFixed (e 0x51 0)
  | .fixB v => (s.putPmap true p v).scrubFixed (e 0x51 0)
  | .conflict => s.scrubEvent (e 0x52 5)
  | .double => s.scrubEvent (e 0x53 5)

/-- The entries of the function map that can differ from an unwritten one, in order. -/
def State.fpmListed (s : State) : List Nat :=
  let ks := (s.fpmA.map (·.1)) ++ (s.fpmB.map (·.1)) ++ ((s.reef.bad.filter (fun x => !x.1)).map (·.2.2))
  (ks.foldl (fun t k => Tbl.insert t k ()) ([] : Tbl Unit)).map (·.1)

/-- One whole pass of the scrubber (R482). -/
def State.scrubPass (s : State) : State :=
  let s := s.fpmListed.foldl State.scrubFpm s
  ((List.range 16).foldl State.scrubPmap s).bump (rREEF 0xC8)

/-- SCRUB_PASS (R482, R483): a pass while SCRUB_EN = 1. -/
def execScrubPass (s : State) : Host.Outcome State Fault Refusal :=
  if s.flag (rREEF 0x40) 8 ∧ s.powered 1 then .next s.idleExit.scrubPass else .next s

/-! ## SRAM errors (R470 and the chapters it names) -/

/-- The page on which an error of a store is reported, and its power domain (R47, R470). Errors in the maps are reported on the
REEF page, as the scrubber reports them. -/
def sitePage : SramSite → Nat
  | .imem c _ _ | .dmem c _ => pSKRY c
  | .syncValue _ | .syncWaiter _ _ | .syncPoll _ | .syncWatch _ | .syncMirror _ => pSYNC
  | .shoal _ => pSHOL
  | .scale _ => pSCAL
  | .landQueue _ | .landCache _ => pAUDT
  | .fpm _ _ | .pmap _ _ => pREEF
  | .other p => p.toNat

/-- The thread whose launch reads the word of an IMEM line: the first of the core whose PC lies in it. -/
def State.imemReader (s : State) (c : BitVec 4) (b : BitVec 1) (line : Nat) : Option (BitVec 3) :=
  ((List.range 8).map (BitVec.ofNat 3)).find? (fun t =>
    let th := s.thread c t
    let key := progKey ((Line.w32 (th.lines.getD 0 0) 0xC).extractLsb' 20 4) (th.lines.getD 0 0)
    th.launch.isSome && decide (th.bank = b) && (match ((s.core c).bank b).progs.find? (fun p => decide (p.key = key)) with
      | some p => decide (p.off + th.pc / 64 = line) | none => false))

/-- Partition of an entry. -/
def State.partOfEntry (s : State) (k : EKey) : Option (BitVec 4) := (s.entry k).map (·.part)

/-- The partition that a store's entry belongs to. -/
def State.sitePart (s : State) : SramSite → Option (BitVec 4)
  | .imem c b l => ((s.imemReader c b l.toNat).bind (fun t => (s.thread c t).launch)).bind s.partOfEntry
  | .dmem c t => ((s.thread c t).launch).bind s.partOfEntry
  | .syncValue n => s.soOwner n.toNat
  | .syncWaiter n i => ((s.obj n.toNat).waiters[i.toNat]?).bind (fun w => s.partOfEntry w.who.key)
  | .syncPoll i => (s.sync.polls[i.toNat]?).map (·.part)
  | .syncWatch i => ((s.watch i.toNat).held).map (·.part)
  | .syncMirror m => s.soOwner ((s.mirrorObj m.toNat).extractLsb' 0 14).toNat
  | .shoal p => some p
  | .scale n => some (n.extractLsb' 10 4)
  | .landQueue i => (s.land.queue[i.toNat]?).bind s.partOfEntry
  | .landCache f => s.partOf f
  | .fpm _ _ | .pmap _ _ | .other _ => none

/-- The event of an error, naming what the store's entry belongs to. -/
def State.sramEvent (s : State) (site : SramSite) (code sev : Nat) : Event :=
  let e := { ev (sitePage site) code sev with part := s.sitePart site }
  match site with
  | .fpm _ f | .landCache f => { e with func := some f }
  | .pmap _ p => { e with part := some p }
  | _ => e

/-- The page's unit is powered, so its stores can be read. -/
def State.siteOn (s : State) (site : SramSite) : Bool :=
  !s.pwr.coldHeld && (match pageAt (sitePage site) with | some (k, i) => s.powered (k.domain i) | none => false)

/-- The unit of a store holds work of partition p (R455): threads of the core, index lists or windows, queued completions, or
elsewhere an entry between its release and its record. The store's own partition is one of them. -/
def State.unitHolds (s : State) (site : SramSite) (p : BitVec 4) : Bool :=
  decide (s.sitePart site = some p) || match site with
  | .imem c _ _ | .dmem c _ => ((List.range 8).map (BitVec.ofNat 3)).any (fun t => match (s.thread c t).launch with | some k => decide (s.partOfEntry k = some p) | none => false)
  | .shoal _ => s.shoal.lookups.any (fun l => decide (l.part = p)) || s.shoal.wins.any (fun w => decide (w.part = p))
  | .landQueue _ | .landCache _ => s.land.queue.any (fun k => decide (s.partOfEntry k = some p))
  | _ => s.allEntries.any (fun x => decide (x.2.part = p) && !x.2.recDone)

/-- An SRAM error of Landing is one of the failures that AUDT.LAND_ERRS counts (R426, R428). -/
def State.landSram (s : State) (site : SramSite) : State :=
  match site with
  | .landQueue _ | .landCache _ => s.bump (rAUDT 0x60)
  | _ => s

/-- SRAM_SBE (R426, R455, R470): the error is corrected and reported S0; it is a timing break of every partition whose work the unit
holds. -/
def execSramSbe (site : SramSite) (s : State) : Host.Outcome State Fault Refusal :=
  if !s.siteOn site then .next s
  else
    let code := match site with | .imem _ _ _ | .dmem _ _ => 0x2D | _ => 0x7E
    let ps := ((List.range 16).map (BitVec.ofNat 4)).filter (s.unitHolds site)
    .next (ps.foldl State.timingBreak ((s.landSram site).raise (s.sramEvent site code 0)))

/-- A double-bit error that a launch reads aborts it and loses its context (R230, R473). -/
def State.eccLose (s : State) (site : SramSite) (k : EKey) : State :=
  match s.entry k with
  | none => s
  | some e => s.ctxFault ((s.sramEvent site 0x2D 3).ofEntry k e) e.part (e.ctx.extractLsb' 0 16) k.stream 0x2D

/-- The programs of a bank that lie on a line become invalid (R230). -/
def Bank.invalidLine (b : Bank) (line : Nat) : Bank :=
  { b with progs := b.progs.map (fun p => if p.off ≤ line ∧ line < p.off + ceilDiv p.key.len 64 then { p with valid := false } else p) }

/-- SRAM_DBE: the action that the unit's chapter states (R230, R274, R361, R400, R426, R481). For a store of which no chapter
states one, nothing changes (log entry 25). -/
def State.dbe (s : State) (site : SramSite) : State :=
  match site with
  | .imem c b l =>
    let reader := (s.imemReader c b l.toNat).bind (fun t => (s.thread c t).launch)
    let s := s.setCore c ((s.core c).setBank b (((s.core c).bank b).invalidLine l.toNat))
    match reader with
    | some k => (s.eccLose site k).settle
    | none => s
  | .dmem c t => match (s.thread c t).launch with
    | some k => (s.eccLose site k).settle
    | none => s
  | .syncValue n =>
    let s := (s.setObj n.toNat { s.obj n.toNat with poison := true }).setErr pSYNC 18
    s.soEvent n.toNat 0x62 (if (s.soOwner n.toNat).isSome then 4 else 1)
  | .syncWaiter n i => match (s.obj n.toNat).waiters[i.toNat]? with
    | some w =>
      let v := s.sramEvent site 0x7F 4
      let ws := (s.obj n.toNat).waiters.set i.toNat { w with void := true }
      (s.setObj n.toNat { s.obj n.toNat with waiters := ws, minWait := minWaitOf (ws.filter (fun w => !w.void)) }).raise v
    | none => s
  | .syncPoll i => match s.sync.polls[i.toNat]? with
    | some p =>
      let v := s.sramEvent site 0x7F 4
      ({ s with sync := { s.sync with polls := s.sync.polls.erase p } }).raise v
    | none => s
  | .syncWatch i => match (s.watch i.toNat).held with
    | some p =>
      let v := s.sramEvent site 0x7F 4
      ((s.setWatch i.toNat ⟨none, true⟩).issueFap (.cancel i) p.addr (.watchCancel i.toNat)).raise v
    | none => s
  | .syncMirror m =>
    if bit (s.mirrorObj m.toNat) 31 then
      let v := s.sramEvent site 0x7F 4
      (s.setBit (bankKey m.toNat (rSYNC 0x64)) 31 false).raise v
    else s
  | .shoal _ => s.raise (s.sramEvent site 0x7F 4)
  | .scale n =>
    let s := (s.setScale n.toNat { s.scaleE n.toNat with poison := true }).setErr pSCAL 18
    s.raise { s.sramEvent site 0x7F 1 with akind := 2, addr := BitVec.ofNat 57 (rSCAL 0x40), index := some n.toNat }
  | .landQueue i => if (s.land.queue[i.toNat]?).isSome then (s.landSram site).raise (s.sramEvent site 0x7F 4) else s
  | .landCache f =>
    if (s.fev f).isSome then
      ({ s.landSram site with land := { s.land with fev := s.land.fev.filter (fun x => x.func ≠ f) } }).raise (s.sramEvent site 0x7F 4)
    else s
  | .fpm b f => { s with reef := { s.reef with bad := if s.mapBad false b f.toNat then s.reef.bad else s.reef.bad ++ [(false, b, f.toNat)] } }
  | .pmap b p => { s with reef := { s.reef with bad := if s.mapBad true b p.toNat then s.reef.bad else s.reef.bad ++ [(true, b, p.toNat)] } }
  | .other _ => s

/-- SRAM_DBE (R470). -/
def execSramDbe (site : SramSite) (s : State) : Host.Outcome State Fault Refusal :=
  if s.siteOn site then .next (s.dbe site) else .next s

/-! ## ALIVE and the heartbeat (R484 to R486) -/

/-- A write of LHSE.HEARTBEAT (R485, R486): ALIVE runs unless a cause still holds it. -/
def State.heartbeat (s : State) : State :=
  let s := (s.setBit (rLHSE 0x50) 28 true).setBit (rLHSE 0x50) 27 false
  let s := (s.bumpWrap (pageAddr pKEEP 0x70))
  let cause := s.flag (rLHSE 0x50) 26 || s.flag (rLHSE 0x50) 29
  { s with lhse := { s.lhse with beatT := s.time, aliveOn := !cause } }

/-- HEARTBEAT_LOST (R485, R486). -/
def execHeartbeatLost (s : State) : Host.Outcome State Fault Refusal :=
  if s.flag (rLHSE 0x50) 28 ∧ !s.flag (rLHSE 0x50) 27 ∧ (s.pwr.mode = .active ∨ s.pwr.mode = .idle) ∧
      s.num (rLHSE 0x48) 0 20 * 1000 < (s.time - s.lhse.beatT).toNat then
    let s := (s.setBit (rLHSE 0x50) 27 true).setErr pLHSE 16
    .next (s.raise (ev pLHSE 0x59 1)).aliveStop
  else .next s

/-- ALIVE_TOGGLE (R484): ALIVE toggles while it runs. -/
def execAliveToggle (s : State) : Host.Outcome State Fault Refusal :=
  if s.lhse.aliveOn then .next { s with lhse := { s.lhse with alive := !s.lhse.alive } } else .next s

/-! ## The HALT channels (R487, R488) -/

/-- The mode that the two synchronised channels give (R487). -/
def haltMode (a b : Bool) (m : HaltMode) : HaltMode :=
  if a && b then .halted
  else if a || b then (if m = .halted then .halted else .paused)
  else .run

/-- HALT_CHANGE (R455, R487): the mode, the threads, the count of changes away from RUN, and a timing break at an assertion. -/
def execHaltChange (a b : Bool) (s : State) : Host.Outcome State Fault Refusal :=
  if s.pwr.coldHeld then .next s else
  let m := haltMode a b s.lhse.mode
  let old := s.lhse
  let s := { s with lhse := { s.lhse with a := a, b := b, mode := m } }
  let s := if old.mode = .run ∧ m ≠ .run then s.bump (rLHSE 0x54) else s
  let s := if (a && !old.a) || (b && !old.b) then s.timingBreakAll else s
  .next (if m = .halted ∧ old.mode ≠ .halted then s.quiesceAll
    else if m = .run ∧ old.mode ≠ .run ∧ !s.rst.stopped then s.unquiesceAll else s)

/-- The discrepancy counter at an ACLK edge (R488). -/
def State.discTick (s : State) : State :=
  if s.lhse.a = s.lhse.b then { s with lhse := { s.lhse with disc := 0, discHeld := false } }
  else if s.lhse.discHeld ∨ s.num (rLHSE 0x4C) 0 16 ≤ s.lhse.disc then s
  else
    let n := s.lhse.disc + 1
    { s with lhse := { s.lhse with disc := n } }.maxF (rLHSE 0x58) 0 16 n

/-- HALT_DISC (R488): the counter has reached its limit. -/
def execHaltDisc (s : State) : Host.Outcome State Fault Refusal :=
  if s.lhse.a ≠ s.lhse.b ∧ !s.lhse.discHeld ∧ s.num (rLHSE 0x4C) 0 16 ≤ s.lhse.disc then
    let s := { s with lhse := { s.lhse with discHeld := true } }.setErr pLHSE 17
    .next (s.raise (ev pLHSE 0x58 5))
  else .next s

end Sys2Proof.Machine
end

