-- ==== Sys2Proof/Machine/Dump.lean ====
section
/-! DEFINITION. The crash dump (spec/16_hangs_resets_recovery.md R516 to R518, spec/20 R596). -/
namespace Sys2Proof.Machine

/-- Register addresses of the CLKR page (R519, R561). -/
def rCLKR (off : Nat) : Nat := pageAddr pCLKR off

/-! ## Packing -/

/-- Pack values into lines of `per`, lowest first; the last line is filled with zeros. -/
def packLines {w : Nat} (per : Nat) (xs : List (BitVec w)) : List Line :=
  (List.range (ceilDiv xs.length per)).map (fun i =>
    ((xs.drop (per * i)).take per).reverse.foldl (fun (a : Line) x => (a <<< w) ||| x.setWidth 512) 0)

/-! ## What the sections hold (R517) -/

/-- REEF: the FER, then the history, oldest first. -/
def State.reefSection (s : State) : DumpSec :=
  let head := s.num (rREEF 0x5C) 8 5
  let xs := s.reef.fer :: (List.range 32).map (fun i => Tbl.get (fun _ => 0#256) s.reef.hist ((head + i) % 32))
  ⟨1, 0, packLines 2 xs, 1056, false⟩

/-- A stream-table entry (R140). -/
def State.streamLine (s : State) (n : BitVec 14) : Line :=
  let x := s.stream n
  let en := ofBool (decide (x.st ≠ .disabled))
  let w0 : Dword := 0#7 ++ x.ringBase ++ 0#12
  let w1 : Dword := x.fetchPos ++ x.hint ++ en ++ x.phase ++ ofBool x.pause ++ ofBool x.dbPending ++ ofBool x.harbQ ++
    ofBool x.sigPending.isSome ++ x.log2 ++ 0#1 ++ BitVec.ofNat 4 x.st.code ++ x.cons
  let w2 : Dword := x.faultCode ++ 0#8 ++ x.faultPos ++ x.timeoutUs
  let w4 : Dword := x.dbCount ++ 0#15 ++ x.inflight
  x.waitTarget ++ x.waitValue ++ x.entries ++ w4 ++ x.progressT ++ w2 ++ w1 ++ w0

/-- STREAMS: those of the partition's functions, or all. -/
def State.streamSection (s : State) (part : Option (BitVec 4)) : DumpSec :=
  let r := match part with
    | some p => (((s.pmap p).extractLsb' 0 12).toNat * 4, ((s.pmap p).extractLsb' 16 13).toNat * 4)
    | none => (0, 16384)
  ⟨2, r.1, (List.range r.2).map (fun i => s.streamLine (BitVec.ofNat 14 (r.1 + i))), 64 * r.2, false⟩

/-- A Harbour slot (R88). Which of the 120 places a cached entry takes the spec does not say: they are shown in order of use, the latest
first, so that an entry moves when it is used (DESIGN CHOICE, log entry 56). -/
def Slot.lines (sl : Slot) : List Line :=
  let hs := (sl.cache.map (·.2)).take 120
  (sl.recLines ++ List.replicate 4 0).take 4 ++ packLines 2 (hs ++ List.replicate (120 - hs.length) 0#256)

/-- HARBOUR: the slots that the partition holds, or all. -/
def State.harbSection (s : State) (part : Option (BitVec 4)) : DumpSec :=
  let ks := (List.range 64).filter (fun k => match part with
    | some p => decide ((s.slot k).st ≠ .free) && decide ((s.slot k).part = p)
    | none => true)
  ⟨3, 0, ks.flatMap (fun k => (s.slot k).lines), 4096 * ks.length, false⟩

/-- SKRY.THR_STAT, THR_STREAM and THR_OPS of a thread (R240). -/
def State.thrStat (s : State) (c : BitVec 4) (t : BitVec 3) : Word :=
  let th := s.thread c t
  BitVec.ofNat 4 th.st.code ++ th.bank ++ (match th.launch with | some k => classOf k.stream | none => 0#2) ++ 0#10 ++ BitVec.ofNat 15 th.pc
def State.thrStream (s : State) (c : BitVec 4) (t : BitVec 3) : Word :=
  match (s.thread c t).launch with | some k => k.stream.setWidth 32 | none => 0
def State.thrOps (s : State) (c : BitVec 4) (t : BitVec 3) : Word :=
  match ((s.thread c t).launch).bind s.entry with
  | some e => 0#7 ++ BitVec.ofNat 9 e.nDone ++ 0#7 ++ BitVec.ofNat 9 e.issued
  | none => 0

/-- One thread's 384 bytes. -/
def State.threadLines (s : State) (c : BitVec 4) (t : BitVec 3) : List Line :=
  let th := s.thread c t
  let b := th.lines.getD 0 0
  packLines 8 ([s.thrStream c t ++ s.thrStat c t, th.retired ++ s.thrOps c t, th.progress, 0] ++
    (List.range 8).map (fun i => Line.w64 b (8 * i)) ++ (List.range 32).map th.reg ++ [0, 0, 0, 0])

/-- THREADS: those that run launches of the partition, or all. -/
def State.threadSection (s : State) (part : Option (BitVec 4)) : DumpSec :=
  let is := (List.range 128).filter (fun i => match part with
    | some p => decide (((s.thread (BitVec.ofNat 4 (i / 8)) (BitVec.ofNat 3 i)).launch).bind s.partOfEntry = some p)
    | none => true)
  ⟨4, 0, is.flatMap (fun i => s.threadLines (BitVec.ofNat 4 (i / 8)) (BitVec.ofNat 3 i)), 384 * is.length, false⟩

/-- EPRT registers as they read: CFG and OCC are computed (R401). -/
def State.eprtWord (s : State) (n off : Nat) : Word :=
  match off with
  | 0x40 =>
    let own := s.portOwner n
    ofBool (decide ((s.port n).st = .inService)) ++ ofBool own.isSome ++ BitVec.ofNat 6 ((own.map (·.toNat)).getD 0) ++ 0#20 ++ s.fld (rEPRT n 0x40) 0 4
  | 0x48 => BitVec.ofNat 32 (s.occ n)
  | _ => s.rd (rEPRT n off)

/-- PG_GEN of a port's page (R43). -/
def State.eprtGen (s : State) (n : Nat) : Word := s.fld (rEPRT n 0x1C) 16 16 ++ 0#12 ++ (s.port n).gen

/-- PORT: a port's registers, then its unreported commands in age order. -/
def State.portSection (s : State) (n : Nat) : DumpSec :=
  let cs := s.disp.cmds.filter (fun c => decide (c.port = n) && decide (c.stage ≠ .queued))
  let regs := (List.range 7).map (fun i => s.eprtWord n (0x44 + 8 * i) ++ s.eprtWord n (0x40 + 8 * i))
  let cmd := fun (c : Cmd) => (s.finishHdr c ++ List.replicate 4 0).take 4 ++ (c.body ++ List.replicate 8 0).take 8
  ⟨5, n, packLines 8 (regs ++ [0#32 ++ s.eprtGen n] ++ cs.flatMap cmd), 64 + 96 * cs.length, false⟩

/-! ## Layout (R517) -/

/-- SCRATCH of a port, from its beats. -/
def DumpPort.section (x : DumpPort) : DumpSec := ⟨6, x.port, packLines 2 x.beats.reverse, 32 * x.beats.length, x.late⟩

/-- Place the sections from an offset on, before `stop`: each one's directory entry and lines, and whether a section is
truncated or absent. -/
def placeSecs (stop : Nat) : Nat → Bool → List DumpSec → List (BitVec 128) × List Line × Bool
  | _, trunc, [] => ([], [], trunc)
  | off, trunc, x :: xs =>
    let dirE := fun (bytes : Nat) (cut absent : Bool) =>
      (BitVec.ofNat 64 off ++ BitVec.ofNat 32 bytes ++ BitVec.ofNat 16 x.inst ++ 0#5 ++ ofBool absent ++ ofBool x.late ++ ofBool cut ++
        BitVec.ofNat 8 x.kind : BitVec 128)
    if trunc then
      let r := placeSecs stop off true xs
      (dirE 0 false true :: r.1, r.2.1, true)
    else if off + x.bytes ≤ stop then
      let r := placeSecs stop (off + 64 * ceilDiv x.bytes 64) false xs
      (dirE x.bytes false false :: r.1, x.lines ++ r.2.1, r.2.2)
    else
      let n := (stop - off) / 64
      let r := placeSecs stop (off + 64 * n) true xs
      (dirE (64 * n) true false :: r.1, x.lines.take n ++ r.2.1, true)

/-- Keeper writes its section when an S5 started the reset (R504), while its firmware runs and its heartbeat has not been lost. -/
def State.keeperDumps (s : State) (d : Dump) : Bool :=
  decide (d.cause = .s5) && s.flag (pageAddr pKEEP 0x44) 28 && !s.flag (rLHSE 0x50) 27

/-- The first line of Keeper's section (R575), with LOG_BYTES. -/
def State.keeperHead (s : State) (t : Dword) (log : Nat) : Line :=
  let boot := s.rd (pageAddr pKEEP 0x44)
  let ver : Word := boot &&& 0xFFFFFF#32
  0#256 ++ BitVec.ofNat 32 log ++ s.rd (pageAddr pKEEP 0x70) ++ t ++ boot ++ ver ++ 1#32 ++ 0x4B444D50#32

/-- Keeper's section (R575): 64 KiB. The firmware release defines the log's length and contents, so both are free values. -/
def State.keeperLines (s : State) (d : Dump) : List Line :=
  if s.keeperDumps d then
    s.keeperHead d.t (s.fresh.toNat % 65473) ::
      packLines 8 ((List.range 8184).map (fun i => Config.freeValue (s.freeCtr + 1 + i)))
  else []

/-- The dump's lines from offset 0x40 on, and whether a section is truncated or absent. Keeper's section is the last 64 KiB of
the area; its directory entry has bytes when Keeper writes it (log entry 26). -/
def State.dumpBody (s : State) (d : Dump) : List Line × Bool :=
  let secs := d.secs ++ d.ports.map DumpPort.section
  let size := s.num (rCLKR 0x130) 0 24 * 1024
  let start := 64 * ceilDiv (0x40 + 16 * (secs.length + 1)) 64
  let r := placeSecs (size - 65536) start false secs
  let on := s.keeperDumps d
  let keeper : BitVec 128 := BitVec.ofNat 64 (size - 65536) ++ BitVec.ofNat 32 (if on then 65536 else 0) ++ 0#16 ++ 0#5 ++ ofBool (!on) ++ 0#2 ++ 7#8
  (packLines 4 (r.1 ++ [keeper]) ++ r.2.1, r.2.2)

/-- The header (R517). -/
def State.dumpHeader (s : State) (d : Dump) (body : List Line) : Line :=
  let bytes := 64 + 64 * body.length
  let w4 : Word := ofBool (!d.err) ++ 0#12 ++ ofBool d.part.isSome ++ BitVec.ofNat 6 ((d.part.map (·.toNat)).getD 0) ++ BitVec.ofNat 4 d.cause.code ++ 1#8
  let n := d.secs.length + d.ports.length + 1
  let w14 : Word := 0#12 ++ d.gen ++ BitVec.ofNat 16 n
  let no := s.rd (rCLKR 0x140) + s.rd (rCLKR 0x144)
  let crc := crc64 (body.flatMap (fun l => bytesOf l 64))
  let w0 : Dword := w4 ++ 0x44554D50#32
  let w10 : Dword := w14 ++ 0x00010000#32
  let w28 : Dword := 0#32 ++ no
  0#128 ++ w28 ++ crc ++ BitVec.ofNat 64 bytes ++ w10 ++ d.t ++ w0

/-! ## Taking a dump -/

/-- Set the dump in progress. -/
def State.setDump (s : State) (d : Option Dump) : State := { s with rst := { s.rst with dump := d } }

/-- Write whole lines in class DUMP (R586), in requests of at most 8. -/
def State.dumpLines (s : State) (addr : Addr) (ls : List Line) : State :=
  (List.range (ceilDiv ls.length 8)).foldl (fun s i =>
    s.issue .dump .write (addr + BitVec.ofNat 57 (512 * i)) (64 * min 8 (ls.length - 8 * i)) ((ls.drop (8 * i)).take 8) (.dump i)) s

/-- Advance the counter of free values (log entry 3). -/
def State.usedBy (s : State) (n : Nat) : State := { s with freeCtr := s.freeCtr + n }

/-- Once every scratchpad section has ended, the sections are written; Keeper writes its own (R504, R575). -/
def State.dumpGo (s : State) : State :=
  match s.rst.dump with
  | none => s
  | some d =>
    if d.stage = 0 ∧ d.ports.all (·.isOver) then
      let b := s.dumpBody d
      let k := s.keeperLines d
      let base := s.addrPair (rCLKR 0x128) 12
      let s := s.setDump (some { d with
        stage := 1, acks := ceilDiv b.1.length 8 + ceilDiv k.length 8, trunc := b.2, header := s.dumpHeader d b.1 })
      ((s.dumpLines (base + 64) b.1).dumpLines (base + BitVec.ofNat 57 (s.num (rCLKR 0x130) 0 24 * 1024 - 65536)) k).usedBy (k.length * 8)
    else s

/-- A dump that the registers do not allow is skipped (R516). -/
def State.dumpSkipped (s : State) : State :=
  ((s.bumpF (rCLKR 0x138) 0 16).setErr pCLKR 26).raise (ev pCLKR 0x44 1)

/-- A dump may be taken now (R516). -/
def State.dumpAllowed (s : State) (part : Option (BitVec 4)) : Bool :=
  s.flag (rCLKR 0x128) 0 && s.flag (rCLKR 0x134) 31 && (part.isNone || s.flag (rCLKR 0x134) 30)

/-- Step 2 begins with a dump (R516 to R518): the sections that hardware holds are sampled and the engines are asked for their
scratchpads. -/
def State.dumpStart (s : State) (part : Option (BitVec 4)) (cause : Cause) : State :=
  let ns := match part with | some p => s.portsOf p | none => List.range s.ecpCount
  let secs := [s.reefSection, s.streamSection part, s.harbSection part, s.threadSection part] ++ ns.map s.portSection
  let none' := decide (s.num (rCLKR 0x134) 0 17 < 64)
  let d : Dump := ⟨part, cause, s.time, s.mmpGen, secs, ns.map (fun n => ⟨n, [], none', false⟩), 0, 0, false, false, 0⟩
  let s := if none' then s
    else ns.foldl (fun s n => s.sendDown (n / 16) (controlFlit (.dumpReq n (s.num (rCLKR 0x134) 0 17)))) s
  ((s.setBit (rCLKR 0x134) 31 false).setDump (some d)).dumpGo

/-- Change a port's part of the dump. -/
def Dump.updPort (d : Dump) (n : Nat) (f : DumpPort → DumpPort) : Dump :=
  { d with ports := d.ports.map (fun x => if x.port = n then f x else x) }

/-- DUMP_BEAT (R596): a beat of 32 bytes of a port whose section has not ended; any other is accepted and discarded. -/
def execDumpBeat (port : BitVec 7) (last : Bool) (data : BitVec 256) (s : State) : Host.Outcome State Fault Refusal :=
  let n := port.toNat
  if !s.portHeard n then .next s
  else
    let s := s.credit (n / 16)
    match s.rst.dump with
    | none => .next s
    | some d =>
      let max := s.num (rCLKR 0x134) 0 17 / 64 * 2
      let d' := d.updPort n (fun x => if x.isOver then x else
        { x with beats := data :: x.beats, isOver := last || decide (max ≤ x.beats.length + 1) })
      .next (s.setDump (some d')).dumpGo

/-- DUMP_BEAT_TIMEOUT (R518): a port that has given no beat within 10 µs. -/
def execDumpBeatTimeout (port : BitVec 7) (s : State) : Host.Outcome State Fault Refusal :=
  match s.rst.dump with
  | none => .next s
  | some d =>
    if s.time.toNat < d.t.toNat + 10000 then .next s
    else .next (s.setDump (some (d.updPort port.toNat (fun x => if x.isOver ∨ !x.beats.isEmpty then x else { x with isOver := true, late := true })))).dumpGo

/-- The dump's header has been written: CLKR.DUMP_STAT shows it (R519). -/
def State.dumpOver (s : State) (d : Dump) : State :=
  let st : Word := 1#1 ++ ofBool (!d.err) ++ ofBool d.trunc ++ 0#1 ++ BitVec.ofNat 4 d.cause.code ++ 0#2 ++
    BitVec.ofNat 6 ((d.part.map (·.toNat)).getD 0) ++ s.fld (rCLKR 0x138) 0 16
  (s.wr (rCLKR 0x138) st).setDump none

end Sys2Proof.Machine
end

