-- ==== Sys2Proof/Machine/Resets.lean ====
section
/-! DEFINITION. Resets, port states and recovery (spec/16_hangs_resets_recovery.md). -/
namespace Sys2Proof.Machine

/-! ## Port states (R510 to R513, R595) -/

/-- CLKR.RST_CMD's result. -/
def State.rstErr (s : State) (e : BitVec 4) : State := s.setF (rCLKR 0x100) 20 e

/-- Request an engine reset of a port; `back` says what a reset of the partition or the block waits for. -/
def State.engineAsk (s : State) (n back : Nat) : State :=
  (s.setPort n { s.port n with st := .resetting, reqT := some s.time, back := back }).resetDown n

/-- Increment a port's generation tag (R507). -/
def State.genUp (s : State) (n : Nat) : State := s.setPort n { s.port n with gen := (s.port n).gen + 1 }

/-- Partition p is idle: every released entry has its completion record, and there is no Shoal window (R513). -/
def State.partIdle (s : State) (p : BitVec 4) : Bool :=
  s.allEntries.all (fun x => decide (x.2.part ≠ p) || x.2.recDone) && s.shoal.wins.all (fun w => decide (w.part ≠ p))

/-- AUDT.REPRO[p].MODE is RESULT_LOCK or TIDE_LOCK. -/
def State.portsLocked (s : State) (p : BitVec 4) : Bool := decide (s.num (rAUDT (0x280 + 4 * p.toNat)) 30 2 ≠ 0)

/-- The port can be put in service (R370, R632): its latched depth is valid and its page is enabled. -/
def State.portFit (s : State) (n : Nat) : Bool := s.flag (rEPRT n 0x44) 31 && s.pageEn (pEPRT n)

/-- ADD, READMIT (OP 3, 5) and REMOVE (4) of a port take effect; the port must still be as the command needs it. -/
def State.portChange (s : State) (n op : Nat) : State :=
  let st := (s.port n).st
  if op = 4 ∧ st = .inService then (s.setPort n { s.port n with st := .draining, defer := 0 }).drainPorts
  else if op ≠ 4 ∧ (s.portOwner n).isNone then (s.setPort n { s.port n with defer := 0 }).rstErr 3
  else if (op = 3 ∧ st = .offline ∨ op = 5 ∧ st = .ready) ∧ s.portFit n then s.setPort n { s.port n with st := .inService, defer := 0 }
  else (s.setPort n { s.port n with defer := 0 }).rstErr 2

/-- The codes of Port.defer (1 ADD, 2 REMOVE, 3 READMIT) are the OP codes 3 to 5 less 2. -/
def State.portDefer (s : State) (n op : Nat) : State := (s.setPort n { s.port n with defer := op - 2 }).rstErr 0

/-- A port command of CLKR.RST_CMD (R373, R450, R510, R513, R632). While the owner's partition resets, a change waits for the reset's
end. -/
def State.portCmd (s : State) (op n : Nat) : State :=
  if s.ecpCount ≤ n then s.rstErr 1
  else
    let st := (s.port n).st
    let own := s.portOwner n
    let busy : Bool := match own with | some p => s.resetting p | none => s.rst.block.isSome
    if op = 6 then
      if st = .offline ∨ st = .ready ∨ st = .dead then (((s.genUp n).engineAsk n 0).failCmds n 0).settle.rstErr 0 else s.rstErr 2
    else if busy ∧ (op = 3 ∨ op = 5) ∧ (s.port n).defer = 0 then
      match own with
      | some p => (s.portDefer n op).engDefer p
      | none => s.rstErr 3
    else if (s.port n).defer ≠ 0 ∨ (op = 3 ∧ st ≠ .offline) ∨ (op = 4 ∧ st ≠ .inService) ∨ (op = 5 ∧ st ≠ .ready) then s.rstErr 2
    else if op ≠ 4 ∧ own.isNone then s.rstErr 3
    else if op ≠ 4 ∧ !s.portFit n then s.rstErr 2
    else match own with
      | some p => if s.portsLocked p ∧ !s.partIdle p then (s.portDefer n op).engDefer p else (s.rstErr 0).portChange n op
      | none => (s.rstErr 0).portChange n op

/-- DEFERRED_PORT_CHANGE (R513): the port's partition is idle. -/
def execDeferredPortChange (port : BitVec 7) (s : State) : Host.Outcome State Fault Refusal :=
  let n := port.toNat
  let d := (s.port n).defer
  match s.portOwner n with
  | none => .next (if d = 0 then s else s.portChange n (d + 2))
  | some p => if d = 0 ∨ s.resetting p ∨ !s.partIdle p then .next s else .next ((s.portChange n (d + 2)).engDefer p)

/-- A depth that a port may present (R370). -/
def depthOk (depth : BitVec 8) : Bool := decide (1 ≤ depth.toNat) && decide (depth.toNat ≤ 64)

/-- The presented depth is latched (R370). -/
def State.latchDepth (s : State) (n : Nat) (depth : BitVec 8) : State :=
  s.wr (rEPRT n 0x44) (ofBool (depthOk depth) ++ 0#24 ++ depth.extractLsb' 0 7)

/-- ENGINE_RESET_ACK (R370, R510, R511, R595): the port is READY, or back in service where a reset of its partition or of the
block had taken it out and its depth allows it. A remote port's RESET_DONE that no reset asked for shows that its link has become Active (R602). -/
def execEngineResetAck (port : BitVec 7) (depth : BitVec 8) (s : State) : Host.Outcome State Fault Refusal :=
  let n := port.toNat
  let x := s.port n
  if !s.portHeard n then .next s
  else if x.st = .resetting then
    .next ((s.latchDepth n depth).setPort n { x with st := if x.back = 2 ∧ depthOk depth then .inService else .ready, reqT := none, back := 0 })
  else if (s.linkOf (n / 16)).isSome then .next (s.latchDepth n depth)
  else .next s

/-- RESET_TIMEOUT (R498, R510): ENG_RST_TIME has passed, and the port is DEAD. -/
def execResetTimeout (port : BitVec 7) (s : State) : Host.Outcome State Fault Refusal :=
  let n := port.toNat
  let x := s.port n
  match x.reqT with
  | some t =>
    if x.st = .resetting ∧ s.num (rCLKR 0x10C) 0 20 * 1000 ≤ (s.time - t).toNat then
      let s := (s.setPort n { x with st := .dead, reqT := none, back := 0 }).setErr pCLKR 25
      .next (s.raise { ev (pEPRT n) 0x49 1 with part := s.portOwner n })
    else .next s
  | none => .next s

/-! ## The stall detector (R496) -/

/-- A partition's oldest live launch. -/
def State.oldestLive (s : State) (p : BitVec 4) : Option (EKey × Entry) :=
  leastBy (fun a b => decide (a.2.tStart < b.2.tStart)) (s.allEntries.filter (fun x => decide (x.2.part = p) && x.2.running))

/-- STALL (R496): a partition with a live launch has made no progress for STALL_TIME; the time counts from its last progress or
from the start of its oldest live launch, whichever is later. -/
def execStall (p : BitVec 4) (s : State) : Host.Outcome State Fault Refusal :=
  match s.oldestLive p with
  | none => .next s
  | some (k, e) =>
    let t := max (Tbl.get (fun _ => 0#64) s.progT p.toNat).toNat (e.tStart / 65536)
    if !s.flag (rCLKR 0x118) p.toNat ∧ t + s.num (rCLKR 0x114) 0 20 * 1000 ≤ s.time.toNat then
      let s := (s.setBit (rCLKR 0x118) p.toNat true).setErr pCLKR 24
      .next (s.raise ((ev pCLKR 0x40 1).ofEntry k e))
    else .next s

/-! ## Discarding work (R427, R498, R500, R508) -/

/-- The partition for whose work a request was issued, for requests that a partition reset discards (R508). Write-backs of
records and of function entries, messages, template and table commands and mirrors are no discarded work. -/
def State.whyPart (s : State) : Why → Option (BitVec 4)
  | .ring n _ _ _ => s.partOf (funcOf n)
  | .release e _ | .input e _ _ | .ahead e _ _ | .park e | .unpark e _ | .fenceRead e _ | .indexList e _ | .mapWrite e
  | .audit e | .record e | .fence e | .dlog e _ | .progEntry e | .handleOwn e _ => s.partOf (funcOf e.stream)
  | .ctxLoad k | .handle k _ => some (s.slot k).part
  | .ctxCmd p _ => some p
  | _ => none

/-- The entries that a reset discards. -/
def State.doomed (s : State) (part : Option (BitVec 4)) : List (EKey × Entry) :=
  s.allEntries.filter (fun x => match part with | some p => decide (x.2.part = p) | none => true)

/-- A stream belongs to what a reset discards. -/
def State.streamIn (s : State) (part : Option (BitVec 4)) (n : BitVec 14) : Bool :=
  match part with | some p => decide (s.partOf (funcOf n) = some p) | none => true

/-- The stages hold nothing of a stream any more. -/
def State.streamClear (s : State) (n : BitVec 14) : State :=
  let s := { s.unqueue n with fetch := { (s.unqueue n).fetch with
    chans := s.fetch.chans.filter (fun x => x.2 ≠ some n), cache := s.fetch.cache.filter (fun x => x.1 ≠ n) } }
  s.updStream n (fun x => { x with
    fetching := false, got := [], sigPending := none, head := none, harbQ := false, waitValue := 0, waitTarget := 0, dbStarted := false })

/-- Contexts that had a launch between stage 4 and its record, each with the stream of one (R498, R505). A number that R105
refuses names no context. -/
def State.ctxsOf (s : State) (es : List (EKey × Entry)) : List (BitVec 4 × BitVec 16 × BitVec 14) :=
  es.foldl (fun acc x =>
    let c : BitVec 16 := x.2.ctx.extractLsb' 0 16
    if x.2.etype.isLaunch ∧ !x.2.recDone ∧ !s.ctxRange x.2 ∧ !acc.any (fun y => decide (y.1 = x.2.part) && decide (y.2.1 = c)) then
      acc ++ [(x.2.part, c, x.1.stream)] else acc) []

/-- A program load that a miss of the partition started is work of the partition: it ends, and its reads are orphaned. A load that
an IMEM_LOAD asked for goes on and ends invalid (R238). DEDUCED from R498 and R508. -/
def State.dropLoads (s : State) (p : BitVec 4) : State :=
  (List.range 16).foldl (fun s c =>
    match (s.core (BitVec.ofNat 4 c)).load with
    | some l =>
      if l.key.part = p.setWidth 6 ∧ !l.soft then
        (s.setCore (BitVec.ofNat 4 c) { s.core (BitVec.ofNat 4 c) with load := none }).orphan
          (fun w => match w with | .imem c' _ => decide (c' = BitVec.ofNat 4 c) | _ => false)
      else s
    | none => s) s

/-- Step 1 of a reset: the work of a partition, or of every partition, is discarded (R498, R503). -/
def State.discard (s : State) (part : Option (BitVec 4)) : State :=
  let es := s.doomed part
  let ks := es.map (·.1)
  let inP : BitVec 4 → Bool := fun q => match part with | some p => decide (q = p) | none => true
  let s := { s with rst := { s.rst with lost := s.rst.lost.filter (fun (x : BitVec 4 × BitVec 16 × BitVec 14) => !inP x.1) ++ s.ctxsOf es } }
  let s := es.foldl (fun s x => if x.2.etype = .tableUpdate ∧ !x.2.recDone then s.setBit (rTIDE x.2.part 8) 30 true else s) s
  let s := es.foldl (fun s x => s.freeThread x.2) s
  let s := { s with disp := { s.disp with
    cands := s.disp.cands.filter (fun c => !inP c.part)
    cmds := s.disp.cmds.filter (fun (c : Cmd) => !(inP c.part && decide (c.stage = CmdStage.queued))) } }
  let s := s.voidWaiters (fun k => ks.contains k)
  let s := { s with
    sync := { s.sync with offers := s.sync.offers.filter (fun o => match o.entry with | some k => !ks.contains k | none => true) }
    shoal := { s.shoal with
      lookups := s.shoal.lookups.filter (fun l => !inP l.part)
      intake := s.shoal.intake.filter (fun x => !inP x.1)
      wins := s.shoal.wins.filter (fun w => !inP w.part)
      sealQ := s.shoal.sealQ.filter (fun x => !inP x.1) }
    land := { s.land with queue := s.land.queue.filter (fun k => !ks.contains k), step2 := s.land.step2.filter (fun k => !ks.contains k), hashing := s.land.hashing.filter (fun k => !ks.contains k) }
    fetch := { s.fetch with reenter := s.fetch.reenter.filter (fun k => !ks.contains k) }
    harb := { s.harb with queue := s.harb.queue.filter (fun k => !ks.contains k) }
    ferry := { s.ferry with
      ahead := s.ferry.ahead.filter (fun x => !ks.contains x.1 && !s.streamIn part x.1.stream)
      waits := s.ferry.waits.filter (fun k => !ks.contains k) }
    aud := { s.aud with ins := s.aud.ins.filter (fun x => !ks.contains x.e), logs := s.aud.logs.filter (fun k => !ks.contains k) } }
  let s := match part with | some p => s.dropLoads p | none => s
  let s := if part.isSome then s.orphan (fun w => decide (s.whyPart w = part)) else s
  let s := { s with entries := s.entries.filter (fun (x : Nat × Option Entry) => match x.2 with | some e => !inP e.part | none => true) }
  let s := ((s.streams.map (fun x => BitVec.ofNat 14 x.1)).filter (s.streamIn part)).foldl State.streamClear s
  (((List.range 16).map (BitVec.ofNat 4)).filter inP).foldl State.tmplReset s

/-! ## Counting and escalation (R514) -/

/-- Counted resets that started within the window that ends now (CLKR.WINDOW_COUNT). -/
def State.windowCount (s : State) : Nat :=
  (s.rst.starts.filter (fun x => x.2 && decide ((s.time - x.1).toNat ≤ s.num (rREEF 0xC4) 0 20 * 1000000))).length

/-- Note the start of a reset; the latest 256 are kept. -/
def State.noteStart (s : State) (counts : Bool) : State :=
  let l := s.rst.starts ++ [(s.time, counts)]
  { s with rst := { s.rst with starts := l.drop (l.length - 256) } }

/-- The reset that has just been noted escalates. -/
def State.escalates (s : State) : Bool := decide (s.num (rREEF 0xC0) 0 8 < s.windowCount)

/-- The block can start a reset: it is awake and no domain's supply is in doubt (spec/16 Meetings, R528, R529). -/
def State.canReset (s : State) : Bool :=
  (decide (s.pwr.mode = .active) || decide (s.pwr.mode = .idle)) && !s.pwr.fatal && !s.flag (rCLKR 0x104) 30

/-- A cause that is an event of the fault that Reef counts (R475). -/
def State.causeFault (s : State) (c : Cause) : Bool := match c with | .s5 => true | .s4 => decide (s.faultMin ≤ 4) | _ => false

/-! ## Block compute reset (R503 to R505) -/

/-- Set the block compute reset in progress. -/
def State.setBlock (s : State) (r : Option ResetRun) : State := { s with rst := { s.rst with block := r } }

/-- Step 3 begins once the hardware part of step 2 is done and Keeper has written BLOCK (R504). -/
def State.blockDrain (s : State) : State :=
  match s.rst.block with
  | some r => if r.step = 2 ∧ s.rst.dump.isNone ∧ s.rst.keeperOk then s.setBlock (some { r with step := 3, t := s.time }) else s
  | none => s

/-- Step 1 and the beginning of step 2 (R503, R516): partition resets end where they stand, and the writes of a dump that one of
them was taking are orphaned (as R508). -/
def State.blockStart (s : State) (cause : Cause) (fault : Bool) : State :=
  let s := (s.bump (rCLKR 0x144)).orphan (fun w => match w with | .dump _ => true | _ => false)
  let s := { s with rst := { s.rst with parts := [], partWant := [], blockWant := none, stopped := true, dump := none, keeperOk := decide (cause ≠ Cause.s5) } }
  let s := (s.setF (rCLKR 0x104) 0 (0#16)).setBit (rCLKR 0x104) 31 true
  let s := s.quiesceAll.setBlock (some ⟨2, cause, fault, s.time⟩)
  let s := if s.dumpAllowed none then s.dumpStart none cause else s.dumpSkipped
  (s.discard none).blockDrain

/-- BLOCK (R503, R514): the block compute reset that was asked for starts. -/
def execBlock (s : State) : Host.Outcome State Fault Refusal :=
  match s.rst.blockWant with
  | none => .next s
  | some c =>
    if s.rst.block.isSome ∨ !s.canReset then .next s
    else
      let s := s.noteStart true
      .next (s.blockStart (if s.escalates then .escalation else c) (s.causeFault c))

/-- KEEPER_GRACE_EXPIRE (R504): KEEPER_GRACE has passed since step 1; the dump does not hold step 3 any longer either. -/
def execKeeperGraceExpire (s : State) : Host.Outcome State Fault Refusal :=
  match s.rst.block with
  | some r =>
    if r.step = 2 ∧ r.cause = .s5 ∧ s.num (rCLKR 0x110) 0 20 * 1000 ≤ (s.time - r.t).toNat then
      .next (s.setBlock (some { r with step := 3, t := s.time }))
    else .next s
  | none => .next s

/-- Every command of some ports has reported, or the drain limit has passed (R498, R503). -/
def State.drainOver (s : State) (r : ResetRun) (ns : List Nat) : Bool :=
  ns.all (fun n => decide (s.occ n = 0)) || decide (s.num (rCLKR 0x108) 0 20 * 1000 ≤ (s.time - r.t).toNat)

/-- BLOCK_RESET_DRAINED (R503): step 4 increments every port's tag and requests the engine resets. -/
def execBlockResetDrained (s : State) : Host.Outcome State Fault Refusal :=
  match s.rst.block with
  | some r =>
    if r.step = 3 ∧ s.drainOver r (List.range s.ecpCount) then
      let s := (List.range s.ecpCount).foldl State.genUp { s with disp := { s.disp with cands := [], cmds := [] } }
      let s := (List.range s.ecpCount).foldl (fun s n =>
        if s.flag (rEPRT n 0x44) 31 then s.engineAsk n (if (s.port n).st = .inService then 2 else 1) else s) s
      .next (s.setBlock (some { r with step := 4, t := s.time }))
    else .next s
  | none => .next s

/-- Lose the contexts whose launches were discarded, with reason RESET (R76, R498, R503). -/
def State.loseRest (s : State) (inP : BitVec 4 → Bool) : State :=
  let s' := (s.rst.lost.filter (fun x => inP x.1)).foldl (fun s x => s.loseCtx x.1 x.2.1 0x05 (x.2.2.setWidth 20) 0) s
  { s' with rst := { s'.rst with lost := s'.rst.lost.filter (fun x => !inP x.1) } }

/-- A DESTROY in progress is completed by the reset: its record reads VALID = 0 and DESTROYED = 1 (R79). -/
def State.destroyByReset (s : State) (p : BitVec 4) : State :=
  match s.ctxCmd p with
  | some c => if c.op = 2 then s.ctxLine1 p c.ctx (fun l => (l &&& ~~~1#512) ||| 4#512) .destroyed else s
  | none => s

/-- Free the slots whose context was still being loaded: they have nothing to write. A change of the record that waited for the
load is made in memory. -/
def State.loadingOut (s : State) (inP : BitVec 4 → Bool) : State :=
  (List.range 64).foldl (fun s k =>
    let sl := s.slot k
    if sl.st ≠ .loading ∨ !inP sl.part then s
    else
      let s := s.freeSlot k
      if s.harb.changes.any (fun x => decide (x.1 = sl.part) && decide (x.2.1 = sl.ctx)) then
        s.read (s.ctxAddr sl.part sl.ctx + 0x40) 1 (.ctxMod sl.part sl.ctx)
      else s) s

/-- Write back and free the slots of a partition, or of every partition (R498, R503). -/
def State.slotsOut (s : State) (inP : BitVec 4 → Bool) : State :=
  (List.range 64).foldl (fun s k =>
    let sl := s.slot k
    if sl.st = .free ∨ !inP sl.part then s else s.evict k) s

/-- The parts of step 5 that touch context records. -/
def State.cleanRecords (s : State) (inP : BitVec 4 → Bool) : State :=
  let s := (s.loadingOut inP).loseRest inP
  let s := (((List.range 16).map (BitVec.ofNat 4)).filter inP).foldl State.destroyByReset s
  s.slotsOut inP

/-- Tide at a reset (R305): nothing is live, a pending advance is gone, and the old epoch retires if it was live. -/
def State.tideReset (s : State) (p : BitVec 4) : State :=
  let s := (s.wr (rTIDE p 0xC) 0).setF (rTIDE p 8) 0 (0#16)
  (s.setBit (rTIDE p 8) 31 false).tideRetire p

/-- BLOCK_RESET_PORTS_DONE (R503): every engine reset has completed or timed out; step 5 writes records back. -/
def execBlockResetPortsDone (s : State) : Host.Outcome State Fault Refusal :=
  match s.rst.block with
  | some r =>
    if r.step = 4 ∧ s.ports.all (fun x => decide (x.2.back = 0)) then
      .next ((s.cleanRecords (fun _ => true)).setBlock (some { r with step := 5, t := s.time }))
    else .next s
  | none => .next s

/-- A register keeps its word across a block compute reset (R52, R441, R505, R522): header fields of pages whose RW fields are
kept, PG_GEN everywhere, the rows that keep theirs, and all of Beacon but its software sources. -/
def keepsWord (key : Nat) : Bool :=
  let a := key % 0x4000000
  match pageAt (a / 0x1000) with
  | none => true
  | some (k, _) =>
    let off := a % 0x1000
    if off = 0x1C then true
    else if off < 0x40 then (match k with | .keep | .disp | .dbug | .scal | .skry => false | _ => true)
    else match k with
      | .bcon => true
      | .eprt => decide (off = 0x44) || (match k.spec off with | some r => r.keep | none => false)
      | _ => (match k.spec off with | some r => r.keep | none => true)

/-- What a stream keeps (R499, R505): its configuration registers, CONS, the expected phase and FETCH_POS. -/
def StreamE.afterReset (x : StreamE) : StreamE :=
  { StreamE.reset with
    ringBase := x.ringBase, log2 := x.log2, timeoutUs := x.timeoutUs, limitUs := x.timeoutUs, startPhase := x.startPhase, startPos := x.startPos
    cons := x.cons, phase := x.phase, fetchPos := x.fetchPos }

/-- The sync block after a reset that keeps values and the mirror table (R272). Updates of the RDP, of Tide and of
commands that have ended, which the reset does not discard, still wait for their banks (R38, R304, R461). -/
def Sync.afterReset (y : Sync) : Sync :=
  { Sync.reset with
    objs := Tbl.remap (fun _ => SyncObj.reset) (fun o => { SyncObj.reset with value := o.value, poison := o.poison }) y.objs
    offers := y.offers.filter (fun o => decide (o.src = .rdp) || decide (o.src = .tide) || decide (o.src = .command)) }

/-- AUDT commands that a reset of the unit ends and whose registers are kept (log entry 28): the registration command ends as
R461 and R467 state, with DIG_ERR and its ADD; the LOST fields and TIMING_BROKEN return to their reset values (R429, R467). -/
def State.audtCmdsEnd (s : State) : State :=
  let s := if s.aud.dig.isSome then s.digEnd 4 else s
  let s := if s.flag (rAUDT 0x48) 27 then (s.setBit (rAUDT 0x48) 27 false).setF (rAUDT 0x48) 20 (2#4) else s
  ((List.range 16).map (BitVec.ofNat 4)).foldl (fun s p =>
    let s := (s.setF (rAUDT (0x10C + 16 * p.toNat)) 16 (0#16)).setF (rAUDT (0x50C + 16 * p.toNat)) 16 (0#16)
    s.setBit (rAUDT (0x280 + 4 * p.toNat)) tmBroken false) s

/-- A software atomic that a reset of the sync block ends (log entry 28). -/
def State.atomEnd (s : State) : State :=
  if s.flag (rSYNC 0x70) 27 then ((s.setBit (rSYNC 0x70) 27 false).setBit (rSYNC 0x70) 26 true).wr64 (rSYNC 0x90) 0 else s

/-- Template commands that a reset of the Ferry ends (log entry 28). -/
def State.tmplCmdsEnd (s : State) : State :=
  ((List.range 16).map (BitVec.ofNat 4)).foldl (fun s p =>
    if (s.tmplCmd p).isSome then s.tmplEnd p 6 else s) s

/-- Commands that a reset of every unit ends and whose registers are kept; template commands have ended by themselves where R170
says so. -/
def State.unitCmdsEnd (s : State) : State := s.audtCmdsEnd.atomEnd.tmplCmdsEnd

/-- The stores of every unit outside PD0, MMP, Causeway and FAP as R505 leaves them; pinned copies are named so that they can be
reloaded. -/
def State.storesClear (s : State) : State :=
  { s with
    streams := Tbl.remap (fun _ => StreamE.reset) StreamE.afterReset s.streams
    entries := []
    fetch := Fetch.reset
    ferry := { Ferry.reset with pins := s.ferry.pins }
    harb := { Harbour.reset with cmds := s.harb.cmds }
    cores := [], disp := Disp.reset, scales := [], trace := Trace.reset, progT := []
    sync := s.sync.afterReset, land := Landing.reset, shoal := Shoal.reset, aud := Audit.reset }

/-- The registers that a block compute reset or a power-down does not keep return to their reset values (R505, R522); of SHOL.TBL_CMD
only PART is kept (R366). -/
def State.regsClear (s : State) : State :=
  { s with regs := s.regs.filter (fun x => keepsWord x.1) }.setF (rSHOL 0x88) 20 (0#12)

/-- Every unit outside PD0, MMP, Causeway and FAP is reset (R503, R505). -/
def State.unitsReset (s : State) : State := s.unitCmdsEnd.regsClear.storesClear.beaconClear

/-- The alignment state returns to ASYNC (R551), which is a timing break in a running run (R554). -/
def State.alignDrop (s : State) : State :=
  let s := if s.num (rCLKR 0x50) 30 2 = 2 then s.timingBreakAll else s
  s.setF (rCLKR 0x50) 30 (0#2)

/-- From the end of a reset or a wake the alignment is checked again if ALIGN_REQ is asserted (R551). -/
def State.alignAgain (s : State) : State := if s.flag (rCLKR 0x50) 29 then s.setF (rCLKR 0x50) 30 (1#2) else s

/-- The pages of the units that a block compute reset resets count it in PG_GEN.RESET_COUNT (R43). -/
def State.countResets (s : State) : State :=
  (s.unitPages ++ [pKEEP, pGLBL, pCLKR, pREEF, pINTG] ++ (List.range 16).map (fun p => 0x20 + p)).foldl (fun s pg => s.bumpF (pageAddr pg 0x1C) 16 16) s

/-- Out of service (R514, R515): S1 OUT_OF_SERVICE, and OOS is asserted. -/
def State.outOfService (s : State) : State :=
  let s := (s.raise (ev pCLKR 0x43 1)).setBit (rCLKR 0x104) 30 true
  ((s.setBit (rCLKR 0x104) 31 false).setBit (rLHSE 0x50) 29 true).aliveStop.setBlock none

/-- Requests that step 5 waits for: writes, and reads of records that are to be changed. -/
def MReq.settles (r : MReq) : Bool :=
  decide (r.cls = .writeback) || decide (r.cls = .atomic) || (match r.why with | .ctxMod _ _ => true | _ => false)

/-- BLOCK_RESET_SETTLED (R503, R505, R507, R514): MMP has acknowledged the writes. The MMP and FAP tags increment; then the units
are reset and initialised, or the block goes out of service. -/
def execBlockResetSettled (s : State) : Host.Outcome State Fault Refusal :=
  match s.rst.block with
  | some r =>
    if r.step = 5 ∧ s.mmp.all (fun x => !x.settles) then
      let s := { s with mmpGen := s.mmpGen + 1, fapGen := s.fapGen + 1, rst := { s.rst with dump := none } }
      let s := (((List.range 16).map (BitVec.ofNat 4)).foldl State.tideReset s).alignDrop.unitsReset.countResets
      if r.cause = .escalation then .next s.outOfService
      else
        let s := (s.setBit (pageAddr pGLBL 0x70) 0 false).setBlock (some { r with step := 7, t := s.time })
        .next s.pinsReload
    else .next s
  | none => .next s

/-- The context command of a partition ends with its reset (R79). -/
def State.ctxCmdByReset (s : State) (p : BitVec 4) : State :=
  match s.ctxCmd p with
  | some c => s.ctxCmdEnd p (if c.op = 2 then 0 else 6)
  | none => s

/-- PART.MODEL reads 0, PART.STATE returns (R70), and a soft reset of the page ends (R44). -/
def State.partBack (s : State) (p : BitVec 4) : State :=
  let s := (s.wr (rPART p 0x70) 0).setF (rPART p 0x74) 0 (if s.partEn p then 1#3 else 0#3)
  s.setBit (rPART p 0x0C) 1 false

/-- Port changes that waited for a reset's end and are not held by R513 are applied (spec/16 Meetings). -/
def State.portsApply (s : State) (inP : BitVec 4 → Bool) : State :=
  (List.range s.ecpCount).foldl (fun s n =>
    let d := (s.port n).defer
    match s.portOwner n with
    | some p => if d ≠ 0 ∧ inP p then (if s.portsLocked p then s else s.portChange n (d + 2)).engDefer p else s
    | none => if d ≠ 0 then s.portChange n (d + 2) else s) s

/-- A read of a pinned copy's reload is outstanding. -/
def State.reloading (s : State) : Bool :=
  s.mmp.any (fun r => (match r.why with | .pinReload _ _ _ => true | _ => false) && decide (r.gen = s.mmpGen))

/-- The end of a block compute reset (R79, R475, R486, R488, R503): S5_STOP clears, Reef stops holding the quiet timer, Keeper's
boot is due. -/
def State.blockEnd (s : State) : State :=
  let ps := (List.range 16).map (BitVec.ofNat 4)
  let s := ({ s with rst := { s.rst with stopped := false } }.setBlock none).setBit (rCLKR 0x104) 31 false
  let s := ps.foldl (fun s p => (s.ctxCmdByReset p).partBack p) s
  let s := (s.setBit (rLHSE 0x50) 26 false).portsApply (fun _ => true)
  let s := { s with lhse := { s.lhse with disc := 0, discHeld := false }, keep := { s.keep with bootDue := true, cmd := none } }
  s.alignAgain.quietRelease

/-- INIT_DONE (R50, R503): the stores are initialised and the pinned copies are back; after a cold reset, once step 3 of the wake
is over (R538). -/
def execInitDone (s : State) : Host.Outcome State Fault Refusal :=
  if s.reloading then .next s
  else match s.rst.block with
    | some r => if r.step = 7 then .next (s.blockEnd.setBit (pageAddr pGLBL 0x70) 0 true) else .next s
    | none =>
      if !s.flag (pageAddr pGLBL 0x70) 0 ∧ s.pwr.mode = .active ∧ !s.flag (rCLKR 0x104) 30 then
        .next (s.setBit (pageAddr pGLBL 0x70) 0 true)
      else .next s

/-! ## Partition reset (R498 to R501) -/

/-- Set a partition's reset in progress. -/
def State.setPartRun (s : State) (p : BitVec 4) (r : Option ResetRun) : State :=
  { s with rst := { s.rst with parts := Tbl.set (fun _ => none) s.rst.parts p.toNat r } }

/-- Partition resets whose step 2 is over go on to step 3. -/
def State.partDrain (s : State) (p : BitVec 4) : State :=
  match s.partRun p with
  | some r =>
    let mine := match s.rst.dump with | some d => decide (d.part = some p) | none => false
    if r.step = 2 ∧ !mine then s.setPartRun p (some { r with step := 3, t := s.time }) else s
  | none => s

/-- A partition reset starts (R498, R500, R517): steps 1 and 2 of it. -/
def State.partStart (s : State) (p : BitVec 4) (c : Cause) : State :=
  let s := (s.setPartRun p (some ⟨2, c, s.causeFault c, s.time⟩)).setBit (rCLKR 0x104) p.toNat true
  let s := s.setF (rPART p 0x74) 0 (4#3)
  let s := if s.dumpAllowed (some p) ∧ s.rst.dump.isNone then s.dumpStart (some p) c else s.dumpSkipped
  ((s.discard (some p)).partDrain p).settle

/-- A partition reset that was asked for is counted and no longer wanted (R498, R514). -/
def State.partNote (s : State) (p : BitVec 4) : State :=
  let s := (s.noteStart (s.partEn p)).bump (rCLKR 0x140)
  { s with rst := { s.rst with partWant := s.rst.partWant.filter (fun x => x.1 ≠ p) } }

/-- PARTITION (R498, R514, R516): steps 1 and 2 of a partition reset that was asked for. -/
def execPartition (p : BitVec 4) (s : State) : Host.Outcome State Fault Refusal :=
  match s.rst.partWant.find? (fun x => decide (x.1 = p)) with
  | none => .next s
  | some (_, c) =>
    if s.resetting p ∨ !s.canReset then .next s
    else
      let s := s.partNote p
      if s.escalates then .next (s.blockStart .escalation (s.causeFault c)) else .next (s.partStart p c)

/-- DUMP_DONE (R517): a write of the dump is acknowledged. After the last section the header is written, and after the header
step 2 is over. -/
def execDumpDone (mtag : BitVec 8) (gen : BitVec 4) (err : Bool) (s : State) : Host.Outcome State Fault Refusal :=
  let r := s.answer false mtag gen
  match r.2 with
  | none => .next r.1
  | some q => match q.why, r.1.rst.dump with
    | .dump _, some d =>
      let s := r.1
      let d := { d with acks := d.acks - 1, err := d.err || err }
      if d.acks ≠ 0 then .next (s.setDump (some d))
      else if d.stage = 1 then
        let h := if d.err then d.header &&& ~~~(1#512 <<< 63) else d.header
        .next ((s.setDump (some { d with stage := 2, acks := 1 })).dumpLines (s.addrPair (rCLKR 0x128) 12) [h])
      else
        let s := (s.dumpOver d).blockDrain
        .next (match d.part with | some p => s.partDrain p | none => s)
    | .dump _, none => .next r.1
    | _, _ => .next s

/-- PART_RESET_DRAINED (R498, R500): step 4 increments the tags of the partition's ports, and requests an engine reset of each
that still has a command unreported; those commands are gone. -/
def execPartResetDrained (p : BitVec 4) (s : State) : Host.Outcome State Fault Refusal :=
  match s.partRun p with
  | some r =>
    if r.step = 3 ∧ s.drainOver r (s.portsOf p) then
      let s := (s.portsOf p).foldl (fun s n =>
        let hung := decide (s.occ n ≠ 0)
        let s := s.genUp n
        if hung ∧ (s.port n).serves then s.engineAsk n (if (s.port n).st = .inService then 2 else 1) else s) s
      let ns := s.portsOf p
      let s := { s with disp := { s.disp with cmds := s.disp.cmds.filter (fun c => !ns.contains c.port) } }
      .next (s.setPartRun p (some { r with step := 4, t := s.time })).drainPorts
    else .next s
  | none => .next s

/-- A stream of a partition that is reset becomes DISABLED and keeps its positions (R499). -/
def State.streamReset (s : State) (n : BitVec 14) : State :=
  (s.unqueue n).updStream n (fun x => { x with st := .disabled, ctrlEn := false, inflight := 0, dbPending := false })

/-- Directory entries of the partition are invalid on every core, and a load of one of its programs ends so (R238). -/
def Core.dropPart (c : Core) (p : BitVec 4) : Core :=
  let f := fun (b : Bank) => { b with progs := b.progs.map (fun x => if x.key.part = p.setWidth 6 then { x with valid := false } else x) }
  { c with bankA := f c.bankA, bankB := f c.bankB, load := c.load.map (fun l => if l.key.part = p.setWidth 6 then { l with stale := true } else l) }

/-- The cached function entries of a partition are written back and kept (R427). -/
def State.fevsBack (s : State) (p : BitVec 4) : State :=
  (s.land.fev.filter (fun x => decide (x.missing = 0) && decide (s.partOf x.func = some p))).foldl State.fevBack s

/-- Step 5 of a partition reset. -/
def State.partClean (s : State) (p : BitVec 4) : State :=
  let s := s.cleanRecords (fun q => decide (q = p))
  let s := ((s.streams.map (fun x => BitVec.ofNat 14 x.1)).filter (s.streamIn (some p))).foldl State.streamReset s
  let s := (s.tideReset p)
  let s := { s with cores := Tbl.remap (fun _ => Core.reset) (fun c => c.dropPart p) s.cores }
  s.fevsBack p

/-- PART_RESET_PORTS_DONE (R498): the engine resets of step 4 have completed or timed out; step 5. -/
def execPartResetPortsDone (p : BitVec 4) (s : State) : Host.Outcome State Fault Refusal :=
  match s.partRun p with
  | some r =>
    if r.step = 4 ∧ (s.portsOf p).all (fun n => decide ((s.port n).back = 0)) then
      .next ((s.partClean p).setPartRun p (some { r with step := 5, t := s.time })).drainPorts
    else .next s
  | none => .next s

/-- An access of step 5 for partition p is outstanding, or one of a REPLACE or RETIRE that the reset is to end (R170). -/
def State.cleaning (s : State) (p : BitVec 4) : Bool :=
  (match s.tmplCmd p with | some c => decide (c.op = 2) || decide (c.op = 3) | none => false) ||
  s.mmp.any (fun r => match r.why with
    | .ctxWb q _ _ _ => decide (q = p) | .ctxMod q _ => decide (q = p)
    | .fevWrite f => decide (s.partOf f = some p) | _ => false)

/-- PART_RESET_DONE (R79, R70, R340, R498): step 6. A soft reset of the PART page ends with it (R44). -/
def execPartResetDone (p : BitVec 4) (s : State) : Host.Outcome State Fault Refusal :=
  match s.partRun p with
  | some r =>
    if r.step = 5 ∧ !s.cleaning p then
      let s := ((s.ctxCmdByReset p).partBack p).setPartRun p none
      let s := (s.setBit (rCLKR 0x104) p.toNat false) 
      let s := (s.bumpF (rPART p 0x1C) 16 16).portsApply (fun q => decide (q = p))
      .next (s.tblStart p).quietRelease
    else .next s
  | none => .next s

/-! ## CLKR.RST_CMD (R519) -/

/-- A write of CLKR.RST_CMD with an assigned OP; a command is accepted at once, so BUSY is never seen. -/
def State.rstCmd (s : State) (op : Nat) : State :=
  let n := s.num (rCLKR 0x100) 0 10
  if s.flag (rCLKR 0x104) 30 then s.rstErr 4
  else if op = 1 then (if 16 ≤ n then s.rstErr 1 else (s.rstErr 0).wantPart (BitVec.ofNat 4 n) .command)
  else if op = 2 then
    (match s.rst.block with
      | some _ => ({ s with rst := { s.rst with keeperOk := true } }.rstErr 0).blockDrain
      | none => (s.rstErr 0).wantBlock .block)
  else s.portCmd op n

end Sys2Proof.Machine
end

