-- ==== Sys2Proof/Machine/Power.lean ====
section
/-! DEFINITION. Power domains, IDLE, the entry to DROWSE and OFF, and the wake (spec/17_power_domains.md). The commands whose
end lets held RDP accesses handshake are in Sys2Proof/Machine/Wake.lean. -/
namespace Sys2Proof.Machine

/-- Register addresses of the PWRC page (R539). -/
def rPWRC (off : Nat) : Nat := pageAddr pPWRC off

/-! ## The quiet condition (R523) -/

/-- The stream's head entry is parked at stage 6. -/
def State.headParked (s : State) (n : BitVec 14) : Bool :=
  match (s.stream n).head with
  | some q => (match s.entry ⟨n, q⟩ with | some e => decide (e.stage = .parked) | none => false)
  | none => false

/-- Condition 1: the streams, the Harbour queue and the poll queue. -/
def State.quiet1 (s : State) : Bool :=
  s.streams.all (fun x => match x.2.st with
    | .disabled | .idle | .paused => true
    | .blocked => s.headParked (BitVec.ofNat 14 x.1)
    | _ => false) && s.harb.queue.isEmpty && s.sync.pollQ.isEmpty

/-- Condition 2: no partition has a running launch, and each is DISABLED or SERVING with no advance pending. -/
def State.quiet2 (s : State) : Bool :=
  s.allEntries.all (fun x => !x.2.running) &&
    ((List.range 16).map (BitVec.ofNat 4)).all (fun p => decide (s.num (rPART p 0x74) 0 3 ≤ 1) && !s.flag (rTIDE p 8) 31)

/-- Condition 3: no command is unreported, and no group holds a candidate or a queued flit. -/
def State.quiet3 (s : State) : Bool := s.disp.cands.isEmpty && s.disp.cmds.isEmpty

/-- A write of Landing is in flight. -/
def State.landWrites (s : State) : Bool :=
  s.mmp.any (fun r => match r.why with
    | .record _ | .audit _ | .fence _ | .dlog _ _ | .message _ _ | .fevWrite _ => true | _ => false) ||
  s.fap.any (fun r => match r.why with | .fence _ => true | _ => false)

/-- Landing has issued every pending message of an unmasked vector and written back its cached lines (R427). -/
def State.landClean (s : State) : Bool :=
  s.land.fev.all (fun x => !x.dirty && vectors.all (fun v => x.masked v || decide ((s.vec x.func v).pend = 0)))

/-- Landing issues every pending message of an unmasked vector, regardless of hold-off, and writes back its cache (R427). -/
def State.landFlush (s : State) : State :=
  let s := (s.land.fev.map (·.func)).foldl (fun s f => vectors.foldl (fun s v => match s.fev f with
    | some x => if !x.masked v ∧ (s.vec f v).pend ≠ 0 then s.message x v s.viewTime else s
    | none => s) s) s
  (s.land.fev.filter (fun x => decide (x.missing = 0) && x.dirty)).foldl State.fevBack s

/-- Nothing waits in Shoal or in Landing, and no write of Landing is in flight; the writes with which an entry empties Landing (R530)
do not count against the entry. -/
def State.landIdle (s : State) : Bool :=
  s.shoal.wins.isEmpty && s.shoal.lookups.isEmpty && s.land.queue.isEmpty && s.land.hashing.isEmpty && s.land.faults.isEmpty &&
    s.land.fifos.isEmpty && (decide (s.pwr.mode = .entering) || !s.landWrites)

/-- Condition 4: Shoal and Landing report idle (R366, R427). -/
def State.quiet4 (s : State) : Bool := s.landIdle && s.landClean

/-- A partition or block reset, an engine reset or a soft reset runs or is about to. -/
def State.resetRuns (s : State) : Bool :=
  s.rst.block.isSome || s.rst.blockWant.isSome || !s.rst.partWant.isEmpty || s.rst.parts.any (·.2.isSome) ||
    s.ports.any (fun x => decide (x.2.st = .resetting)) || s.unitPages.any (fun pg => s.flag (pageAddr pg 0x0C) 1)

/-- Condition 5: no command is BUSY, and no IMEM load, wake-engine pass, mirror write or reset is outstanding. -/
def State.quiet5 (s : State) : Bool :=
  s.harb.cmds.isEmpty && s.ferry.cmds.isEmpty && s.cores.all (fun x => x.2.load.isNone) && s.shoal.reads.isEmpty &&
    s.land.cmd.isNone && s.aud.dig.isNone && !s.flag (rAUDT 0x200) 27 && !s.flag (rSYNC 0x70) 27 &&
    s.sync.passes.isEmpty && s.sync.offers.isEmpty && s.sync.mirrors.all (fun x => !x.2.out) && !s.resetRuns

/-- Condition i + 1 of R523, which is PWRC.IDLE_STAT.COND[i]. -/
def State.quietCond (s : State) (i : Nat) : Bool :=
  match i with
  | 0 => s.quiet1 | 1 => s.quiet2 | 2 => s.quiet3 | 3 => s.quiet4 | 4 => s.quiet5 | _ => !s.flag (rCLKR 0x104) 30

/-- The block is quiet (R523). -/
def State.quiet (s : State) : Bool := (List.range 6).all s.quietCond

/-- The block would be quiet but for messages and lines that Landing still holds: it issues and writes them now, so that it can report
itself idle (R427; DEDUCED, log entry 55). -/
def State.landRest (s : State) : State :=
  if s.pwr.mode = .active ∧ s.quiet1 ∧ s.quiet2 ∧ s.quiet3 ∧ s.landIdle ∧ s.quiet5 ∧ !s.landClean then s.landFlush else s

/-- The quiet time at a CCLK edge (R524, R530). -/
def State.quietTick (s : State) : State :=
  let s := s.landRest
  if s.quiet then
    { s with pwr := { s.pwr with quietC := s.pwr.quietC + 1, quietT := if s.pwr.quietC = 0 then s.time else s.pwr.quietT } }
  else { s with pwr := { s.pwr with quietC := 0 } }

/-! ## IDLE (R524, R525) -/

/-- IDLE_ENTRY (R455, R524). -/
def execIdleEntry (s : State) : Host.Outcome State Fault Refusal :=
  if s.pwr.mode = .active ∧ s.flag (rPWRC 0x48) 0 ∧ s.quiet ∧ s.num (rPWRC 0x4C) 0 16 ≤ s.pwr.quietC then
    let s := s.timingBreakAll
    .next { s with pwr := { s.pwr with mode := .idle } }
  else .next s

/-- IDLE_EXIT (R525). -/
def execIdleExit (s : State) : Host.Outcome State Fault Refusal := .next s.idleExit

/-! ## Domains (R520, R521, R527) -/

/-- Domains that Swisto requests: not PD27 with at most 64 ports, not PD28 without a remote group (R521, R620). -/
def State.domUsed (s : State) (d : Nat) : Bool :=
  decide (1 ≤ d) && decide (d ≤ 31) && (decide (d ≠ 27) || decide (64 < s.ecpCount)) && (decide (d ≠ 28) || decide (s.cwMap ≠ 0))

/-- The domains that Swisto switches. -/
def State.domains (s : State) : List Nat := (List.range 32).filter s.domUsed

/-- Retained in DROWSE (R526). -/
def domRetained (d : Nat) : Bool := (decide (5 ≤ d) && decide (d ≤ 14)) || decide (d = 23)

/-- The wake wave of a domain (R520). -/
def domWave (d : Nat) : Nat :=
  if d ≤ 2 then 1 else if (16 ≤ d ∧ d ≤ 20) ∨ (26 ≤ d ∧ d ≤ 29) ∨ d = 31 then 3 else 2

/-- Domains of a wave. -/
def State.wave (s : State) (w : Nat) : List Nat := s.domains.filter (fun d => decide (domWave d = w))

/-- Change a domain. -/
def State.updDom (s : State) (d : Nat) (f : Dom → Dom) : State :=
  { s with pwr := { s.pwr with doms := Tbl.set (fun _ => Dom.off) s.pwr.doms d (f (s.dom d)) } }

/-- Isolation is released, as the last edge of a power-up (R527); a port's domain samples DEPTH at this point (R594), which its
engine has not changed since the sampling before. -/
def Dom.open' (d : Dom) : Dom := { d with iso := false, ret := false }

/-- Request a domain's supply; one that still acknowledges is up at once (R527). -/
def State.domOn (s : State) (d : Nat) : State :=
  s.updDom d (fun x => if x.ack then { x with req := true, reqT := s.time }.open' else { x with req := true, reqT := s.time })

/-- Power a domain down (R527). -/
def State.domOff (s : State) (keep : Bool) (d : Nat) : State :=
  s.updDom d (fun x => { x with iso := true, ret := keep && domRetained d, req := false, reqT := s.time })

/-- The domain has acknowledged what was requested of it. -/
def Dom.agrees (d : Dom) : Bool := d.req == d.ack

/-! ## Entry to DROWSE and OFF (R530, R531, R536) -/

/-- PWRC.CMD.ERR. -/
def State.pwrErr (s : State) (e : BitVec 4) : State := s.setF (rPWRC 0x40) 20 e

/-- Step 1 of an entry (R455, R530): RDP ready is low while the mode is `entering`. -/
def State.entryStart (s : State) (depth : Depth) (cmd : Bool) : State :=
  let s := s.timingBreakAll
  let s := { s with
    pwr := { s.pwr with mode := .entering, depth := depth, cmd := cmd, flushed := false, backOut := false, want := 0, quietC := 0 }
    fetch := { s.fetch with cache := [] } }
  s.landFlush

/-- A write of PWRC.CMD with an assigned OP (R530, R536). -/
def State.pwrCmd (s : State) (op : Nat) : State :=
  if op = 1 then (if s.quiet then (s.pwrErr 0).entryStart .drowse true else s.pwrErr 1)
  else if s.flag (rCLKR 0x104) 30 then s.pwrErr 3
  else if s.quiet ∧ !s.anyStreamOn then (s.pwrErr 0).entryStart .off true
  else s.pwrErr 1

/-- AUTO_DROWSE (R530): the block has stayed quiet for DROWSE_AFTER. -/
def execAutoDrowse (s : State) : Host.Outcome State Fault Refusal :=
  if (s.pwr.mode = .active ∨ s.pwr.mode = .idle) ∧ s.flag (rPWRC 0x48) 1 ∧ s.quiet ∧ s.pwr.quietC ≠ 0 ∧
      s.num (rPWRC 0x50) 0 20 * 1000 ≤ (s.time - s.pwr.quietT).toNat then .next (s.entryStart .drowse false)
  else .next s

/-- The entry can be abandoned now (R531): before PD1 is isolated, the block stops being quiet or an RDP access is presented. -/
def State.mustAbort (s : State) : Bool :=
  decide (s.pwr.mode = .entering) && !s.pwr.flushed && (!s.quiet || !s.rdp.held.isEmpty)

/-- The entry is abandoned (R455, R531). -/
def State.entryAbort (s : State) : State :=
  let s := if s.pwr.cmd then s.pwrErr 2 else s
  let s := ((s.bump (rPWRC 0x78)).setErr pPWRC 17).timingBreakAll
  { s with pwr := { s.pwr with mode := .active, cmd := false } }

/-- Requests at MMP or FAP whose effect an entry waits for. -/
def State.entryWaits (s : State) : Bool :=
  s.mmp.any (·.settles) || s.fap.any (fun r => match r.why with | .watch _ => false | _ => true)

/-- ENTRY_FLUSH_DONE (R467, R530, R551): steps 1 and 2 are over; every domain is powered down at once. -/
def execEntryFlushDone (s : State) : Host.Outcome State Fault Refusal :=
  if s.pwr.mode = .entering ∧ !s.pwr.flushed ∧ !s.mustAbort ∧ !s.entryWaits then
    let s := s.runEnds.alignDrop.wr (rPWRC 0x70) 0
    let s := s.domains.foldl (State.domOff · (decide (s.pwr.depth = .drowse))) s
    .next { s with pwr := { s.pwr with flushed := true } }
  else .next s

/-! ## The wake (R532, R533) -/

/-- Request a wave. -/
def State.waveOn (s : State) (w : Nat) : State :=
  (s.wave w).foldl State.domOn { s with pwr := { s.pwr with wave := w } }

/-- A wake starts (R532, R533). -/
def State.wakeStart (s : State) (cause : Nat) : State :=
  let from' : BitVec 4 := if s.pwr.depth = .off then 3 else 2
  let s := ((s.setF (rPWRC 0x44) 28 (BitVec.ofNat 4 cause)).setF (rPWRC 0x44) 24 from').wr (rPWRC 0x70) 0
  { s with pwr := { s.pwr with mode := .waking, wakeT := s.time, want := 0, backOut := false } }.waveOn 1

/-- PG_STAT.UNIT of a page that lies in PD0 (R47). -/
def pd0Unit (u : BitVec 8) : Bool := decide (u = 2) || decide (u = 5) || decide (u = 7)

/-- The cause of a wake is enabled and present (R532). -/
def State.wakeOk (s : State) (cause : Nat) : Bool :=
  match cause with
  | 1 => true
  | 2 => s.flag (rPWRC 0x54) 0
  | 3 => s.flag (rPWRC 0x54) 1 && s.reef.waiting.any (fun e => pd0Unit e.unit && decide (s.num (rPWRC 0x54) 8 3 ≤ e.sev))
  | 4 => s.flag (rPWRC 0x54) 2 && decide (s.rd64 (rPWRC 0x58) ≤ s.time)
  | _ => false

/-- A wake cause occurs: in DROWSE or OFF the wake starts; during step 3 of an entry the power-down completes first. -/
def State.wakeBy (s : State) (cause : Nat) : State :=
  if !s.wakeOk cause then s
  else if s.pwr.mode = .down then s.wakeStart cause
  else if s.pwr.mode = .entering ∧ s.pwr.flushed ∧ s.pwr.want = 0 then { s with pwr := { s.pwr with want := cause } }
  else s

/-- WAKE (R532, R533). -/
def execWake (cause : BitVec 4) (s : State) : Host.Outcome State Fault Refusal := .next (s.wakeBy cause.toNat)

/-- WAKE_TIMER (R532). -/
def execWakeTimer (s : State) : Host.Outcome State Fault Refusal := .next (s.wakeBy 4)

/-- What DROWSE loses (R366, R400, R427, R467, R522): every store outside PD0 that is not retained is in its reset state. -/
def State.drowseInit (s : State) : State :=
  let s := s.unitCmdsEnd.regsClear
  { s with
    fetch := Fetch.reset, ferry := { Ferry.reset with pins := s.ferry.pins }, cores := [], disp := Disp.reset, scales := []
    trace := Trace.reset, progT := [], land := Landing.reset, shoal := Shoal.reset, aud := Audit.reset, mmp := [], fap := []
    keep := Keep.reset
    sync := { s.sync with
      offers := [], rot0 := 4, rot1 := 4, passes := []
      watches := s.sync.watches.filter (fun (x : Nat × Watch) => x.2.held.isSome)
      mirrors := [] } }

/-- The words of the mirror table, which lie in PD13 and PD14 (R277, R520). -/
def mirrorWord (key : Nat) : Bool :=
  let a := key % 0x4000000
  decide (a = rSYNC 0x64) || decide (a = rSYNC 0x68) || decide (a = rSYNC 0x6C)

/-- What OFF loses besides (R537): every store outside PD0 is as a cold reset leaves it. -/
def State.offInit (s : State) : State :=
  let s := s.drowseInit
  let s := { s with
    regs := s.regs.filter (fun (x : Nat × Word) => !mirrorWord x.1)
    streams := [], entries := [], harb := Harbour.reset, ferry := Ferry.reset, sync := Sync.reset }
  ((List.range 16).map (BitVec.ofNat 4)).foldl State.partBack s

/-- Step 4's resynchronisation (R273): one read for every poll entry and every watch, every watch subscribed again, and every
mirrored object's value written. Poll entries whose words lie in one line share a read (R260). -/
def State.resync (s : State) : State :=
  let held := s.sync.watches.filterMap (fun x => x.2.held.map (fun p => (x.1, p)))
  let s := (distinct (((s.sync.polls.map (·.addr)) ++ held.map (·.2.addr)).map s.pollKey)).foldl State.pollIssue s
  let s := held.foldl (fun (s : State) (x : Nat × Poll) => s.issueFap (.watch (BitVec.ofNat 8 x.1) x.2.value) x.2.addr (.watch x.1)) s
  s.mirrorsOn.foldl (fun s m => s.mirrorWrite m) s

/-- A link's state becomes Active as Causeway sees it (R601): every credit of its groups is at the bridge. -/
def State.linkFresh (s : State) (k : Nat) : State :=
  { s with cw := { s.cw with credits := s.cw.credits.filter (fun x => s.linkOf x.1 ≠ some k) } }

/-- The ports that sample DEPTH at the power-up that follows a cold reset (R594): what their engines present is an input that no
command carries, so it is a free value (log entry 29). -/
def State.sampleDepth (s : State) (n : Nat) : State :=
  let d : BitVec 7 := s.fresh.extractLsb' 0 7
  s.used.wr (rEPRT n 0x44) (ofBool (decide (1 ≤ d.toNat) && decide (d.toNat ≤ 64)) ++ 0#24 ++ d)

/-- Every wave has acknowledged: step 4 begins (R533, R536), or after a cold reset the block is ACTIVE (R538). -/
def State.domainsUp (s : State) : State :=
  let s := [0, 1, 2].foldl State.linkFresh s
  match s.pwr.depth with
  | .drowse =>
    { s.drowseInit.resync.pinsReload.scrubPass with pwr := { s.pwr with wave := 4 } }
  | .off => { s.offInit with pwr := { s.pwr with wave := 4 } }
  | .cold =>
    let s := ((List.range s.ecpCount).filter (fun n => (s.linkOf (n / 16)).isNone)).foldl State.sampleDepth s
    let s := s.setF (rPWRC 0x44) 28 (5#4)
    { s with pwr := { s.pwr with mode := .active, wave := 4 }, keep := { s.keep with bootDue := true } }

/-- A wake goes on, by at most `fuel` waves, as far as the domains that it has requested are up. What the pages have lost (R522) is
gone before Beacon evaluates its level sources (R442). -/
def State.waveGo (s : State) : Nat → State
  | 0 => s
  | fuel + 1 =>
    if s.pwr.mode ≠ .waking ∨ 4 ≤ s.pwr.wave ∨ s.pwr.wave = 0 then s
    else if s.pwr.backOut then (if s.domains.all s.powered then s.domainsUp else s)
    else if !(s.wave s.pwr.wave).all s.powered then s
    else
      let s := if s.pwr.wave = 1 then s.regsClear.beaconRestore else s
      if s.pwr.wave = 3 then s.domainsUp else (s.waveOn (s.pwr.wave + 1)).waveGo fuel

/-- A wake goes on once the domains that it has requested are up. -/
def State.waveNext (s : State) : State := s.waveGo 3

/-- An entry is abandoned after a domain has been switched off (R528): every domain is powered up again. -/
def State.entryUndo (s : State) : State :=
  let s := if s.pwr.cmd then s.pwrErr 4 else s
  let s := { s with pwr := { s.pwr with mode := .waking, backOut := true, wave := 3, cmd := false } }
  (s.domains.foldl State.domOn s.regsClear.beaconRestore).waveNext

/-- A time since a request that counts no more towards R528. -/
def noReq : Dword := BitVec.allOnes 64

/-- PWR_ACK of a domain rises while it is requested: the power-up ends (R527), and an S5 action that waited for it begins
(R528, R529). -/
def State.ackRise (s : State) (d : Nat) : State :=
  let x := s.dom d
  let s := if x.reqT = noReq then s else
    s.wr (rPWRC 0x70) (BitVec.ofNat 32 (max (s.rd (rPWRC 0x70)).toNat (min (s.time - x.reqT).toNat 0xFFFFFFFF)))
  let s := s.updDom d (fun x => { x with ack := true, reqT := noReq }.open')
  if s.pwr.fatal ∧ s.domains.all (fun d => !(s.dom d).req || (s.dom d).ack || decide ((s.dom d).reqT ≠ noReq)) then
    { s with pwr := { s.pwr with fatal := false } }.stopBlock
  else s

/-- PWR_ACK of a domain falls while it is not requested (R527, R530): once every domain is down, so is the block. -/
def State.ackFall (s : State) (d : Nat) : State :=
  let x := s.dom d
  let s := if x.reqT = noReq then s else
    s.wr (rPWRC 0x70) (BitVec.ofNat 32 (max (s.rd (rPWRC 0x70)).toNat (min (s.time - x.reqT).toNat 0xFFFFFFFF)))
  let s := s.updDom d (fun x => { x with ack := false, reqT := noReq })
  if s.pwr.mode = .entering ∧ s.pwr.flushed ∧ s.domains.all (fun d => !(s.dom d).ack) then
    let s : State := { s.bump (rPWRC 0x74) with pwr := { s.pwr with mode := .down, cmd := false } }
    if !s.rdp.held.isEmpty then s.wakeStart 1
    else if s.pwr.want ≠ 0 then s.wakeStart s.pwr.want
    else s
  else s

/-- A synchronised PWR_ACK change (R527 to R529). -/
def State.pwrAck (s : State) (d : Nat) (level : Bool) : State :=
  let x := s.dom d
  if !s.domUsed d ∨ x.ack = level then s
  else if s.pwr.coldHeld then s.updDom d (fun x => { x with ack := level })
  else if level then (if x.req then (s.ackRise d).waveNext else s.updDom d (fun x => { x with ack := true }))
  else if !x.req then s.ackFall d
  else
    -- PWR_LOST: the domain had acknowledged
    let s := s.updDom d (fun x => { x with ack := false, reqT := noReq })
    { (s.raise (ev pPWRC 0x22 5)) with pwr := { s.pwr with fatal := true } }

/-- ACK_TIMEOUT (R528). -/
def execAckTimeout (dom : BitVec 5) (s : State) : Host.Outcome State Fault Refusal :=
  let d := dom.toNat
  let x := s.dom d
  if s.domUsed d ∧ !x.agrees ∧ x.reqT ≠ noReq ∧ !s.pwr.coldHeld ∧ s.num (rPWRC 0x60) 0 20 * 1000 ≤ (s.time - x.reqT).toNat then
    let s := s.setErr pPWRC 16
    if x.req then
      let s := (s.intake (ev pPWRC 0x21 5)).updDom d (fun x => { x with reqT := noReq })
      .next { s with pwr := { s.pwr with fatal := true } }
    else .next (s.raise (ev pPWRC 0x20 1)).entryUndo
  else .next s

end Sys2Proof.Machine
end

