-- ==== Sys2Proof/Machine/Clocks.lean ====
section
/-! DEFINITION. Clock measurement, alignment and device time (spec/18_clock_domains.md). -/
namespace Sys2Proof.Machine

/-- Register addresses of the TIME page (R562). -/
def rTIME (off : Nat) : Nat := pageAddr pTIME off

/-! ## Measurement (R543, R561) -/

/-- A measured clock differs by more than 1 % from its declared value; a clock that is stopped measures 0 and is no mismatch. -/
def mismatch (m d : Nat) : Bool := decide (m ≠ 0) && decide (d < 100 * (max m d - min m d))

/-- CLOCK_MEASURE (R543, R598): the twelve clocks in the order of CLKR.MEASURE; the ECLK of a remote group reads 0. -/
def execClockMeasure (mhz : List (BitVec 12)) (s : State) : Host.Outcome State Fault Refusal :=
  if mhz.length ≠ 12 then .fault .illFormed
  else if s.pwr.coldHeld then .next s
  else
    let t := (List.range 12).foldl (fun s i =>
      let remote := decide (2 ≤ i) && decide (i ≤ 9) && (s.linkOf (i - 2)).isSome
      s.wr (rCLKR (0x60 + 4 * i)) (if remote then 0 else (mhz.getD i 0).setWidth 32)) s
    let bad := mismatch (mhz.getD 0 0).toNat s.cclkMhz || mismatch (mhz.getD 1 0).toNat (s.num (pageAddr pINTG 0x58) 0 12)
    if bad && !s.flag (pageAddr pCLKR 0x14) 19 then .next ((t.setErr pCLKR 19).raise (ev pCLKR 0x47 1)) else .next t

/-! ## Alignment (R551, R554) -/

/-- CLKR.ALIGN_STAT.STATE. -/
def State.alignState (s : State) : Nat := s.num (rCLKR 0x50) 30 2

/-- Set CLKR.ALIGN_STAT.STATE. -/
def State.setAlign (s : State) (v : BitVec 2) : State := s.setF (rCLKR 0x50) 30 v

/-- The alignment can leave ASYNC: neither a block compute reset nor DROWSE or OFF holds it there. -/
def State.alignAble (s : State) : Bool :=
  (decide (s.pwr.mode = .active) || decide (s.pwr.mode = .idle) || (decide (s.pwr.mode = .entering) && !s.pwr.flushed)) && s.rst.block.isNone

/-- A check fails (R551). -/
def State.alignFail (s : State) (mask : BitVec 12) : State :=
  let s := ((s.setF (rCLKR 0x50) 0 mask).setAlign 0).setErr pCLKR 16
  (s.bump (rCLKR 0x54)).raise (ev pCLKR 0x45 1)

/-- ALIGN_REQ (R551, R554): the synchronised level of ALIGN_REQ changes. -/
def execAlignReq (level : Bool) (s : State) : Host.Outcome State Fault Refusal :=
  if s.pwr.coldHeld ∨ s.flag (rCLKR 0x50) 29 = level then .next s
  else
    let s := s.setBit (rCLKR 0x50) 29 level
    let st := s.alignState
    if level then .next (if st = 0 ∧ s.alignAble then s.setAlign 1 else s)
    else if st = 1 then .next (s.alignFail 0)
    else if st = 2 then .next (s.timingBreakAll.setAlign 0)
    else .next s

/-- ALIGN_CHECK_DONE (R551): the check of 64 periods is over; `failMask` names the clocks that failed it. -/
def execAlignCheckDone (failMask : BitVec 12) (s : State) : Host.Outcome State Fault Refusal :=
  if s.alignState ≠ 1 then .next s
  else if failMask = 0 then .next ((s.setF (rCLKR 0x50) 0 (0#12)).setAlign 2)
  else .next (s.alignFail failMask)

/-- ALIGN_LOST (R551, R554): the coincidence check fails in LOCKED with ALIGN_REQ asserted. -/
def execAlignLost (failMask : BitVec 12) (s : State) : Host.Outcome State Fault Refusal :=
  if s.alignState ≠ 2 ∨ !s.flag (rCLKR 0x50) 29 ∨ failMask = 0 then .next s
  else
    let s := ((s.timingBreakAll.setF (rCLKR 0x50) 0 failMask).setAlign 0).setErr pCLKR 17
    .next ((s.bump (rCLKR 0x58)).raise (ev pCLKR 0x46 5))

/-! ## Device time (R555, R556) -/

/-- What the CCLK view adds per CCLK, in units of 2^-16 ns (R556): round(2^16 * 1,000 / CCLK_MHZ). -/
def State.viewInc (s : State) : Nat := (2 * 65536000 + s.cclkMhz) / (2 * s.cclkMhz)

/-- The view is reloaded at an ACLK edge (R556). -/
def State.viewLoad (s : State) : State :=
  let v := s.time.toNat * 65536 + 3 * s.viewInc
  if v < s.view then { s with viewHeld := true } else { s with view := v, viewHeld := false }

/-- Device time takes a value at an ACLK edge. -/
def State.setTime (s : State) (t : Dword) : State := { s with time := t }.viewLoad

/-- Device time at the next ACLK edge without a TIME.SET (R555, R557): 10, or 9 or 11 while slewing, and a step that waits. -/
def State.nextTime (s : State) : Dword :=
  s.time + (if s.tsync.slew < 0 then 9 else if 0 < s.tsync.slew then 11 else 10) + s.tsync.step

/-- One nanosecond of a slew is absorbed at an edge. -/
def slewStep (x : Int) : Int := if x < 0 then x + 1 else if 0 < x then x - 1 else 0

/-- TIME.SYNC_STAT.SLEWING. -/
def State.slewing (s : State) : State := s.setBit (rTIME 0x64) 31 (decide (s.tsync.slew ≠ 0))

/-- DEVICE_TIME_TICK (R488, R555, R556, R560): an ACLK rising edge. -/
def execDeviceTimeTick (s : State) : Host.Outcome State Fault Refusal :=
  if s.pwr.coldHeld then .next s
  else
    let t := s.nextTime
    let plain : State := { s with tsync := { s.tsync with slew := slewStep s.tsync.slew, step := 0, set := none } }
    match s.tsync.set with
    | none => .next ((plain.setTime t).slewing).discTick
    | some v =>
      if v < t then .next (((plain.setTime t).slewing).setErr pTIME 16).discTick
      else
        let s : State := { plain with tsync := { plain.tsync with slew := 0 } }
        .next ((s.setTime v).slewing).discTick

/-! ## TIME_SYNC (R557, R559, R560) -/

/-- A signed value in 32 bits, saturating at plus and minus 2^31 - 1. -/
def sat32 (x : Int) : Word := BitVec.ofInt 32 (max (-0x7FFFFFFF) (min 0x7FFFFFFF x))

/-- The correction of an offset (R557). -/
def State.correct (s : State) (off : Int) : State :=
  let limit : Int := s.num (rTIME 0x58) 0 24
  if off = 0 then { s with tsync := { s.tsync with slew := 0 } }
  else if limit < off then
    let s : State := { s with tsync := { s.tsync with slew := 0, step := BitVec.ofInt 64 off } }
    (s.setBit (rTIME 0x64) 30 true).setErr pTIME 18
  else
    let s : State := { s with tsync := { s.tsync with slew := off } }
    s.setBit (rTIME 0x64) 30 false

/-- TIME_SYNC (R557, R559): a pulse is taken. One at the edge at which a TIME.SET takes effect is discarded without correction
(R560). -/
def execTimeSync (s : State) : Host.Outcome State Fault Refusal :=
  if !s.flag (rTIME 0x58) 31 ∨ s.pwr.coldHeld then .next s
  else
    let s : State := { s.setBit (rTIME 0x64) 29 false with tsync := { s.tsync with pulseT := s.time } }
    if s.tsync.set.isSome then .next s
    else
      let off : Int := (s.rd64 (rTIME 0x50)).toNat - ((s.time.toNat : Int) - 25)
      let s := ((s.bump (rTIME 0x68)).wr (rTIME 0x60) (sat32 off)).correct off
      let s := if s.flag (rTIME 0x58) 30 then s.wr64 (rTIME 0x50) (s.rd64 (rTIME 0x50) + (s.rd (rTIME 0x5C)).setWidth 64) else s
      .next s.slewing

/-- SYNC_LOST (R559): no pulse has come within twice SYNC_PERIOD. -/
def execSyncLost (s : State) : Host.Outcome State Fault Refusal :=
  if s.flag (rTIME 0x58) 31 ∧ !s.flag (rTIME 0x64) 29 ∧ !s.pwr.coldHeld ∧
      2 * (s.rd (rTIME 0x5C)).toNat < (s.time - s.tsync.pulseT).toNat then
    .next (((s.setBit (rTIME 0x64) 29 true).setErr pTIME 17).raise (ev pTIME 0x60 1))
  else .next s

/-- A write of TIME.SET (R560): it takes effect at the next ACLK edge. -/
def State.timeSet (s : State) (v : Dword) : State := { s with tsync := { s.tsync with set := some v } }

end Sys2Proof.Machine
end

