-- ==== Sys2Proof/Machine/Keeper.lean ====
section
/-! DEFINITION. Keeper firmware: the image store, boot and the mailbox (spec/19_keeper_firmware.md). -/
namespace Sys2Proof.Machine

/-- Register addresses of the KEEP page (R576). -/
def rKEEP (off : Nat) : Nat := pageAddr pKEEP off

/-! ## ECDSA on P-256 (R565; the curve's constants are those of FIPS 186, log entry 8) -/

/-- The field prime, the coefficient b, the base point and its order. -/
def p256 : Nat := 0xFFFFFFFF00000001000000000000000000000000FFFFFFFFFFFFFFFFFFFFFFFF
def p256B : Nat := 0x5AC635D8AA3A93E7B3EBBD55769886BC651D06B0CC53B0F63BCE3C3E27D2604B
def p256G : Nat × Nat := (0x6B17D1F2E12C4247F8BCE6E563A440F277037D812DEB33A0F4A13945D898C296,
  0x4FE342E2FE1A7F9B8EE7EB4A7C0F9E162BCE33576B315ECECBB6406837BF51F5)
def p256N : Nat := 0xFFFFFFFF00000000FFFFFFFFFFFFFFFFBCE6FAADA7179E84F3B9CAC2FC632551

/-- The bits of a 256-bit number, highest first. -/
def bits256 (k : Nat) : List Bool := (List.range 256).map (fun i => k.testBit (255 - i))

/-- x to the power k modulo m. -/
def powMod (m x k : Nat) : Nat := (bits256 k).foldl (fun a b => if b then a * a % m * x % m else a * a % m) 1

/-- Inverse modulo a prime. -/
def invMod (m x : Nat) : Nat := powMod m (x % m) (m - 2)

/-- Difference modulo p. -/
def subP (a b : Nat) : Nat := (a + p256 - b % p256) % p256

/-- The sum of two points; none is the point at infinity. -/
def addP : Option (Nat × Nat) → Option (Nat × Nat) → Option (Nat × Nat)
  | none, q => q
  | q, none => q
  | some (x1, y1), some (x2, y2) =>
    if x1 = x2 ∧ (y1 + y2) % p256 = 0 then none
    else
      let l := if x1 = x2 then (3 * x1 * x1 + (p256 - 3)) * invMod p256 (2 * y1) % p256 else subP y2 y1 * invMod p256 (subP x2 x1) % p256
      let x := subP (subP (l * l) x1) x2
      some (x, subP (l * subP x1 x) y1)

/-- A multiple of a point. -/
def mulP (k : Nat) (q : Nat × Nat) : Option (Nat × Nat) :=
  (bits256 k).foldl (fun a b => if b then addP (addP a a) (some q) else addP a a) none

/-- The point lies on the curve. -/
def onCurve (q : Nat × Nat) : Bool :=
  decide (q.1 < p256) && decide (q.2 < p256) && decide (q.2 * q.2 % p256 = (q.1 * q.1 * q.1 + (p256 - 3) * q.1 + p256B) % p256)

/-- A signature (r, s) of the digest z is valid under a public key (FIPS 186). -/
def ecdsaOk (z r s : Nat) (q : Nat × Nat) : Bool :=
  let w := invMod p256N s
  decide (0 < r) && decide (r < p256N) && decide (0 < s) && decide (s < p256N) && onCurve q &&
    (match addP (mulP (z * w % p256N) p256G) (mulP (r * w % p256N) q) with
      | some (x, _) => decide (x % p256N = r)
      | none => false)

/-! ## Images (R564, R565) -/

/-- Bytes of a sequence of lines, and their big-endian number. -/
def bytesOfLines (ls : List Line) (off n : Nat) : List Byte := (List.range n).map (fun i => byteAt ls (off + i))
def beNat (bs : List Byte) : Nat := bs.foldl (fun a b => a * 256 + b.toNat) 0

/-- SHA-256 of header bytes 0x00 to 0x5F: one whole line, then the last 32 bytes with their padding. -/
def headDigest (img : List Line) : BitVec 256 :=
  let last := lineOfBytes (bytesOfLines img 0x40 32 ++ (0x80 : Byte) :: List.replicate 29 0 ++ [0x03, 0x00])
  shaOut (shaBlock (shaBlock shaInit (img.getD 0 0)) last)

/-- LOAD_BYTES, SVN and IMAGE_VER of an image's first line. -/
def hLoad (l : Line) : Nat := (Line.w32 l 0x10).toNat
def hSvn (l : Line) : Word := Line.w32 l 0xC
def hVer (l : Line) : BitVec 24 := (Line.w32 l 8).extractLsb' 0 24

/-- The first check of R565; GLBL.HW_VERSION is 0x0001_0000. -/
def formatOk (h : Line) : Bool :=
  decide (Line.w32 h 0 = 0x4B454550) && decide (Line.byte h 4 = 1) && decide (64 ≤ hLoad h) && decide (hLoad h ≤ 196608) &&
    decide (hLoad h % 64 = 0) && decide ((Line.w32 h 0x14).toNat % 4 = 0) && decide ((Line.w32 h 0x14).toNat < hLoad h) &&
    decide ((Line.w32 h 0x18).toNat ≤ 0x10000)

/-- The checks of R565 in order: the ERR code, 0 for a valid image, and the heartbeats that R569 lets the ROM write meanwhile. -/
def keepCheck (img : List Line) (minSvn : Word) : Nat × Nat :=
  let h := img.getD 0 0
  if !formatOk h then (5, 0)
  else
    let key := lineOfBytes (bytesOfLines img 0x60 64)
    let body := (List.range (hLoad h / 64)).map (fun i => img.getD (4 + i) 0)
    let beats := hLoad h / 16384
    if shaLines [key] ≠ Config.keepKeyDigest then (6, 0)
    else if shaLines body ≠ (img.getD 1 0).extractLsb' 0 256 then (7, beats)
    else
      let q := (beNat (bytesOfLines img 0x60 32), beNat (bytesOfLines img 0x80 32))
      let z := beNat (bytesOf (headDigest img) 32)
      if !ecdsaOk z (beNat (bytesOfLines img 0xA0 32)) (beNat (bytesOfLines img 0xC0 32)) q then (8, beats + 2)
      else if hSvn h < minSvn then (9, beats + 2)
      else (0, beats + 2)

/-! ## State records (R566, R567) -/

/-- STATE and TRIES of a slot. -/
def recState (r : Line) (slot : BitVec 1) : Nat := ((Line.w32 r 0x10).extractLsb' (8 * slot.toNat) 3).toNat
def recTries (r : Line) (slot : BitVec 1) : Nat := ((Line.w32 r 0x10).extractLsb' (8 * slot.toNat + 4) 2).toNat
def recSeq (r : Line) : Dword := Line.w64 r 8
def recMinSvn (r : Line) : Word := Line.w32 r 0x14

/-- Set STATE and TRIES of a slot. -/
def recSet (r : Line) (slot : BitVec 1) (state tries : Nat) : Line :=
  putBits (putBits r (0x80 + 8 * slot.toNat) (BitVec.ofNat 3 state)) (0x80 + 8 * slot.toNat + 4) (BitVec.ofNat 2 tries)

/-- A record copy is valid. -/
def recOk (r : Line) : Bool :=
  decide (Line.w32 r 0 = 0x53544154) && decide (crc64 (bytesOf r 56) = Line.w64 r 0x38) && decide (recState r 0 ≤ 4) && decide (recState r 1 ≤ 4)

/-- A changed record as it is written: SEQ + 1 and its CRC (R567). -/
def recNext (r : Line) : Line :=
  let r := Line.put r 8 (recSeq r + 1)
  Line.put r 0x38 (crc64 (bytesOf r 56))

/-- The slot in a state. -/
def slotIn (r : Line) (state : Nat) : Option (BitVec 1) := ([0, 1] : List (BitVec 1)).find? (fun x => decide (recState r x = state))

/-- Write a record to the copy that does not hold the current one. -/
def State.recordOut (s : State) (r : Line) : State :=
  s.write (s.keepStore + BitVec.ofNat 57 (0x1000 * ((recSeq r).toNat % 2))) 64 [r] (.mbox 0)

/-- A record is the current one; KEEP.SLOT_STAT and MIN_SVN show it. -/
def State.setRecord (s : State) (r : Line) : State :=
  ({ s with keep := { s.keep with record := some r } }.wr (rKEEP 0x48) (Line.w32 r 0x10)).wr (rKEEP 0x4C) (recMinSvn r)

/-! ## Boot (R567 to R570) -/

/-- A record write of the boot ROM, which is taken as acknowledged before the next step (log entry 30). -/
def State.bootWrite (s : State) (r : Line) : State × Line :=
  let r := recNext r
  ((s.recordOut r).setRecord r, r)

/-- An event of Keeper. -/
def State.keepEvent (s : State) (code : Nat) : State := s.raise (ev pKEEP code 1)

/-- Address of a slot's first line. -/
def State.slotAddr (s : State) (slot : BitVec 1) : Addr := s.keepStore + (if slot = 0 then 0x10000 else 0x50000)

/-- valid() of R568, with the heartbeats of R569 and the report of a failure. -/
def State.bootCheck (s : State) (r : Line) (img : List Line) : State × Bool :=
  let c := keepCheck img (recMinSvn r)
  let s := if s.flag (rLHSE 0x50) 28 then (List.range c.2).foldl (fun s _ => s.heartbeat) s else s
  if c.1 = 0 then (s, true) else (s.keepEvent 0x82, false)

/-- run() of R568. -/
def State.bootRun (s : State) (r : Line) (slot : BitVec 1) (img : List Line) (trial : Bool) : State :=
  let b := s.rd (rKEEP 0x44)
  let w : Word := 0#1 ++ ofBool trial ++ b.extractLsb' 29 1 ++ 1#1 ++ BitVec.ofNat 2 (recTries r slot) ++ 0#1 ++ slot ++ hVer (img.getD 0 0)
  { s.wr (rKEEP 0x44) w with keep := { s.keep with svn := hSvn (img.getD 0 0), jumpT := s.time } }

/-- No slot can be run (R570). -/
def State.recovery (s : State) : State := ((s.setBit (rKEEP 0x44) 31 true).setErr pKEEP 17).keepEvent 0x80

/-- FALLBACK (R576): this boot has emptied a PENDING slot. -/
def State.fallback (s : State) : State := (s.setBit (rKEEP 0x44) 29 true).setErr pKEEP 18

/-- An image of the store. -/
def KeeperStore.image (x : KeeperStore) (slot : BitVec 1) : List Line := if slot = 0 then x.slotA else x.slotB

/-- The last part of R568: a slot that is VERIFIED is confirmed and run. -/
def State.bootVerified (s : State) (r : Line) (x : KeeperStore) : State :=
  let c := slotIn r 4
  let go := fun (a : State × Bool) (slot : BitVec 1) =>
    if a.2 ∨ some slot = c ∨ recState r slot ≠ 2 then a
    else
      let k := a.1.bootCheck r (KeeperStore.image x slot)
      if k.2 then
        let r := recSet r slot 4 (recTries r slot)
        let r := match c with | some d => recSet r d 0 (recTries r d) | none => r
        let w := k.1.bootWrite r
        (w.1.bootRun w.2 slot (KeeperStore.image x slot) false, true)
      else (k.1, false)
  let a := ([0, 1] : List (BitVec 1)).foldl go (s, false)
  if a.2 then a.1 else a.1.recovery

/-- The middle part of R568: the CONFIRMED slot is run. -/
def State.bootConfirmed (s : State) (r : Line) (x : KeeperStore) : State :=
  match slotIn r 4 with
  | none => s.bootVerified r x
  | some c =>
    let k := s.bootCheck r (KeeperStore.image x c)
    if k.2 then k.1.bootRun r c (KeeperStore.image x c) false else k.1.bootVerified r x

/-- The first part of R568: a PENDING slot is tried. -/
def State.bootPending (s : State) (r : Line) (x : KeeperStore) : State :=
  match slotIn r 3 with
  | none => s.bootConfirmed r x
  | some p =>
    if recTries r p = 3 then
      let w := s.bootWrite (recSet r p 0 3)
      (w.1.fallback.keepEvent 0x81).bootConfirmed w.2 x
    else
      let w := s.bootWrite (recSet r p 3 (recTries r p + 1))
      let k := w.1.bootCheck w.2 (KeeperStore.image x p)
      if k.2 then k.1.bootRun w.2 p (KeeperStore.image x p) true
      else
        let v := k.1.bootWrite (recSet w.2 p 0 (recTries w.2 p))
        v.1.fallback.bootConfirmed v.2 x

/-- The current record (R567). -/
def currentRec (a b : Line) : Option Line :=
  if recOk a ∧ (!recOk b ∨ recSeq b < recSeq a) then some a else if recOk b then some b else none

/-- Keeper's page is in its reset state (R576). -/
def State.keepClear (s : State) : State :=
  { s with regs := s.regs.filter (fun (x : Nat × Word) => decide (x.1 / 0x1000 ≠ pKEEP) || decide (x.1 % 0x1000 = 0x1C)) }

/-- KEEPER_BOOT (R568): a boot that is due. -/
def execKeeperBoot (x : KeeperStore) (s : State) : Host.Outcome State Fault Refusal :=
  if !s.keep.bootDue ∨ !s.powered 20 then .next s
  else
    let s := { s with keep := ⟨false, none, 0, 0, none⟩ }.keepClear
    let s := if recOk x.rec0 then s else s.keepEvent 0x83
    let s := if recOk x.rec1 then s else s.keepEvent 0x83
    match currentRec x.rec0 x.rec1 with
    | none => .next s.recovery
    | some r => .next ((s.setRecord r).bootPending r x)

/-- Keeper restarts (R568, R572, R573): a mailbox command is cut short, and a boot is due. -/
def State.keepRestart (s : State) : State :=
  let s := s.orphan (fun w => match w with | .mbox _ => true | _ => false)
  let s := { s with keep := { s.keep with bootDue := true, cmd := none } }.keepClear
  s.bumpF (pageAddr pKEEP 0x1C) 16 16

/-- TRIAL_TIMEOUT (R572): a trial has lost its heartbeat or has lasted TRIAL_TIME. -/
def execTrialTimeout (s : State) : Host.Outcome State Fault Refusal :=
  if s.flag (rKEEP 0x44) 30 ∧ s.powered 20 ∧ !s.keep.bootDue ∧
      (s.flag (rLHSE 0x50) 27 ∨ s.num (rKEEP 0x54) 0 16 * 1000000 ≤ (s.time - s.keep.jumpT).toNat) then .next s.keepRestart
  else .next s

/-! ## The mailbox (R571) -/

/-- A mailbox command ends. -/
def State.mboxEnd (s : State) (err : BitVec 4) : State :=
  let s := { s with keep := { s.keep with cmd := none } }
  ((s.setBit (rKEEP 0x5C) 27 false).setF (rKEEP 0x5C) 20 err).cmdAdd (s.rd (rKEEP 0x6C))

/-- Set the command in progress. -/
def State.setMbox (s : State) (c : MboxCmd) : State := { s with keep := { s.keep with cmd := some c } }

/-- Write a changed record as the command's next step. -/
def State.mboxRecord (s : State) (c : MboxCmd) (r : Line) (step : Nat) : State :=
  (s.setMbox { c with step := step, newRec := recNext r }).recordOut (recNext r)

/-- The booted slot (R571). -/
def State.booted (s : State) : Option (BitVec 1) := if s.flag (rKEEP 0x44) 28 then some (s.fld (rKEEP 0x44) 24 1) else none

/-- The record that a command changes. In recovery without a valid copy the manual states none: SEQ and MIN_SVN are free values,
and both slots are EMPTY (log entry 31). -/
def State.baseRecord (s : State) : State × Line :=
  match s.keep.record with
  | some r => (s, r)
  | none => (s.used.used, Line.put (Line.put (Line.put (0 : Line) 0 0x53544154#32) 8 s.fresh) 0x14 (s.used.fresh.extractLsb' 0 32))

/-- LOAD's checks (R571). -/
def State.loadErr (s : State) (r : Line) (slot : BitVec 1) : Nat :=
  let n := (s.fld (rKEEP 0x68) 0 18).toNat
  let a := s.addrPair (rKEEP 0x60) 6
  if s.booted = some slot ∨ recState r slot = 3 ∨ recState r slot = 4 then 1
  else if n < 320 ∨ 196864 < n ∨ n % 64 ≠ 0 ∨ !s.isLocal a ∨ !s.isLocal (a + BitVec.ofNat 57 (n - 1)) then 2
  else 0

/-- Steps of a mailbox command: 1 LOAD's first record, 2 its source, 3 the slot's lines, 4 the header read back, 5 the body read
back, 6 the record that ends a command, 7 the header of the slot that CONFIRM replaces. -/
def State.mboxRun (s : State) (c : MboxCmd) : State :=
  let b := s.baseRecord
  let s := b.1
  let r := b.2
  match c.op.toNat with
  | 1 => if s.loadErr r c.slot ≠ 0 then s.mboxEnd (BitVec.ofNat 4 (s.loadErr r c.slot)) else s.mboxRecord c (recSet r c.slot 1 0) 1
  | 2 => if recState r c.slot = 2 ∧ (slotIn r 3).isNone then s.mboxRecord c (recSet r c.slot 3 0) 6 else s.mboxEnd 10
  | 3 => match s.booted with
    | some x =>
      if recState r x = 3 ∧ s.flag (rKEEP 0x44) 30 then
        match slotIn r 4 with
        | some d => (s.setMbox { c with step := 7, slot := x, missing := 1 }).read (s.slotAddr d) 1 (.mbox 1)
        | none => s.mboxRecord { c with slot := x } (Line.put (recSet r x 4 (recTries r x)) 0x14 s.keep.svn) 6
      else s.mboxEnd 10
    | none => s.mboxEnd 10
  | _ => if s.booted = some c.slot ∨ recState r c.slot = 4 then s.mboxEnd 1 else s.mboxRecord c (recSet r c.slot 0 0) 6

/-- A write of KEEP.MBOX_CMD with an assigned OP, whose SLOT has been stored. The running firmware serves it, or the ROM in
recovery; with neither it stays BUSY until a boot resets the page. -/
def State.mboxCmd (s : State) (op : BitVec 4) : State :=
  if s.flag (rKEEP 0x5C) 27 then s.setErr pKEEP 16
  else
    let c : MboxCmd := ⟨op, s.fld (rKEEP 0x5C) 0 1, 0, [], 0, 0, 0⟩
    let s := (s.setBit (rKEEP 0x5C) 27 true).setF (rKEEP 0x5C) 20 (0#4)
    if s.flag (rKEEP 0x44) 28 ∨ s.flag (rKEEP 0x44) 31 then (s.setMbox c).mboxRun c else s

/-- A LOAD that has failed after its first record writes EMPTY and ends with the error. -/
def State.loadFail (s : State) (c : MboxCmd) (code : BitVec 4) : State :=
  s.mboxRecord { c with code := code } (recSet (s.keep.record.getD 0) c.slot 0 0) 6

/-- Read lines of the store or of the source as the command's next step. -/
def State.mboxRead (s : State) (c : MboxCmd) (step : Nat) (a : Addr) (n : Nat) : State :=
  (s.setMbox { c with step := step, lines := c.lines ++ List.replicate n 0, missing := ceilDiv n 8 }).readLines a n (fun o => .mbox (c.lines.length + o))

/-- The image has been read back: the checks of R565, and the last record (R571). -/
def State.loadDone (s : State) (c : MboxCmd) : State :=
  let r := s.keep.record.getD 0
  let code := (keepCheck c.lines (recMinSvn r)).1
  if code ≠ 0 then s.loadFail c (BitVec.ofNat 4 code)
  else
    let r := recSet r c.slot 2 0
    s.mboxRecord c (Line.put r (0x18 + 4 * c.slot.toNat) ((hVer (c.lines.getD 0 0)).setWidth 32)) 6

/-- The record that ends a command is written. -/
def State.mboxFinish (s : State) (c : MboxCmd) : State :=
  let s := if c.op = 3 then s.setBit (rKEEP 0x44) 30 false else s
  let again := decide (c.op = 2) && s.flag (rKEEP 0x44) 31
  let s := s.mboxEnd c.code
  if again then { s with keep := { s.keep with bootDue := true } } else s

/-- A request of the mailbox command has been answered. -/
def State.mboxStep (s : State) (c : MboxCmd) (err : Bool) (off : Nat) (lines : List Line) : State :=
  let n := (s.fld (rKEEP 0x68) 0 18).toNat / 64
  match c.step with
  | 1 =>
    if err then s.mboxEnd 4
    else (s.setRecord c.newRec).mboxRead { c with lines := [] } 2 (s.addrPair (rKEEP 0x60) 6) n
  | 2 =>
    let c := { c with lines := setLines c.lines off lines, missing := c.missing - 1, code := if err then 3 else c.code }
    if c.missing ≠ 0 then s.setMbox c
    else if c.code ≠ 0 then s.loadFail c c.code
    else (s.setMbox { c with step := 3, missing := ceilDiv n 8 }).writeLines (s.slotAddr c.slot) c.lines (.mbox 1)
  | 3 =>
    let c := { c with missing := c.missing - 1, code := if err then 4 else c.code }
    if c.missing ≠ 0 then s.setMbox c
    else if c.code ≠ 0 then s.loadFail c c.code
    else s.mboxRead { c with lines := [] } 4 (s.slotAddr c.slot) 4
  | 4 =>
    let c := { c with lines := setLines c.lines off lines, missing := c.missing - 1 }
    if err then s.loadFail c 4
    else if !formatOk (c.lines.getD 0 0) then s.loadFail c 5
    else s.mboxRead c 5 (s.slotAddr c.slot + 256) (hLoad (c.lines.getD 0 0) / 64)
  | 5 =>
    let c := { c with lines := setLines c.lines off lines, missing := c.missing - 1, code := if err then 4 else c.code }
    if c.missing ≠ 0 then s.setMbox c
    else if c.code ≠ 0 then s.loadFail c c.code
    else s.loadDone c
  | 6 => if err then s.mboxEnd (if c.code = 0 then 4 else c.code) else (s.setRecord c.newRec).mboxFinish c
  | _ =>
    if err then s.mboxEnd 4
    else
      let r := s.keep.record.getD 0
      let r' := Line.put (recSet r c.slot 4 (recTries r c.slot)) 0x14 s.keep.svn
      let r' := match slotIn r 4 with
        | some d => recSet r' d (if s.keep.svn ≤ hSvn (lines.getD 0 0) then 2 else 0) (recTries r d)
        | none => r'
      s.mboxRecord c r' 6

/-- MBOX_CMD_DONE (R571): a request of Keeper is answered; the last one ends the mailbox command. -/
def execMboxCmdDone (write : Bool) (mtag : BitVec 8) (gen : BitVec 4) (err : Bool) (lines : List Line) (s : State) :
    Host.Outcome State Fault Refusal :=
  let r := s.answer (!write) mtag gen
  match r.2 with
  | none => .next r.1
  | some q => match q.why with
    | .mbox off =>
      if !write ∧ !err ∧ lines.length * 64 ≠ q.len then .fault .illFormed
      else match r.1.keep.cmd with
        | some c => .next (r.1.mboxStep c err off lines)
        | none => .next r.1
    | _ => .next s

end Sys2Proof.Machine
end

