-- ==== Sys2Proof/Machine/Debug.lean ====
section
/-! DEFINITION. Trace output and the Causeway links (spec/20_ports_and_signals.md R601 to R604, R613, R614). -/
namespace Sys2Proof.Machine

/-- TRACE_RECORD_OUT (R614): a record leaves the FIFO. -/
def execTraceRecordOut (s : State) : Host.Outcome State Fault Refusal :=
  match s.trace.fifo with
  | [] => .next s
  | _ :: rest =>
    if s.powered 31 then .next ({ s with trace := { s.trace with fifo := rest } }.bump (pageAddr pDBUG 0x48)) else .next s

/-- The ports of a link's die. -/
def State.linkPorts (s : State) (k : Nat) : List Nat := (List.range s.ecpCount).filter (fun n => s.linkOf (n / 16) = some k)

/-- Set a link's FDI state. -/
def State.setLink (s : State) (k : Nat) (on : Bool) : State := { s with cw := { s.cw with links := Tbl.set (fun _ => false) s.cw.links k on } }

/-- LINK_DOWN (R604): the link leaves Active; every serving port of the die does not respond. While PD28 is unpowered only the
link's state changes (R579). -/
def execLinkDown (link : BitVec 2) (s : State) : Host.Outcome State Fault Refusal :=
  let k := link.toNat
  if !s.linkOn k then .next s
  else
    let t := s.setLink k false
    if s.powered 28 then .next (((s.linkPorts k).filter (fun n => (s.port n).serves)).foldl (fun s n => s.notResponding n 0x4A) t)
    else .next t

/-- LINK_ACTIVE (R601, R602, R604): the link is Active; the engine reset of every port in RESETTING is sent, and its time counts
from now on. The RESET_DONE of each port is an ENGINE_RESET_ACK. -/
def execLinkActive (link : BitVec 2) (s : State) : Host.Outcome State Fault Refusal :=
  let k := link.toNat
  if s.linkOn k ∨ (s.linkPorts k).isEmpty then .next s
  else
    let s := (s.setLink k true).linkFresh k
    .next ((s.linkPorts k).foldl (fun s n =>
      if (s.port n).st = .resetting then (s.setPort n { s.port n with reqT := some s.time }).resetDown n else s) s)

end Sys2Proof.Machine
end

