-- ==== Sys2Proof/Machine/Views.lean ====
section
/-! DEFINITION. What reads return (spec/02_register_pages.md R40, R41, R43 to R48): the registers whose value is computed from
the units, the doorbell pages, the sync-object window and the debug views. -/
namespace Sys2Proof.Machine

/-- The out-of-service state (R515). -/
def State.oos (s : State) : Bool := s.flag (rCLKR 0x104) 30

/-- The pages that answer as usual in the out-of-service state (R515), with Beacon's, whose unit is not held in reset (log
entry 37). -/
def PageKind.servesOos : PageKind → Bool
  | .glbl | .clkr | .pwrc | .reef | .bcon | .lhse | .time | .intg => true
  | _ => false

/-- The unit of a page is powered (R43, R45, R515). -/
def State.unitOn (s : State) (k : PageKind) (inst : Nat) : Bool := s.powered (k.domain inst) && (!s.oos || k.servesOos)

/-- A soft reset of the page is under way (R44). -/
def State.srstBusy (s : State) (page : Nat) : Bool := s.flag (pageAddr page 0x0C) 1

/-- A thirty-two bit word of a wider value. -/
def wordOf {n : Nat} (x : BitVec n) (i : Nat) : Word := x.extractLsb' (32 * i) 32

/-- Bits from a test. -/
def bitsOf (w : Nat) (f : Nat → Bool) : BitVec w :=
  (List.range w).foldl (fun a i => if f i then a ||| (1#w <<< i) else a) 0#w

/-! ## The page header (R43, R48) -/

/-- PG_STAT. -/
def State.pgStat (s : State) (page : Nat) (k : PageKind) (inst : Nat) : Word :=
  let unit : BitVec 16 := match k with | .bcon => 0#8 ++ bitsOf 8 s.irqOut | _ => 0
  let en := k.fixedCtrl || s.pageEn page
  unit ++ 0#12 ++ ofBool (s.pageFault page) ++ ofBool (s.unitOn k inst) ++ ofBool (s.srstBusy page) ++ ofBool en

/-- A header register. -/
def State.headerRead (s : State) (page : Nat) (k : PageKind) (inst off : Nat) : Word :=
  match off with
  | 0x00 => BitVec.ofNat 16 k.typeCode ++ BitVec.ofNat 16 inst
  | 0x04 => 0x01000000
  | 0x08 => 1#1 ++ ofBool k.retained ++ 0#14 ++ (match k with | .bcon => 0x71FF#16 | _ => 0#16)
  | 0x0C => if k.fixedCtrl then 1 else s.rd (pageAddr page off)
  | 0x10 => s.pgStat page k inst
  | 0x1C => match k with
    | .eprt => s.eprtGen inst
    | _ => s.rd (pageAddr page off)
  | _ => s.rd (pageAddr page off)

/-! ## Units -/

/-- CLKR (R513, R514, R519, R561). -/
def State.clkrRead (s : State) (off : Nat) : Word :=
  if off = 0x50 then s.rd (rCLKR 0x50) ||| (if s.ratioOk then 0x10000000 else 0)
  else if off = 0x120 ∨ off = 0x124 then
    let x : Dword := match s.oldestLive (s.fld (rCLKR 0x11C) 0 4) with
      | some (k, e) => 1#1 ++ 0#3 ++ k.stream.setWidth 20 ++ e.ctx ++ BitVec.ofNat 16 (min 0xFFFF ((s.view / 65536 - e.tStart / 65536) / 1000))
      | none => 0
    wordOf x ((off - 0x120) / 4)
  else if off = 0x13C then BitVec.ofNat 32 (min 256 s.windowCount)
  else if 0x180 ≤ off ∧ off < 0x1C0 then
    (List.range 8).foldl (fun (a : Word) i =>
      let n := 2 * (off - 0x180) + i
      let x := s.port n
      let st : Nat := match x.st with | .offline => 0 | .inService => 1 | .draining => 2 | .resetting => 3 | .ready => 4 | .dead => 5
      let held : Bool := match s.portOwner n with | some p => s.portsLocked p | none => false
      if n < s.ecpCount then putBits a (4 * i) (ofBool (decide (x.defer ≠ 0) && held) ++ BitVec.ofNat 3 st) else a) 0
  else s.rd (rCLKR off)

/-- PWRC (R539). -/
def State.pwrcRead (s : State) (off : Nat) : Word :=
  match off with
  | 0x44 =>
    let st : Nat := match s.pwr.mode with | .active => 0 | .idle => 1 | .entering => 2 | .down => 2 | .waking => 3
    putBits (s.rd (rPWRC 0x44)) 0 (BitVec.ofNat 3 st)
  | 0x64 => bitsOf 32 (fun d => decide (d = 0) || (s.dom d).ack)
  | 0x68 => ofBool s.quiet ++ 0#25 ++ bitsOf 6 s.quietCond
  | _ => s.rd (rPWRC off)

/-- REEF (R475, R492). QUIET_LEFT counts started microseconds. -/
def State.reefRead (s : State) (off : Nat) : Word :=
  if off = 0x44 then
    let left := if s.quietHeld then s.reef.quietDur.toNat else s.reef.quietEnd.toNat - s.time.toNat
    (s.rd (rREEF 0x44) &&& 0x80000000) ||| (if s.quietHeld then 0x40000000 else 0) |||
      (if s.inFault then BitVec.ofNat 32 (min 0xFFFFF (ceilDiv left 1000)) else 0)
  else if 0x80 ≤ off ∧ off < 0xA0 then wordOf s.reef.fer ((off - 0x80) / 4)
  else if 0xA0 ≤ off ∧ off < 0xC0 then wordOf (Tbl.get (fun _ => 0#256) s.reef.hist (s.num (rREEF 0x5C) 0 5)) ((off - 0xA0) / 4)
  else s.rd (rREEF off)

/-- BCON (R443); a read of CLAIM is `State.claimRead`. -/
def State.bconRead (s : State) (off : Nat) : Word :=
  if 0xA0 ≤ off ∧ off < 0xC0 then
    let t := (off - 0xA0) / 4
    ofBool (s.holds t).isSome ++ ofBool (s.topSource t).isSome ++ 0#20 ++ BitVec.ofNat 10 ((s.holds t).getD 0x3FF)
  else if off = 0x180 then bitsOf 32 s.holdRuns
  else if 0x240 ≤ off ∧ off < 0x280 then bitsOf 32 (fun i => s.srcPending (8 * (off - 0x240) + i))
  else if 0x280 ≤ off ∧ off < 0x2C0 then bitsOf 32 (fun i => s.srcClaimed (8 * (off - 0x280) + i))
  else s.rd (rBCON off)

/-- LHSE.STAT (R487, R493). -/
def State.lhseRead (s : State) (off : Nat) : Word :=
  if off = 0x50 then
    let drained := s.disp.cmds.all (fun c => decide (c.stage = .queued)) && s.land.queue.isEmpty
    let mode : BitVec 2 := match s.lhse.mode with | .run => 0 | .paused => 1 | .halted => 2
    (s.rd (rLHSE 0x50) &&& 0x3C000000) |||
      (ofBool s.lhse.aliveOn ++ ofBool s.lhse.alive ++ 0#4 ++ ofBool drained ++ ofBool s.lhse.a ++ ofBool s.lhse.b ++ mode ++ 0#5 ++
        BitVec.ofNat 16 (min 0xFFFF s.lhse.disc))
  else s.rd (rLHSE off)

/-- A stream's STATUS as DB.STATUS and FETCH.STREAM_STAT show it (R124, R142). -/
def State.pausedNow (s : State) (n : BitVec 14) : Bool :=
  decide ((s.stream n).st = .paused) || (decide ((s.stream n).st = .blocked) && (s.stream n).pause)

/-- FTCH pages; `inst` picks the four channels (R137). -/
def State.ftchRead (s : State) (inst off : Nat) : Word :=
  let n : BitVec 14 := s.fld (pageAddr pFTCH 0x40) 0 14
  let x := s.stream n
  if 0x70 ≤ off ∧ off < 0x80 then
    match Tbl.get (fun _ => none) s.fetch.chans (4 * inst + (off - 0x70) / 4) with
    | some m => 1#1 ++ 0#11 ++ (m.setWidth 20)
    | none => 0
  else match off with
    | 0x44 => x.ringBase.extractLsb' 0 20 ++ 0#12
    | 0x48 => 0#7 ++ x.ringBase.extractLsb' 20 25
    | 0x4C => x.log2.setWidth 32
    | 0x50 => x.timeoutUs
    | 0x54 => 0#15 ++ x.startPhase ++ x.startPos
    | 0x58 => 0#31 ++ ofBool x.ctrlEn
    | 0x5C => x.faultCode ++ BitVec.ofNat 4 x.st.code ++ ofBool (s.pausedNow n) ++ x.phase ++ 0#2 ++ x.cons
    | _ => s.rd (pageAddr pFTCH off)

/-- FERY (R195): 0x4C to 0x68 are those of the selected partition. -/
def State.feryRead (s : State) (off : Nat) : Word :=
  if 0x4C ≤ off ∧ off ≤ 0x68 then s.rd (rFERYp (s.fld (pageAddr pFERY 0x48) 0 4) off)
  else if off = 0x74 then 0#7 ++ BitVec.ofNat 9 s.ferry.pins.length ++ 0#5 ++ BitVec.ofNat 11 s.pinLines
  else s.rd (pageAddr pFERY off)

/-- SHOL (R360, R365); the Tide registers are kept as words. -/
def State.sholRead (s : State) (off : Nat) : Word :=
  if off = 0x80 then BitVec.ofNat 32 s.waysUsed
  else if off = 0x84 then BitVec.ofNat 32 s.idxUsed
  else if 0x340 ≤ off ∧ off < 0x380 then
    let p := (off - 0x340) / 4
    let ws := s.shoal.wins.filter (fun w => decide (w.part.toNat = p))
    let st := match (ws.filter (fun w => !w.alone)).getLast? with | some w => w.st.code | none => 0
    let op := s.openWin (BitVec.ofNat 4 p)
    BitVec.ofNat 3 st ++ BitVec.ofNat 5 ws.length ++ BitVec.ofNat 8 ((op.map (·.members.length)).getD 0) ++ 0#2 ++
      BitVec.ofNat 14 ((op.map Win.indices).getD 0)
  else s.rd (rSHOL off)

/-- SYNC (R276); 0x64 to 0x6C are those of the selected mirror entry. -/
def State.syncRead (s : State) (off : Nat) : Word :=
  let ws := s.sync.objs.flatMap (fun (x : Nat × SyncObj) => x.2.waiters.filter (fun w => !w.void))
  let ops := (ws.filter (fun w => match w.who with | .op _ _ => true | .pair _ _ => false)).length
  let parked := (s.allEntries.filter (fun x => decide (x.2.stage = .parked))).length
  if 0x64 ≤ off ∧ off ≤ 0x6C then s.rd (bankKey (s.num (rSYNC 0x60) 0 10) (rSYNC off))
  else match off with
    | 0x4C => 0#7 ++ BitVec.ofNat 9 (s.sync.watches.filter (fun (x : Nat × Watch) => x.2.held.isSome)).length ++ 0#6 ++ BitVec.ofNat 10 s.sync.polls.length
    | 0x50 => BitVec.ofNat 32 s.sync.pollQ.length
    | 0x54 => 0#4 ++ BitVec.ofNat 12 ops ++ 0#1 ++ BitVec.ofNat 15 parked
    | 0x58 => ofBool (!s.sync.passes.isEmpty) ++ BitVec.ofNat 31 (s.sync.passes.length - 1)
    | _ => s.rd (rSYNC off)

/-- DISP (R333). -/
def State.dispRead (s : State) (off : Nat) : Word :=
  if 0xC0 ≤ off ∧ off < 0xE0 then
    let g := (off - 0xC0) / 4
    let q := s.groupQueue g
    ofBool s.dispHalted ++ 0#7 ++ BitVec.ofNat 8 (min 255 (s.groupCands g).length) ++ 0#4 ++
      BitVec.ofNat 4 (min 8 (q.filter (·.aged)).length) ++ 0#1 ++ BitVec.ofNat 7 q.length
  else if off = 0x114 then 0#23 ++ ofBool s.dispHalted ++ bitsOf 8 (fun g => !(s.groupQueue g).isEmpty)
  else s.rd (rDISP off)

/-- AUDT (R428, R464, R466). -/
def State.audtRead (s : State) (off : Nat) : Word :=
  if off = 0x4C then 0#7 ++ BitVec.ofNat 9 (s.land.fev.filter s.fevPinned).length ++ 0#5 ++ BitVec.ofNat 11 s.land.queue.length
  else if 0x2C0 ≤ off ∧ off < 0x300 then enginesOf (s.placesOf (BitVec.ofNat 4 ((off - 0x2C0) / 4)))
  else s.rd (rAUDT off)

/-- SCAL (R402): 0x44 to 0x78 are those of the selected entry. -/
def State.scalRead (s : State) (off : Nat) : Word :=
  let x := s.scaleE (s.num (rSCAL 0x40) 0 14)
  if 0x50 ≤ off ∧ off < 0x70 then x.hist.getD ((off - 0x50) / 4) 0
  else match off with
    | 0x44 => 0#13 ++ x.k ++ 0#10 ++ x.fmt
    | 0x4C => x.clip ++ ofBool x.poison ++ ofBool x.nonfin ++ 0#2 ++ BitVec.ofNat 4 x.steps ++ 0#4 ++ x.scale
    | 0x70 => x.curMax
    | 0x74 => x.curClips
    | 0x78 => x.curElems
    | _ => s.rd (rSCAL off)

/-- PART (R65, R70). -/
def State.partRead (s : State) (p : BitVec 4) (off : Nat) : Word :=
  match off with
  | 0x4C => putBits (s.rd (rPART p off)) 16 (BitVec.ofNat 7 (s.resident p))
  | 0x74 => putBits (s.rd (rPART p off)) 16 (BitVec.ofNat 16 (s.allEntries.filter (fun x => decide (x.2.part = p) && x.2.running)).length)
  | _ => s.rd (rPART p off)

/-- A program directory entry (R231). -/
def Prog.bits (x : Prog) : BitVec 128 :=
  BitVec.ofNat 32 x.off ++ (ofBool x.valid ++ ofBool x.lock ++ 0#4 ++ x.key.part ++ 0#10 ++ BitVec.ofNat 10 x.key.lines) ++ (0#7 ++ x.key.addr.extractLsb' 6 51 ++ 0#6)

/-- SKRY (R227, R231, R239). -/
def State.skryRead (s : State) (c : BitVec 4) (off : Nat) : Word :=
  let t : BitVec 3 := s.fld (rSKRY c 0x6C) 0 3
  let th := s.thread c t
  let co := s.core c
  let progs := fun (b : BitVec 1) => ((co.bank b).progs.filter (·.valid)).length
  if 0x100 ≤ off ∧ off < 0x200 then
    (if th.st = .brk ∨ th.st = .quiesced then wordOf (th.reg ((off - 0x100) / 8)) ((off - 0x100) % 8 / 4) else 0)
  else if 0x200 ≤ off ∧ off < 0x400 then
    match (co.bank (BitVec.ofNat 1 ((off - 0x200) / 0x100))).progs[(off - 0x200) % 0x100 / 16]? with
    | some x => wordOf x.bits (off % 16 / 4)
    | none => 0
  else match off with
    | 0x44 =>
      ofBool co.load.isSome ++ 0#2 ++ BitVec.ofNat 5 (progs (~~~co.active)) ++ 0#3 ++ BitVec.ofNat 5 (progs co.active) ++
        BitVec.ofNat 4 (co.pins (~~~co.active)) ++ BitVec.ofNat 4 (co.pins co.active) ++ 0#7 ++ co.active
    | 0x48 => 0#7 ++ BitVec.ofNat 9 (320 - s.poolUsed c) ++ 0#12 ++ BitVec.ofNat 4 co.freeThreads
    | 0x74 => s.thrStat c t
    | 0x78 => s.thrStream c t
    | 0x7C => s.thrOps c t
    | 0x80 => wordOf th.progress 0
    | 0x84 => wordOf th.progress 1
    | 0x88 => th.retired
    | _ => s.rd (rSKRY c off)

/-! ## Pages and windows -/

/-- A register word of an assigned page slot (R41, R44, R48), side effects apart. -/
def State.wordRead (s : State) (page : Nat) (k : PageKind) (inst off : Nat) : Word :=
  if k = .eprt ∧ s.ecpCount ≤ inst then (if off = 0 then s.headerRead page k inst 0 else 0)
  else if off < 0x40 then s.headerRead page k inst off
  else if s.srstBusy page ∨ (k.spec off).isNone then 0
  else match k with
    | .glbl =>
      if off = 0x6C then BitVec.ofNat 32 s.ecpCount
      else if off = 0x70 then 0#29 ++ ofBool s.oos ++ ofBool (s.flag (pageAddr pINTG 0x5C) 31) ++ ofBool (s.flag (pageAddr page off) 0)
      else s.rd (pageAddr page off)
    | .clkr => s.clkrRead off
    | .pwrc => s.pwrcRead off
    | .reef => s.reefRead off
    | .bcon => s.bconRead off
    | .lhse => s.lhseRead off
    | .time => if off = 0x40 ∨ off = 0x44 then wordOf s.time ((off - 0x40) / 4) else s.rd (pageAddr page off)
    | .ftch => s.ftchRead 0 off
    | .ftchRest => s.ftchRead inst off
    | .fery => s.feryRead off
    | .shol => s.sholRead off
    | .sync => s.syncRead off
    | .disp => s.dispRead off
    | .audt => s.audtRead off
    | .scal => s.scalRead off
    | .intg => if off = 0x60 then BitVec.ofNat 32 (ceilDiv (s.num (pageAddr pINTG 0x44) 0 16 * s.cclkMhz) 1000) else s.rd (pageAddr page off)
    | .part => s.partRead (BitVec.ofNat 4 inst) off
    | .eprt => s.eprtWord inst off
    | .skry => s.skryRead (BitVec.ofNat 4 inst) off
    | .keep | .ferySlices | .feryRest | .harb | .dbug => s.rd (pageAddr page off)

/-- A doorbell page (R124). -/
def State.dbRead (s : State) (f : BitVec 12) (off : Nat) : Dword :=
  let n := streamOf f (BitVec.ofNat 2 (off % 0x20 / 8))
  let x := s.stream n
  if 0x20 ≤ off ∧ off < 0x40 then (0#63 ++ ofBool x.pause : Dword)
  else if 0x40 ≤ off ∧ off < 0x60 then
    x.inflight ++ x.faultCode ++ BitVec.ofNat 4 x.st.code ++ ofBool (s.pausedNow n) ++ x.phase ++ ofBool (decide (x.st ≠ .disabled)) ++ x.fetchPos ++ x.cons
  else if 0x60 ≤ off ∧ off < 0x80 then x.dbCount.setWidth 64
  else 0

/-- The sync-object window (R269). -/
def State.soRead (s : State) (n off : Nat) : Dword :=
  let o := s.obj n
  match off with
  | 0x00 => if o.poison then 0 else o.value
  | 0x10 => ofBool o.poison ++ ofBool o.flagged ++ ofBool (s.mirrorOf n).isSome ++ 0#46 ++ BitVec.ofNat 15 (o.waiters.filter (fun w => !w.void)).length
  | 0x18 => o.minWait
  | _ => 0

/-- The debug views of the stream table and of Harbour (R88, R140). -/
def State.debugRead (s : State) (a : Nat) : Dword :=
  if a < 0x3100000 then Line.w64 (s.streamLine (BitVec.ofNat 14 ((a - 0x3000000) / 64))) (a % 64)
  else
    let off := a % 0x1000
    Line.w64 ((s.slot ((a - 0x3100000) / 0x1000)).lines.getD (off / 64) 0) (off % 64)

end Sys2Proof.Machine
end

