-- ==== Sys2Proof/Machine/Writes.lean ====
section
/-! DEFINITION. Writes of registers (spec/02_register_pages.md R41 to R45, R57, R62, R631, R632, and the register tables of the
units' chapters): what refuses a write, what is stored, and what the write starts. A refused write has no effect but the bits of
PG_ERR that report it: that of the rule that refuses it, and RO_WRITE for a 1 on a RO or RSV bit (log entry 32). -/
namespace Sys2Proof.Machine

/-- Every partition. -/
def allParts : List (BitVec 4) := (List.range 16).map (BitVec.ofNat 4)

/-! ## What refuses a write -/

/-- An identifier field holds a 1 above its used bits (R62). FETCH.STREAM_SEL and FERRY.PART_SEL refuse a 1 anywhere above them
(R138, R195); CLKR.RST_CMD.TARGET names a port for OP 3 to 6 (R510). A Tide object outside the partition's range is refused by R307's
own rule. -/
def idBad (k : PageKind) (off : Nat) (v : Word) : Bool :=
  let so := decide (v.extractLsb' 14 6 ≠ 0#6)
  let part := decide (v.extractLsb' 4 2 ≠ 0#2)
  let op := (v.extractLsb' 28 4).toNat
  match k with
  | .ftch => decide (off = 0x40) && decide (v.extractLsb' 14 18 ≠ 0#18)
  | .fery => decide (off = 0x48) && decide (v.extractLsb' 4 28 ≠ 0#28) || decide (off = 0x64) && so
  | .part => decide (off = 0x80) && so
  | .clkr => decide (off = 0x100) && decide (3 ≤ op) && decide (op ≤ 6) && decide (v.extractLsb' 7 3 ≠ 0#3)
  | .shol => decide (off = 0x88) && part
  | .audt => decide (off = 0x210) && part || decide (off = 0x224) && so
  | .skry => decide (off = 0x4C) && part
  | .sync => decide (off = 0x64) && so
  | .keep => decide (off = 0x6C) && so
  | _ => false

/-- A field lies outside its range. -/
def RegSpec.rangeBad (r : RegSpec) (v : Word) : Bool :=
  r.rng.any (fun (x : Nat × Nat × Nat × Nat) =>
    let f := v.toNat / 2 ^ x.1 % 2 ^ x.2.1
    decide (f < x.2.2.1) || decide (x.2.2.2 < f))

/-- The bit of PG_ERR that a value outside its range sets. -/
def rangeErr (k : PageKind) (off : Nat) : Nat :=
  match k with
  | .fery => if off = 0x40 then 16 else roWrite
  | .ftch | .sync => 17
  | .shol | .disp | .scal | .time => 16
  | .skry => 19
  | _ => roWrite

/-- The greatest OP that a command register assigns, 0 for any other register (R631). -/
def cmdMax (k : PageKind) (off : Nat) : Nat :=
  match k with
  | .part => if off = 0x78 then 4 else 0
  | .fery => if off = 0x58 then 4 else 0
  | .skry => if off = 0x4C then 2 else if off = 0x70 then 3 else 0
  | .sync => if off = 0x70 then 3 else 0
  | .shol => if off = 0x88 then 1 else 0
  | .audt => if off = 0x48 ∨ off = 0x200 then 3 else if off = 0x210 then 4 else 0
  | .clkr => if off = 0x100 then 6 else 0
  | .pwrc => if off = 0x40 then 2 else 0
  | .keep => if off = 0x5C then 4 else 0
  | .reef => if off = 0xD0 then 1 else 0
  | _ => 0

/-- The bit of PG_ERR that an assigned OP sets while BUSY. -/
def cmdBusyErr (k : PageKind) (off : Nat) : Nat :=
  match k with
  | .part => 20
  | .fery | .shol => 18
  | .skry => 17
  | .sync => 20
  | .audt => if off = 0x48 then 19 else if off = 0x200 then 22 else 21
  | .clkr => 27
  | _ => 16

/-- The stored word of a register: 0x4C to 0x68 of FERY belong to the selected partition, 0x64 to 0x6C of SYNC to the selected
mirror entry. -/
def State.regKey (s : State) (page : Nat) (k : PageKind) (off : Nat) : Nat :=
  match k with
  | .fery => if 0x4C ≤ off ∧ off ≤ 0x68 then rFERYp (s.fld (pageAddr pFERY 0x48) 0 4) off else pageAddr page off
  | .sync => if 0x64 ≤ off ∧ off ≤ 0x6C then bankKey (s.num (rSYNC 0x60) 0 10) (rSYNC off) else pageAddr page off
  | _ => pageAddr page off

/-- The writable bits of a register; in a per-source register of Beacon the bits of reserved sources are RSV (R443). -/
def RegSpec.writable (r : RegSpec) (k : PageKind) (off : Nat) : Word :=
  let m := r.rw ||| r.w1c ||| r.w1s ||| r.wo
  match k with
  | .bcon =>
    if 0x200 ≤ off ∧ off < 0x240 then m &&& bitsOf 32 (fun i => srcAssigned (8 * (off - 0x200) + i))
    else if 0x400 ≤ off then (if srcAssigned ((off - 0x400) / 4) then m else 0)
    else m
  | _ => m

/-- A range [base, base + count) meets another. -/
def meets (b n b' n' : Nat) : Bool := decide (0 < n) && decide (0 < n') && decide (b < b' + n') && decide (b' < b + n)

/-- PART.FUNC_RANGE and SO_RANGE of a partition. -/
def State.funcRange (s : State) (p : BitVec 4) : Nat × Nat := (s.num (rPART p 0x44) 0 12, s.num (rPART p 0x44) 16 13)
def State.soRange (s : State) (p : BitVec 4) : Nat × Nat := (s.num (rPART p 0x48) 0 14, s.num (rPART p 0x48) 16 15)

/-- PART.FUNC_RANGE of a partition may take a value (R64). -/
def State.funcRangeOk (s : State) (p : BitVec 4) (v : Word) : Bool :=
  let b := (v.extractLsb' 0 12).toNat
  let n := (v.extractLsb' 16 13).toNat
  decide (b + n ≤ 4096) && allParts.all (fun q => decide (q = p) || !meets b n (s.funcRange q).1 (s.funcRange q).2)

/-- PART.SO_RANGE (R64). -/
def State.soRangeOk (s : State) (p : BitVec 4) (v : Word) : Bool :=
  let b := (v.extractLsb' 0 14).toNat
  let n := (v.extractLsb' 16 15).toNat
  decide (b + n ≤ 16384) && allParts.all (fun q => decide (q = p) || !meets b n (s.soRange q).1 (s.soRange q).2)

/-- PART.PORT_MASK0 to PORT_MASK3 (R64). -/
def State.portMaskOk (s : State) (p : BitVec 4) (off : Nat) (v : Word) : Bool :=
  (List.range 32).all (fun i => !bit v i || decide (8 * (off - 0x50) + i < s.ecpCount)) &&
    allParts.all (fun q => decide (q = p) || decide (v &&& s.rd (rPART q off) = 0))

/-- PART.HARB_QUOTA.MIN (R65). -/
def State.quotaOk (s : State) (p : BitVec 4) (v : Word) : Bool :=
  decide (((allParts.filter (· ≠ p)).map s.quotaMin).foldl (· + ·) 0 + (v.extractLsb' 0 7).toNat ≤ 64)

/-- A partition configuration register that is written only while the partition is disabled (R63). -/
def partConfig (off : Nat) : Bool := [0x44, 0x48, 0x50, 0x54, 0x58, 0x5C, 0x60, 0x64, 0x68, 0x6C].contains off

/-- PART.PG_CTRL.EN. -/
def State.enabled (s : State) (p : BitVec 4) : Bool := s.pageEn (pPART p)

/-- The other word of a 64-bit write of registers: its offset and value (R37). -/
abbrev Mate := Option (Nat × Word)

/-- A register word as a write of it, or of the pair that it belongs to, would leave it. -/
def withMate (m : Mate) (off : Nat) (old : Word) : Word := match m with | some (o, w) => if o = off then w else old | none => old

/-- The selected values of DISP stay in order: AHEAD_LIMIT does not rise with the class, EQ_RESERVE does not fall (R312, R317).
Both words of a 64-bit write count, since they are written together (R37). -/
def State.dispOrderOk (s : State) (off : Nat) (v : Word) (m : Mate) : Bool :=
  let x := fun (o : Nat) => (if o = off then v else withMate m o (s.rd (rDISP o))).toNat % (if o ≤ 0x60 then 64 else 128)
  if 0x54 ≤ off ∧ off ≤ 0x60 then decide (x 0x58 ≤ x 0x54) && decide (x 0x5C ≤ x 0x58) && decide (x 0x60 ≤ x 0x5C)
  else if 0x64 ≤ off ∧ off ≤ 0x70 then decide (x 0x64 ≤ x 0x68) && decide (x 0x68 ≤ x 0x6C) && decide (x 0x6C ≤ x 0x70)
  else true

/-- Range of an INTEG declaration (R56). -/
def integRange : Nat → Option (Nat × Nat)
  | 0x44 => some (1, 65535)
  | 0x48 => some (1, 1048575)
  | 0x4C => some (1, 16777215)
  | 0x50 => some (0, 4095)
  | 0x54 => some (100, 2000)
  | 0x58 => some (500, 2000)
  | _ => none

/-- The width of an INTEG declaration's field. -/
def integWidth : Nat → Nat
  | 0x44 => 16 | 0x48 => 20 | 0x4C => 24 | _ => 12

/-- What refuses a write of an INTEG declaration: LOCK before the value (R57). -/
def State.integBad (s : State) (off : Nat) (v : Word) : Option Nat :=
  match integRange off with
  | none => none
  | some (lo, hi) =>
    let f := v.toNat % 2 ^ integWidth off
    if s.flag (pageAddr pINTG 0x40) 0 ∧ off < 0x54 then some 16
    else if f < lo ∨ hi < f then some 17
    else none

/-- A Shoal register written only while its partition is disabled, and that partition (R365). -/
def sholConfig (off : Nat) : Option (BitVec 4) :=
  if 0x100 ≤ off ∧ off < 0x300 ∧ 8 ≤ off % 0x20 then some (BitVec.ofNat 4 ((off - 0x100) / 0x20))
  else if 0x400 ≤ off ∧ off < 0x500 then some (BitVec.ofNat 4 ((off - 0x400) / 0x10))
  else none

/-- The state of a unit refuses any write of a register: the bit of PG_ERR that it sets. -/
def State.shut (s : State) (k : PageKind) (inst off : Nat) (v : Word) : Option Nat :=
  let p : BitVec 4 := BitVec.ofNat 4 inst
  match k with
  | .part => if partConfig off ∧ s.enabled p then some 16 else none
  | .ftch =>
    if (off = 0x44 ∨ off = 0x48 ∨ off = 0x4C ∨ off = 0x54) ∧ (s.stream (s.fld (pageAddr pFTCH 0x40) 0 14)).ctrlEn then some 16 else none
  | .fery =>
    if 0x4C ≤ off ∧ off ≤ 0x54 ∧ s.enabled (s.fld (pageAddr pFERY 0x48) 0 4) then some 17
    else if (off = 0x6C ∨ off = 0x70) ∧ s.anyStreamOn then some 17
    else none
  | .skry => if 0x100 ≤ off ∧ (s.thread p (s.fld (rSKRY p 0x6C) 0 3)).st ≠ .brk then some 19 else none
  | .sync => if (off = 0x68 ∨ off = 0x6C) ∧ bit (s.mirrorObj (s.num (rSYNC 0x60) 0 10)) 31 then some 17 else none
  | .shol => match sholConfig off with | some q => if s.enabled q then some 17 else none | none => none
  | .eprt => match s.portOwner inst with | some q => if off = 0x40 ∧ s.enabled q then some 16 else none | none => none
  | .audt =>
    let q := fun (b : Nat) => s.enabled (BitVec.ofNat 4 ((off - b) / 0x10))
    let moved := fun (m : Word) => decide ((v ^^^ s.rd (rAUDT off)) &&& m ≠ 0)
    if off = 0x40 ∨ off = 0x44 then (if s.anyStreamOn then some 20 else none)
    else if 0x100 ≤ off ∧ off < 0x200 ∧ q 0x100 then
      (if off % 0x10 ≤ 8 then some 20 else none)
    else if 0x400 ≤ off ∧ off < 0x500 ∧ q 0x400 then some 20
    else if 0x500 ≤ off ∧ off < 0x600 ∧ q 0x500 then
      (if off % 0x10 < 8 ∨ off % 0x10 = 8 ∧ moved 0x1F then some 20 else none)
    else if 0x280 ≤ off ∧ off < 0x2C0 ∧ s.num rRSTAT 30 2 ≠ 0 ∧ moved 0xC0000000 then some 22
    else none
  | .clkr => if (off = 0x40 ∨ (0x44 ≤ off ∧ off ≤ 0x4C)) ∧ s.alignState ≠ 0 then some 18 else none
  | _ => none

/-- A unit's own rule refuses a value of a register: the bit of PG_ERR that it sets; `m` is the other word of a 64-bit write. -/
def State.valueBad (s : State) (k : PageKind) (inst off : Nat) (v : Word) (m : Mate) : Option Nat :=
  let p : BitVec 4 := BitVec.ofNat 4 inst
  match k with
  | .part =>
    if (off = 0x44 ∧ !s.funcRangeOk p v) ∨ (off = 0x48 ∧ !s.soRangeOk p v) ∨ (0x50 ≤ off ∧ off ≤ 0x5C ∧ !s.portMaskOk p off v) then some 17
    else if off = 0x4C ∧ !s.quotaOk p v then some 18
    else none
  | .shol =>
    if 0x100 ≤ off ∧ off < 0x300 ∧ off % 0x20 < 8 then
      let q : BitVec 4 := BitVec.ofNat 4 ((off - 0x100) / 0x20)
      let base := off - off % 0x20
      let time := if off % 0x20 = 0 then v else withMate m base (s.rd (rSHOLp q 0))
      let cfg := if off % 0x20 = 4 then v else withMate m (base + 4) (s.rd (rSHOLp q 4))
      if s.winTooShort time cfg then some 16 else none
    else if 0x800 ≤ off ∧ off < 0xA00 ∧ off % 0x20 = 0x10 ∧ !s.soIn (BitVec.ofNat 4 ((off - 0x800) / 0x20)) (v.extractLsb' 0 20).toNat then some 24
    else none
  | .disp => if s.dispOrderOk off v m then none else some 16
  | .scal => if off = 0x48 ∧ v.extractLsb' 4 8 = 0#8 then some 16 else none
  | .clkr => if off = 0x134 ∧ (v.extractLsb' 0 17).toNat % 64 ≠ 0 then some roWrite else none
  | .keep => if off = 0x50 ∧ s.num (rLHSE 0x48) 0 20 ≤ (v.extractLsb' 0 20).toNat then some roWrite else none
  | .reef => if off = 0xD0 ∧ v.extractLsb' 28 4 = 1#4 ∧ 5 < (v.extractLsb' 0 3).toNat then some roWrite else none
  | _ => none

/-- What refuses a write of a functional register, in this order (log entry 32): the unit's state, LOCK before the value on the INTG
page (R57), an identifier, a field's range, the unit's rule for the value. -/
def State.refuses (s : State) (k : PageKind) (inst off : Nat) (r : RegSpec) (v : Word) (m : Mate) : Option Nat :=
  match s.shut k inst off v with
  | some b => some b
  | none =>
    if k = .intg then s.integBad off v
    else if idBad k off v then some roWrite
    else if r.rangeBad v then some (rangeErr k off)
    else s.valueBad k inst off v m

/-! ## What a write stores -/

/-- A register word after a write (R41). -/
def RegSpec.store (r : RegSpec) (m old v : Word) : Word :=
  (((old &&& ~~~(r.rw &&& m)) ||| (v &&& r.rw &&& m)) ||| (v &&& r.w1s &&& m)) &&& ~~~(v &&& r.w1c &&& m)

/-- The registers of FTCH that belong to the selected stream (R137). -/
def State.ftchStore (s : State) (off : Nat) (v : Word) : State :=
  let n : BitVec 14 := s.fld (pageAddr pFTCH 0x40) 0 14
  s.updStream n (fun x =>
    match off with
    | 0x44 => { x with ringBase := x.ringBase.extractLsb' 20 25 ++ v.extractLsb' 12 20 }
    | 0x48 => { x with ringBase := v.extractLsb' 0 25 ++ x.ringBase.extractLsb' 0 20 }
    | 0x4C => { x with log2 := v.extractLsb' 0 5 }
    | 0x50 => { x with timeoutUs := v }
    | 0x54 => { x with startPhase := v.extractLsb' 16 1, startPos := v.extractLsb' 0 16 }
    | _ => x)

/-- SKRY.THR_X: one word of a register of the selected thread, which is in BREAK (R239). A long instruction that is partly done will
start again from its first step (R225). -/
def State.thrXStore (s : State) (c : BitVec 4) (off : Nat) (v : Word) : State :=
  let t : BitVec 3 := s.fld (rSKRY c 0x6C) 0 3
  let n := (off - 0x100) / 8
  let s := s.setThread c t { s.thread c t with progress := 0, counted := false, patched := false }
  s.setReg c t n (putBits ((s.thread c t).reg n) (32 * ((off - 0x100) % 8 / 4)) v)

/-- Store a written word where the register is kept. -/
def State.regStore (s : State) (page : Nat) (k : PageKind) (inst off : Nat) (r : RegSpec) (v : Word) : State :=
  let key := s.regKey page k off
  let plain := s.wr key (r.store (r.writable k off) (s.rd key) v)
  match k with
  | .ftch => if 0x44 ≤ off ∧ off ≤ 0x5C then s.ftchStore off v else plain
  | .scal =>
    if off = 0x44 then s.scalCfg v
    else if off = 0x4C then
      let n := s.num (rSCAL 0x40) 0 14
      (if bit v 22 then s.setScale n { s.scaleE n with nonfin := false } else s)
    else if 0x44 ≤ off ∧ off ≤ 0x78 then s
    else plain
  | .skry => if 0x100 ≤ off then s.thrXStore (BitVec.ofNat 4 inst) off v else plain
  | .sync => if off = 0x64 then s else plain
  | _ => plain

/-! ## What a write starts -/

/-- GLBL.IF_NEGOTIATE (R53). -/
def State.negotiate (s : State) (major minor : BitVec 8) : State :=
  let cap : BitVec 8 := s.fld (pageAddr pGLBL 0x44) 0 8
  let capMajor : BitVec 8 := s.fld (pageAddr pGLBL 0x44) 8 8
  if s.anyStreamOn then s.setErr pGLBL 16
  else if major = capMajor then s.wr (pageAddr pGLBL 0x4C) (1#1 ++ 0#15 ++ capMajor ++ (if minor < cap then minor else cap))
  else s.wr (pageAddr pGLBL 0x4C) (0#1 ++ 1#1 ++ 0#14 ++ capMajor ++ 0#8)

/-- An accepted write of an INTEG declaration (R56). -/
def State.declared (s : State) (off : Nat) : State :=
  let key := pageAddr pINTG 0x5C
  let s := s.setBit key ((off - 0x44) / 4) true
  if s.fld key 0 6 = 0x3F#6 then s.setBit key 31 true else s

/-- A partition's entry of the partition map as its registers give it (R480). -/
def State.pmapWord (s : State) (p : BitVec 4) : BitVec 256 :=
  let f := s.rd (rPART p 0x44)
  let o := s.rd (rPART p 0x48)
  let m := fun (j : Nat) => s.rd (rPART p (0x50 + 4 * j))
  (m 3 ++ m 2 ++ m 1 ++ m 0) ++ 0#48 ++ ofBool (s.enabled p) ++ (s.rd (rPART p 0x4C)).extractLsb' 0 7 ++
    0#5 ++ o.extractLsb' 16 15 ++ 0#6 ++ o.extractLsb' 0 14 ++ 0#3 ++ f.extractLsb' 16 13 ++ 0#4 ++ f.extractLsb' 0 12

/-- Both copies of a partition's entry follow its registers. -/
def State.pmapWrite (s : State) (p : BitVec 4) : State := s.setPmap p (s.pmapWord p)

/-- Numbers of a range. -/
def numbers (b n : Nat) : List Nat := (List.range n).map (b + ·)

/-- PART.FUNC_RANGE has moved from `old` (R67): both copies of the map are rewritten for every function that enters or leaves. -/
def State.funcsMove (s : State) (p : BitVec 4) (old : Nat × Nat) : State :=
  let new := s.funcRange p
  let inR := fun (r : Nat × Nat) (f : Nat) => decide (r.1 ≤ f) && decide (f < r.1 + r.2)
  let s := ((numbers old.1 old.2).filter (fun f => !inR new f)).foldl (fun s f => s.setFpm f 0) s
  let s := ((numbers new.1 new.2).filter (fun f => !inR old f)).foldl (fun s f => s.setFpm f (0x4#12 ++ p)) s
  s.pmapWrite p

/-- What the write of a register that is no command register starts, after it has been stored; `old` is the word before it. -/
def State.regAct (s : State) (k : PageKind) (inst off : Nat) (old v : Word) : State :=
  let p : BitVec 4 := BitVec.ofNat 4 inst
  match k with
  | .glbl => if off = 0x48 then s.negotiate (v.extractLsb' 8 8) (v.extractLsb' 0 8) else s
  | .intg => if 0x44 ≤ off ∧ off ≤ 0x58 then s.declared off else s
  | .part =>
    if off = 0x44 then s.funcsMove p ((old.extractLsb' 0 12).toNat, (old.extractLsb' 16 13).toNat)
    else if off = 0x48 ∨ off = 0x4C ∨ (0x50 ≤ off ∧ off ≤ 0x5C) then s.pmapWrite p
    else s
  | .ftch =>
    if off = 0x58 then
      let n : BitVec 14 := s.fld (pageAddr pFTCH 0x40) 0 14
      (if bit v 0 then s.streamEnable n else s.streamDisable n)
    else s
  | .sync =>
    if off = 0x40 then (if bit v 1 then s.mirrorEnable else s)
    else if off = 0x64 then s.mirrorObjWrite (s.num (rSYNC 0x60) 0 10) (v &&& 0x800FFFFF)
    else if off = 0x48 then s.fillPolls
    else s
  | .fery => if 0x4C ≤ off ∧ off ≤ 0x54 then s.dirsDrop (s.fld (pageAddr pFERY 0x48) 0 4) else s
  | .disp => if off < 0xC0 then s.dispPrior off old else s
  | .scal => if off = 0x48 then s.scalInit (v &&& 0xFFF) else s
  | .audt =>
    if 0x100 ≤ off ∧ off < 0x200 ∧ off % 0x10 = 8 ∧ bit v 31 ∧ !s.enabled (BitVec.ofNat 4 ((off - 0x100) / 0x10)) then
      ((s.setF (rAUDT off) 12 (0#16)).setBit (rAUDT off) 29 true).setF (rAUDT (off + 4)) 0 (0#16)
    else if 0x500 ≤ off ∧ off < 0x600 ∧ off % 0x10 = 8 ∧ bit v 31 then
      ((s.setF (rAUDT off) 8 (0#16)).setBit (rAUDT off) 29 true).setF (rAUDT (off + 4)) 0 (0#16)
    else if 0x100 ≤ off ∧ off < 0x200 ∧ off % 0x10 = 0xC then s.auditResume.settle
    else s
  | .bcon =>
    if 0x60 ≤ off ∧ off < 0x80 then s.completeWrite ((off - 0x60) / 4) v.toNat
    else if 0x2E0 ≤ off ∧ off < 0x300 then s.swClear ((off - 0x2E0) / 4) v
    else s
  | .lhse => if off = 0x44 then s.heartbeat else s
  | .keep => if off = 0x40 ∧ bit v 0 then s.keepRestart else s
  | .clkr => if off = 0x118 then (allParts.filter (fun q => bit v q.toNat && bit old q.toNat)).foldl State.progress s else s
  | .time => if off = 0x58 ∧ bit v 31 ∧ !bit old 31 then { s with tsync := { s.tsync with pulseT := s.time } } else s
  | _ => s

/-- A command register is written with an assigned OP while not BUSY; its RW fields have been stored (R631). -/
def State.command (s : State) (k : PageKind) (inst off op : Nat) (v : Word) : State :=
  let p : BitVec 4 := BitVec.ofNat 4 inst
  let o : BitVec 4 := BitVec.ofNat 4 op
  match k with
  | .part => s.ctxCmdStart p o (bit v 26)
  | .fery => s.tmplStart (s.fld (pageAddr pFERY 0x48) 0 4) o
  | .skry => if off = 0x70 then s.threadCtl p op else if op = 1 then s.imemLoad p else s.imemInval p
  | .sync => s.atomCmd o
  | .shol => s.reload
  | .audt => if off = 0x48 then s.fevCmd o else if off = 0x200 then s.reproCmd o else s.digCmd o
  | .clkr => s.rstCmd op
  | .pwrc => s.pwrCmd op
  | .keep => s.mboxCmd o
  | .reef => s.reefInject (v.extractLsb' 0 3).toNat
  | _ => s

/-! ## The page header (R43, R44, R66, R70, R632) -/

/-- Streams of the partition's functions are enabled. -/
def State.partStreamOn (s : State) (p : BitVec 4) : Bool :=
  s.streams.any (fun (x : Nat × StreamE) => decide (x.2.st ≠ .disabled) && s.streamIn (some p) (BitVec.ofNat 14 x.1))

/-- PART.PG_CTRL.EN (R66, R70): on enabling, Shoal reads the table directory (R340) and numbers the partition's windows from 0
(R356); software may have rewritten the template directory of a disabled partition, so no copy of its entries is kept (R161). -/
def State.partCtrl (s : State) (p : BitVec 4) (en : Bool) : State :=
  let set := fun (b : Bool) =>
    let s := ((s.setBit (rPART p 0x0C) 0 b).pmapWrite p).dirsDrop p
    let s := if b then { s with shoal := { s.shoal with nextNum := Tbl.set (fun _ => 0) s.shoal.nextNum p.toNat 0 } } else s
    if s.resetting p then s else s.setF (rPART p 0x74) 0 (if b then 1#3 else 0#3)
  if en = s.enabled p then s
  else if en then
    let r := s.funcRange p
    let owner := s.num (rPART p 0x6C) 0 12
    if r.1 ≤ owner ∧ owner < r.1 + r.2 ∧ 1 ≤ s.num (rPART p 0x68) 0 17 then (set true).tblRead p false
    else s.setErr (pPART p) 19
  else if s.partStreamOn p then s.setErr (pPART p) 16
  else set false

/-- PG_CTRL.EN of a unit page (R632). -/
def State.unitCtrl (s : State) (page : Nat) (k : PageKind) (inst : Nat) (en : Bool) : State :=
  if en then s.setBit (pageAddr page 0x0C) 0 true
  else if s.anyStreamOn ∨ (k = .eprt ∧ (s.port inst).st ≠ .offline) then s.setErr page ctrlConflict
  else s.setBit (pageAddr page 0x0C) 0 false

/-- PG_CTRL.SRST written 1 (R44). -/
def State.srst (s : State) (page : Nat) (k : PageKind) (inst : Nat) : State :=
  if s.srstBusy page then s
  else if s.pageEn page then s.setErr page ctrlConflict
  else
    let s := s.setBit (pageAddr page 0x0C) 1 true
    if k = .part then s.wantPart (BitVec.ofNat 4 inst) .command else s

/-- A write of a header register. A write of PG_ERR that sets RO_WRITE itself leaves it 1, since hardware sets the bit as software
clears it (R42). PG_IRQEN of the INTG page is one of the RW fields that LOCK covers (R56, R57). When PG_CTRL is written with SRST = 1
while EN is 1, the SRST alone is ignored, and the EN of the same write takes effect: R44 does not say so (DESIGN CHOICE, log entry 47). -/
def State.headerWrite (s : State) (page : Nat) (k : PageKind) (inst off : Nat) (v : Word) : State :=
  let r := headerSpec off
  if off = 0x0C ∧ k.fixedCtrl then s
  else
    let s := if off = 0x14 then s.wr (pageAddr page off) (s.rd (pageAddr page off) &&& ~~~(v &&& r.w1c)) else s
    let s := if v &&& ~~~(r.rw ||| r.w1c ||| r.w1s) ≠ 0 then s.setErr page roWrite else s
    if off = 0x0C then
      let s := if bit v 1 then s.srst page k inst else s
      (if k = .part then s.partCtrl (BitVec.ofNat 4 inst) (bit v 0) else s.unitCtrl page k inst (bit v 0))
    else if off = 0x18 then
      (if k = .intg ∧ s.flag (pageAddr pINTG 0x40) 0 then s.setErr page 16 else s.wr (pageAddr page off) (v &&& r.rw))
    else s

/-! ## A register word -/

/-- A write of a functional register that nothing holds off. A 1 on a RO or RSV bit sets RO_WRITE whatever becomes of the write
(R41). -/
def State.regWrite (s : State) (page : Nat) (k : PageKind) (inst off : Nat) (r : RegSpec) (v : Word) (m : Mate := none) : State :=
  let mx := cmdMax k off
  let op := (v.extractLsb' 28 4).toNat
  let t := if v &&& ~~~(r.writable k off) ≠ 0 then s.setErr page roWrite else s
  match s.refuses k inst off r v m with
  | some b => t.setErr page b
  | none =>
    if 1 ≤ op ∧ op ≤ mx ∧ s.flag (s.regKey page k off) 27 then t.setErr page (cmdBusyErr k off)
    else
      let old := s.rd (s.regKey page k off)
      let t := t.regStore page k inst off r v
      if mx = 0 then t.regAct k inst off old v
      else if mx < op then t.setErr page roWrite
      else if op = 0 then t
      else t.command k inst off op v

/-- An admitted write of one register word (R41, R44, R45); `m` is the other word of a 64-bit write. -/
def State.wordWrite (s : State) (page : Nat) (k : PageKind) (inst off : Nat) (v : Word) (m : Mate := none) : State :=
  if off < 0x40 then s.headerWrite page k inst off v
  else if s.srstBusy page then s.setErr page ctrlConflict
  else if !s.unitOn k inst then s.setErr page 4
  else match k.spec off with
    | none => if v = 0 then s else s.setErr page roWrite
    | some r => s.regWrite page k inst off r v m

/-! ## The end of a soft reset (R44) -/

/-- What the memory answers of a unit are for. -/
def softWhy (k : PageKind) (inst : Nat) (w : Why) : Bool :=
  match k, w with
  | .ftch, .ring _ _ _ _ => true
  | .fery, .input _ _ _ | .fery, .ahead _ _ _ | .fery, .tmplCmd _ _ | .fery, .pinReload _ _ _ => true
  | .shol, .indexList _ _ | .shol, .mapWrite _ | .shol, .tableDir _ _ => true
  | .sync, .fenceRead _ _ | .sync, .poll _ | .sync, .watch _ | .sync, .watchCancel _ | .sync, .mirror _ | .sync, .atom => true
  | .harb, .ctxLoad _ | .harb, .handle _ _ | .harb, .handleOwn _ _ => true
  | .audt, .fevRead _ | .audt, .fevWrite _ | .audt, .message _ _ | .audt, .dlog _ _ | .audt, .digCmd _ | .audt, .progEntry _
  | .audt, .modelLine _ | .audt, .modelOnce _ | .audt, .audit _ | .audt, .record _ | .audt, .fence _ => true
  | .skry, .imem c _ => decide (c.toNat = inst)
  | _, _ => false

/-- The functional registers of a page that are not retained return to their reset values (log entry 33). -/
def State.softRegs (s : State) (page : Nat) (k : PageKind) : State :=
  { s with regs := s.regs.filter (fun (x : Nat × Word) =>
      let a := x.1 % 0x4000000
      let off := a % 0x1000
      decide (a / 0x1000 ≠ page) || decide (off < 0x40) || decide (k = .bcon) ||
        (match k.spec off with | some r => r.keep | none => true)) }

/-- A unit's internal state returns to its reset state (R44). Sync-object values never fall (R270), an update waits with its source
until a bank takes it (R244), and context commands and record changes that wait for memory belong to the partitions (log entry
33). -/
def State.softUnit (s : State) (k : PageKind) (inst : Nat) : State :=
  match k with
  | .ftch => { s with fetch := Fetch.reset }
  | .fery => { s.tmplCmdsEnd with ferry := Ferry.reset }
  | .shol => { s.setF (rSHOL 0x88) 20 (0#12) with shoal := Shoal.reset }
  | .sync =>
    let s := s.atomEnd
    { s with sync := { s.sync.afterReset with offers := s.sync.offers } }
  | .disp => { s with disp := Disp.reset }
  | .harb => { s with harb := { s.harb with slots := [], lru := [], queue := [] } }
  | .audt => { s.audtCmdsEnd with land := Landing.reset, aud := Audit.reset, entries := [] }
  | .dbug => { s with trace := Trace.reset }
  | .scal => { s with scales := [] }
  | .bcon => s.beaconReset
  | .skry => s.setCore (BitVec.ofNat 4 inst) Core.reset
  | _ => s

/-- The soft reset of a unit page is complete (R43, R44). -/
def State.softDone (s : State) (page : Nat) (k : PageKind) (inst : Nat) : State :=
  let s := ((s.orphan (softWhy k inst)).softUnit k inst).softRegs page k
  (s.setBit (pageAddr page 0x0C) 1 false).bumpF (pageAddr page 0x1C) 16 16

end Sys2Proof.Machine
end

