-- ==== Sys2Proof/Machine/Rdp.lean ====
section
/-! DEFINITION. RDP accesses (spec/02_register_pages.md R30 to R41, R50, R51, R629; spec/20_ports_and_signals.md R580 to R583):
admission, refusal, and what an admitted access does, and the commands that are accesses. -/
namespace Sys2Proof.Machine

/-! ## Regions and widths (R30, R37, R581) -/

/-- Where an address lies (R30). -/
inductive Region where
  | page (slot : Nat) (k : PageKind) (inst off : Nat)
  | db (f : BitVec 12) (off : Nat)
  | so (n off : Nat)
  | debug (a : Nat)
  | unmapped
deriving DecidableEq, Repr

/-- The region of an address. -/
def regionOf (a : Nat) : Region :=
  if a < 0x100000 then (match pageAt (a / 0x1000) with | some (k, inst) => .page (a / 0x1000) k inst (a % 0x1000) | none => .unmapped)
  else if 0x1000000 ≤ a ∧ a < 0x2000000 then .db (BitVec.ofNat 12 (a / 0x1000)) (a % 0x1000)
  else if 0x2000000 ≤ a ∧ a < 0x2100000 then .so ((a - 0x2000000) / 64) (a % 64)
  else if 0x3000000 ≤ a ∧ a < 0x3140000 then .debug a
  else .unmapped

/-- The region of an access. -/
def Access.region (x : Access) : Region := regionOf x.addr.toNat

/-- The bytes of an access: 8 or 4 for the three forms, none otherwise (R581). -/
def Access.width (x : Access) : Option Nat :=
  if x.addr.toNat % 8 = 0 ∧ x.strb = 0xFF then some 8
  else if x.addr.toNat % 8 = 0 ∧ x.strb = 0x0F then some 4
  else if x.addr.toNat % 8 = 4 ∧ x.strb = 0xF0 then some 4
  else none

/-- PRIV and FUNC of the origin tag (R33). -/
def Access.priv (x : Access) : Bool := bit x.tag 12
def Access.func (x : Access) : BitVec 12 := x.tag.extractLsb' 0 12

/-! ## Admission (R34, R37, R50, R124, R438, R562, R629) -/

/-- The origin tag and the region allow the access (R34, R269). -/
def State.admits (s : State) (x : Access) : Bool :=
  let last := fun (off : Nat) => off + x.width.getD 4
  match x.region with
  | .page _ k _ off => x.priv || (!x.write &&
      ((decide (k = .glbl) && decide (last off ≤ 0x74)) || (decide (k = .time) && decide (0x40 ≤ off) && decide (last off ≤ 0x48))))
  | .db f _ => x.priv || decide (f = x.func)
  | .so n off => x.priv || ((match s.partOf x.func with | some p => s.soIn p n | none => false) && !(x.write && decide (off = 0x20)))
  | .debug _ => x.priv && !x.write
  | .unmapped => true

/-- The width is one that the target accepts (R37, R124, R438, R562). -/
def Access.widthOk (x : Access) : Bool :=
  match x.region, x.width with
  | _, none => false
  | .page _ k _ off, some w =>
    !(decide (k = .time) && ((decide (0x40 ≤ off) && decide (off < 0x58)) && decide (w ≠ 8))) &&
      !(decide (k = .bcon) && (decide (0x40 ≤ off) && decide (off < 0x80)) && decide (w = 8))
  | _, some w => decide (w = 8)

/-- A write to the page of an absent engine port (R48). -/
def State.absentWrite (s : State) (x : Access) : Bool :=
  match x.region with | .page _ .eprt inst _ => x.write && decide (s.ecpCount ≤ inst) | _ => false

/-- Why an access is refused: 1 DENIED, 2 UNMAPPED, 3 WIDTH, 4 EARLY, the first that applies of R629. -/
def State.refusal (s : State) (x : Access) : Option Nat :=
  let early : Bool := match x.region with | .page _ k _ _ => decide (k ≠ .glbl) && decide (k ≠ .intg) | _ => true
  let unmapped : Bool := match x.region with | .unmapped => true | _ => s.absentWrite x
  if unmapped then some 2
  else if early ∧ !s.flag (pageAddr pGLBL 0x70) 0 then some 4
  else if !s.admits x then some 1
  else if !x.widthOk then some 3
  else none

/-- The answer of an access (R580). -/
def State.answerRdp (s : State) (data : Dword) (err : BitVec 3) : State := { s with rdp := { s.rdp with adata := data, aerr := err } }

/-- An event of an access: it names the requester's function and the address. -/
def Access.event (x : Access) (code : Nat) : Event :=
  { ev pGLBL code 1 with akind := 2, addr := x.addr.setWidth 57, func := some x.func }

/-- A refused access (R35, R36, R51, R629). -/
def State.refuse (s : State) (x : Access) (reason : Nat) : State :=
  let s := s.bump (pageAddr pGLBL 0x74)
  let s := s.wr (pageAddr pGLBL 0x78) (1#1 ++ 0#3 ++ BitVec.ofNat 4 reason ++ ofBool x.write ++ 0#10 ++ x.tag)
  let s := s.wr (pageAddr pGLBL 0x7C) (x.addr.setWidth 32)
  let s := match x.region with
    | .page slot _ _ _ => if reason = 1 then s.setErr slot 0 else if reason = 3 then s.setErr slot 1 else s
    | _ => s
  let s := if reason = 1 then s.raise (x.event 0x01) else s
  s.answerRdp 0 (BitVec.ofNat 3 reason)

/-! ## Writes -/

/-- The data of a 32-bit access (R581). -/
def Access.word (x : Access) : Word := if x.addr.toNat % 8 = 4 then x.data.extractLsb' 32 32 else x.data.extractLsb' 0 32

/-- The high word of a 64-bit write is taken first: the low word is a command, a selector, INTEG.CTRL or a header register, of which
the effect comes after a write of the same HCLK to its neighbour (R37, R42). -/
def highFirst (k : PageKind) (off : Nat) : Bool :=
  decide (off < 0x40) || decide (cmdMax k off ≠ 0) ||
    (match k with
      | .intg | .ftch | .scal => decide (off = 0x40)
      | .fery => decide (off = 0x48)
      | .sync => decide (off = 0x60)
      | _ => false)

/-- The other word of a 64-bit write, if its own fields lie in their ranges, so that it is written. -/
def mateOf (k : PageKind) (off : Nat) (v : Word) : Mate :=
  match k.spec off with
  | some r => if r.rangeBad v then none else some (off, v)
  | none => none

/-- A write of registers: a 64-bit access writes two of them in one HCLK, each judged on what both were before it and on the other's
new value (R37; log entry 36); TIME.SET is one of 64 bits (R560). -/
def State.pageWrite (s : State) (x : Access) (slot : Nat) (k : PageKind) (inst off : Nat) : State :=
  let lo : Word := x.data.extractLsb' 0 32
  let hi : Word := x.data.extractLsb' 32 32
  if k = .time ∧ off = 0x48 then s.timeSet x.data
  else if x.width = some 8 then
    (if highFirst k off then
      (s.wordWrite slot k inst (off + 4) hi (mateOf k off lo)).wordWrite slot k inst off lo (mateOf k (off + 4) hi)
    else (s.wordWrite slot k inst off lo (mateOf k (off + 4) hi)).wordWrite slot k inst (off + 4) hi (mateOf k off lo))
  else s.wordWrite slot k inst off x.word

/-- A write of DB.CTRL: PAUSE, then INVAL (R124, R134, R142). -/
def State.dbCtrl (s : State) (n : BitVec 14) (v : Dword) : State :=
  let s := if bit v 0 then s.pauseStream n else s.resumeStream n
  if bit v 1 then s.invalStream n else s

/-- A write of a doorbell page (R68, R124, R515): of an unbound function's page every register refuses it (log entry 15). -/
def State.dbWrite (s : State) (x : Access) (f : BitVec 12) (off : Nat) : State :=
  let n := streamOf f (BitVec.ofNat 2 (off % 0x20 / 8))
  if s.oos then s
  else if off < 0x40 ∧ (s.partOf f).isNone then s.raise (x.event 0x02)
  else if off < 0x20 then s.doorbell n (x.data.extractLsb' 0 16)
  else if off < 0x40 then s.dbCtrl n x.data
  else s

/-- A write of the sync-object window (R246, R269, R270, R455): the update is offered to its bank, and the RDP holds later accesses
off until the bank has applied it (R38, R582). -/
def State.soWrite (s : State) (x : Access) (n off : Nat) : State :=
  let go := fun (k : UpdKind) =>
    let s := match s.soOwner n with | some p => s.timingBreak p | none => s
    let s := s.offer .rdp [⟨k, BitVec.ofNat 14 n, x.data⟩] none
    { s with rdp := { s.rdp with waits := true } }
  if s.oos then s
  else match off with
    | 0x00 => go .signal
    | 0x08 => go .add
    | 0x20 => go .force
    | 0x10 | 0x18 => if x.data = 0 then s else s.setErr pSYNC roWrite
    | _ => s

/-! ## Reads -/

/-- A read of BCON.CLAIM (R434, R632): with the page disabled it returns 0x3FF and does not count. -/
def State.claimAccess (s : State) (t : Nat) : State × Word :=
  if s.srstBusy pBCON then (s.setErr pBCON ctrlConflict, 0)
  else if !s.pageEn pBCON ∨ !s.unitOn .bcon 0 then (s, 0x3FF)
  else
    let r := s.claimRead t
    (r.1, BitVec.ofNat 32 r.2)

/-- A read of one register word, with its side effects (R40, R44). -/
def State.wordReadAt (s : State) (slot : Nat) (k : PageKind) (inst off : Nat) : State × Word :=
  if k = .bcon ∧ 0x40 ≤ off ∧ off < 0x60 then s.claimAccess ((off - 0x40) / 4)
  else if 0x40 ≤ off ∧ s.srstBusy slot then (s.setErr slot ctrlConflict, 0)
  else (s, s.wordRead slot k inst off)

/-- A read of registers. -/
def State.pageRead (s : State) (x : Access) (slot : Nat) (k : PageKind) (inst off : Nat) : State × Dword :=
  let r := s.wordReadAt slot k inst off
  if x.width = some 8 then
    let h := r.1.wordReadAt slot k inst (off + 4)
    (h.1, h.2 ++ r.2)
  else (r.1, if x.addr.toNat % 8 = 4 then r.2 ++ 0#32 else 0#32 ++ r.2)

/-! ## An access -/

/-- An access is answered unless it waits for a sync bank (R38, R246). -/
def State.answerNow (s : State) : State := if s.rdp.waits then s else s.answerRdp 0 0

/-- An admitted access takes effect (R38). -/
def State.perform (s : State) (x : Access) : State :=
  if x.write then
    match x.region with
    | .page slot k inst off => (s.pageWrite x slot k inst off).answerRdp 0 0
    | .db f off => (s.dbWrite x f off).answerRdp 0 0
    | .so n off => (s.soWrite x n off).answerNow
    | .debug _ | .unmapped => s.answerRdp 0 0
  else match x.region with
    | .page slot k inst off => let r := s.pageRead x slot k inst off; r.1.answerRdp r.2 0
    | .db f off => s.answerRdp (s.dbRead f off) 0
    | .so n off => s.answerRdp (s.soRead n off) 0
    | .debug a => s.answerRdp (s.debugRead a) 0
    | .unmapped => s

/-- RDP_READY can be 1 (R530, R533, R583). -/
def State.rdpReady (s : State) : Bool := decide (s.pwr.mode = .active) || decide (s.pwr.mode = .idle)

/-- An access is presented (R35, R525, R582, R583, R629): it waits for its handshake while RDP_READY is held low. -/
def State.access (s : State) (x : Access) : State :=
  if !s.rdpReady ∨ s.rdp.waits then { s with rdp := { s.rdp with held := s.rdp.held ++ [x] } }
  else
    let s := s.idleExit
    match s.refusal x with
    | some r => s.refuse x r
    | none => s.perform x

/-- Held accesses handshake in their order (R38, R533). -/
def State.replay (s : State) : State := s.rdp.held.foldl State.access { s with rdp := { s.rdp with held := [] } }

/-! ## Access forms -/

/-- A 32-bit write of a register (R581). -/
def write32 (tag : BitVec 13) (a : Nat) (v : Word) : Access :=
  if a % 8 = 4 then ⟨true, tag, BitVec.ofNat 26 a, 0xF0, v ++ 0#32⟩ else ⟨true, tag, BitVec.ofNat 26 a, 0x0F, 0#32 ++ v⟩

/-- A 32-bit read of a register. -/
def read32 (tag : BitVec 13) (a : Nat) : Access := ⟨false, tag, BitVec.ofNat 26 a, if a % 8 = 4 then 0xF0 else 0x0F, 0⟩

/-- A 64-bit write. -/
def write64 (tag : BitVec 13) (a : Nat) (v : Dword) : Access := ⟨true, tag, BitVec.ofNat 26 a, 0xFF, v⟩

/-- A command register's word: OP and the fields below it. -/
def opWord (op : BitVec 4) (fields : BitVec 28) : Word := op ++ fields

/-- Addresses of doorbell registers and sync-object registers (R30, R124, R269). -/
def dbAddr (f : BitVec 12) (off : Nat) (c : BitVec 2) : Nat := 0x1000000 + f.toNat * 0x1000 + off + 8 * c.toNat
def soReg (n : BitVec 14) (off : Nat) : Nat := 0x2000000 + n.toNat * 64 + off

/-! ## Register commands of spec/02 and spec/03 -/

/-- REGISTER_WRITE (R41): any write access. -/
def execRegisterWrite (tag : BitVec 13) (addr : BitVec 26) (strb : BitVec 8) (data : Dword) (s : State) : Host.Outcome State Fault Refusal :=
  .next (s.access ⟨true, tag, addr, strb, data⟩)

/-- IF_NEGOTIATE (R53). -/
def execIfNegotiate (tag : BitVec 13) (major minor : BitVec 8) (s : State) : Host.Outcome State Fault Refusal :=
  .next (s.access (write32 tag (pageAddr pGLBL 0x48) (0#16 ++ major ++ minor)))

/-- SOFT_RESET (R44): PG_CTRL is written with SRST = 1 and EN = 0. -/
def execSoftReset (tag : BitVec 13) (page : BitVec 8) (s : State) : Host.Outcome State Fault Refusal :=
  .next (s.access (write32 tag (pageAddr page.toNat 0x0C) 2))

/-- SRST_COMPLETE (R44): a unit's soft reset completes; a partition's does so with its reset. -/
def execSrstComplete (page : BitVec 8) (s : State) : Host.Outcome State Fault Refusal :=
  match pageAt page.toNat with
  | some (k, inst) => .next (if s.srstBusy page.toNat ∧ k ≠ .part then s.softDone page.toNat k inst else s)
  | none => .next s

/-- UNIT_ENABLE (R632). -/
def execUnitEnable (tag : BitVec 13) (page : BitVec 8) (en : BitVec 1) (s : State) : Host.Outcome State Fault Refusal :=
  .next (s.access (write32 tag (pageAddr page.toNat 0x0C) (en.setWidth 32)))

/-- PART_ENABLE (R66, R70). -/
def execPartEnable (tag : BitVec 13) (p : BitVec 4) (s : State) : Host.Outcome State Fault Refusal := .next (s.access (write32 tag (rPART p 0x0C) 1))

/-- PART_DISABLE (R66, R70). -/
def execPartDisable (tag : BitVec 13) (p : BitVec 4) (s : State) : Host.Outcome State Fault Refusal := .next (s.access (write32 tag (rPART p 0x0C) 0))

/-- FUNC_RANGE_WRITE (R64, R67). -/
def execFuncRangeWrite (tag : BitVec 13) (p : BitVec 4) (base : BitVec 12) (count : BitVec 13) (s : State) : Host.Outcome State Fault Refusal :=
  .next (s.access (write32 tag (rPART p 0x44) (0#3 ++ count ++ 0#4 ++ base)))

/-- HARB_QUOTA_WRITE (R65). -/
def execHarbQuotaWrite (tag : BitVec 13) (p : BitVec 4) (min : BitVec 7) (s : State) : Host.Outcome State Fault Refusal :=
  .next (s.access (write32 tag (rPART p 0x4C) (min.setWidth 32)))

/-- INTEG_DECLARE (R56, R57). -/
def execIntegDeclare (tag : BitVec 13) (reg : BitVec 3) (value : Word) (s : State) : Host.Outcome State Fault Refusal :=
  .next (s.access (write32 tag (pageAddr pINTG (0x44 + 4 * reg.toNat)) value))

/-- INTEG_LOCK (R56). -/
def execIntegLock (tag : BitVec 13) (s : State) : Host.Outcome State Fault Refusal := .next (s.access (write32 tag (pageAddr pINTG 0x40) 1))

/-- A write of PART.CTX_CMD (R77). -/
def State.ctxCmdAccess (s : State) (tag : BitVec 13) (p : BitVec 4) (op : BitVec 4) (bound : Bool) (ctx : BitVec 16) : State :=
  s.access (write32 tag (rPART p 0x78) (opWord op (0#1 ++ ofBool bound ++ 0#10 ++ ctx)))

/-- CREATE (R78). -/
def execCreate (tag : BitVec 13) (p : BitVec 4) (ctx : BitVec 16) (s : State) : Host.Outcome State Fault Refusal := .next (s.ctxCmdAccess tag p 1 false ctx)
/-- DESTROY (R78, R85). -/
def execDestroy (tag : BitVec 13) (p : BitVec 4) (ctx : BitVec 16) (s : State) : Host.Outcome State Fault Refusal := .next (s.ctxCmdAccess tag p 2 false ctx)
/-- FLUSH (R78). -/
def execFlush (tag : BitVec 13) (p : BitVec 4) (ctx : BitVec 16) (bound : Bool) (s : State) : Host.Outcome State Fault Refusal :=
  .next (s.ctxCmdAccess tag p 3 bound ctx)
/-- HANDLE_INVAL (R78, R97). -/
def execHandleInval (tag : BitVec 13) (p : BitVec 4) (ctx : BitVec 16) (s : State) : Host.Outcome State Fault Refusal := .next (s.ctxCmdAccess tag p 4 false ctx)

/-! ## Streams (spec/04) -/

/-- DOORBELL (R125). -/
def execDoorbell (tag : BitVec 13) (func : BitVec 12) (cls : BitVec 2) (strb : BitVec 8) (data : Dword) (s : State) : Host.Outcome State Fault Refusal :=
  .next (s.access ⟨true, tag, BitVec.ofNat 26 (dbAddr func 0 cls), strb, data⟩)
/-- PAUSE (R142). -/
def execPause (tag : BitVec 13) (func : BitVec 12) (cls : BitVec 2) (s : State) : Host.Outcome State Fault Refusal :=
  .next (s.access (write64 tag (dbAddr func 0x20 cls) 1))
/-- RESUME_STREAM (R142). -/
def execResumeStream (tag : BitVec 13) (func : BitVec 12) (cls : BitVec 2) (s : State) : Host.Outcome State Fault Refusal :=
  .next (s.access (write64 tag (dbAddr func 0x20 cls) 0))
/-- INVAL (R134); the same write gives PAUSE the value `keep`. -/
def execInval (tag : BitVec 13) (func : BitVec 12) (cls : BitVec 2) (keep : Bool) (s : State) : Host.Outcome State Fault Refusal :=
  .next (s.access (write64 tag (dbAddr func 0x20 cls) (if keep then 3 else 2)))
/-- STREAM_ENABLE (R139). -/
def execStreamEnable (tag : BitVec 13) (s : State) : Host.Outcome State Fault Refusal := .next (s.access (write32 tag (pageAddr pFTCH 0x58) 1))
/-- STREAM_DISABLE (R142). -/
def execStreamDisable (tag : BitVec 13) (s : State) : Host.Outcome State Fault Refusal := .next (s.access (write32 tag (pageAddr pFTCH 0x58) 0))

/-! ## Sync objects (spec/07) -/

/-- SO_SIGNAL (R269). -/
def execSoSignal (tag : BitVec 13) (so : BitVec 14) (strb : BitVec 8) (data : Dword) (s : State) : Host.Outcome State Fault Refusal :=
  .next (s.access ⟨true, tag, BitVec.ofNat 26 (soReg so 0), strb, data⟩)
/-- SO_ADD (R269). -/
def execSoAdd (tag : BitVec 13) (so : BitVec 14) (strb : BitVec 8) (data : Dword) (s : State) : Host.Outcome State Fault Refusal :=
  .next (s.access ⟨true, tag, BitVec.ofNat 26 (soReg so 8), strb, data⟩)
/-- SO_FORCE (R270). -/
def execSoForce (tag : BitVec 13) (so : BitVec 14) (strb : BitVec 8) (data : Dword) (s : State) : Host.Outcome State Fault Refusal :=
  .next (s.access ⟨true, tag, BitVec.ofNat 26 (soReg so 0x20), strb, data⟩)
/-- FETCH_ADD, ATOM_MAX and COMPARE_SWAP (R268, R276): the operands are in their registers. -/
def execFetchAdd (tag : BitVec 13) (s : State) : Host.Outcome State Fault Refusal := .next (s.access (write32 tag (rSYNC 0x70) (opWord 1 0)))
def execAtomMax (tag : BitVec 13) (s : State) : Host.Outcome State Fault Refusal := .next (s.access (write32 tag (rSYNC 0x70) (opWord 2 0)))
def execCompareSwap (tag : BitVec 13) (s : State) : Host.Outcome State Fault Refusal := .next (s.access (write32 tag (rSYNC 0x70) (opWord 3 0)))
/-- MIRROR_ENABLE (R276). -/
def execMirrorEnable (tag : BitVec 13) (s : State) : Host.Outcome State Fault Refusal := .next (s.access (write32 tag (rSYNC 0x40) 2))
/-- MIRROR_ENTRY_ENABLE (R277). -/
def execMirrorEntryEnable (tag : BitVec 13) (en : Bool) (so : BitVec 20) (s : State) : Host.Outcome State Fault Refusal :=
  .next (s.access (write32 tag (rSYNC 0x64) (ofBool en ++ 0#11 ++ so)))

/-! ## Templates, scale entries, cores (spec/05, spec/06, spec/11) -/

/-- A write of FERRY.TMPL_CMD for the selected partition (R163). -/
def State.tmplAccess (s : State) (tag : BitVec 13) (op : BitVec 4) (id : BitVec 12) (pin : Bool) : State :=
  s.access (write32 tag (pageAddr pFERY 0x58) (opWord op (0#1 ++ ofBool pin ++ 0#14 ++ id)))

/-- REGISTER, REPLACE, RETIRE and SET_PIN (R164). -/
def execRegister (tag : BitVec 13) (id : BitVec 12) (pin : Bool) (s : State) : Host.Outcome State Fault Refusal := .next (s.tmplAccess tag 1 id pin)
def execReplace (tag : BitVec 13) (id : BitVec 12) (pin : Bool) (s : State) : Host.Outcome State Fault Refusal := .next (s.tmplAccess tag 2 id pin)
def execRetire (tag : BitVec 13) (id : BitVec 12) (s : State) : Host.Outcome State Fault Refusal := .next (s.tmplAccess tag 3 id false)
def execSetPin (tag : BitVec 13) (id : BitVec 12) (pin : Bool) (s : State) : Host.Outcome State Fault Refusal := .next (s.tmplAccess tag 4 id pin)

/-- RESUME, STEP_THREAD and HALT (R239): SKRY.THR_CTRL of the selected thread. -/
def execResume (tag : BitVec 13) (core : BitVec 4) (s : State) : Host.Outcome State Fault Refusal := .next (s.access (write32 tag (rSKRY core 0x70) (opWord 1 0)))
def execStepThread (tag : BitVec 13) (core : BitVec 4) (s : State) : Host.Outcome State Fault Refusal := .next (s.access (write32 tag (rSKRY core 0x70) (opWord 2 0)))
def execHalt (tag : BitVec 13) (core : BitVec 4) (s : State) : Host.Outcome State Fault Refusal := .next (s.access (write32 tag (rSKRY core 0x70) (opWord 3 0)))
/-- IMEM_LOAD (R235). -/
def execImemLoad (tag : BitVec 13) (core : BitVec 4) (lock : Bool) (part : BitVec 6) (s : State) : Host.Outcome State Fault Refusal :=
  .next (s.access (write32 tag (rSKRY core 0x4C) (opWord 1 (0#1 ++ ofBool lock ++ 0#20 ++ part))))
/-- IMEM_INVAL (R236). -/
def execImemInval (tag : BitVec 13) (core : BitVec 4) (all : Bool) (part : BitVec 6) (s : State) : Host.Outcome State Fault Refusal :=
  .next (s.access (write32 tag (rSKRY core 0x4C) (opWord 2 (0#2 ++ ofBool all ++ 0#19 ++ part))))
/-- SCAL_INIT (R399) and SCAL_CFG (R402). -/
def execScalInit (tag : BitVec 13) (scale : BitVec 12) (s : State) : Host.Outcome State Fault Refusal :=
  .next (s.access (write32 tag (rSCAL 0x48) (scale.setWidth 32)))
def execScalCfg (tag : BitVec 13) (k : BitVec 3) (format : BitVec 6) (s : State) : Host.Outcome State Fault Refusal :=
  .next (s.access (write32 tag (rSCAL 0x44) (0#13 ++ k ++ 0#10 ++ format)))

/-! ## Landing, Beacon, runs and digests (spec/12 to spec/14) -/

/-- REFRESH, FEV_FLUSH and FLUSH_ALL (R428). -/
def execRefresh (tag : BitVec 13) (func : BitVec 12) (s : State) : Host.Outcome State Fault Refusal := .next (s.access (write32 tag (rAUDT 0x48) (opWord 1 (0#16 ++ func))))
def execFevFlush (tag : BitVec 13) (func : BitVec 12) (s : State) : Host.Outcome State Fault Refusal := .next (s.access (write32 tag (rAUDT 0x48) (opWord 2 (0#16 ++ func))))
def execFlushAll (tag : BitVec 13) (s : State) : Host.Outcome State Fault Refusal := .next (s.access (write32 tag (rAUDT 0x48) (opWord 3 0)))
/-- CLAIM (R434): a read of BCON.CLAIM. -/
def execClaim (tag : BitVec 13) (target : BitVec 3) (s : State) : Host.Outcome State Fault Refusal := .next (s.access (read32 tag (rBCON (0x40 + 4 * target.toNat))))
/-- COMPLETE (R436). -/
def execComplete (tag : BitVec 13) (target : BitVec 3) (source : BitVec 10) (s : State) : Host.Outcome State Fault Refusal :=
  .next (s.access (write32 tag (rBCON (0x60 + 4 * target.toNat)) (source.setWidth 32)))
/-- SW_SET and SW_CLEAR (R443). -/
def execSwSet (tag : BitVec 13) (word : BitVec 3) (bits : Word) (s : State) : Host.Outcome State Fault Refusal := .next (s.access (write32 tag (rBCON (0x2C0 + 4 * word.toNat)) bits))
def execSwClear (tag : BitVec 13) (word : BitVec 3) (bits : Word) (s : State) : Host.Outcome State Fault Refusal := .next (s.access (write32 tag (rBCON (0x2E0 + 4 * word.toNat)) bits))
/-- ARM, GO and DISARM (R452). -/
def execArm (tag : BitVec 13) (s : State) : Host.Outcome State Fault Refusal := .next (s.access (write32 tag rREPRO (opWord 1 0)))
def execGo (tag : BitVec 13) (s : State) : Host.Outcome State Fault Refusal := .next (s.access (write32 tag rREPRO (opWord 2 0)))
def execDisarm (tag : BitVec 13) (s : State) : Host.Outcome State Fault Refusal := .next (s.access (write32 tag rREPRO (opWord 3 0)))
/-- REG_PROG, REG_MODEL, UNREG_PROG and UNREG_MODEL (R461). -/
def execRegProg (tag : BitVec 13) (part : BitVec 6) (s : State) : Host.Outcome State Fault Refusal := .next (s.access (write32 tag rDIG (opWord 1 (0#22 ++ part))))
def execRegModel (tag : BitVec 13) (part : BitVec 6) (s : State) : Host.Outcome State Fault Refusal := .next (s.access (write32 tag rDIG (opWord 2 (0#22 ++ part))))
def execUnregProg (tag : BitVec 13) (part : BitVec 6) (s : State) : Host.Outcome State Fault Refusal := .next (s.access (write32 tag rDIG (opWord 3 (0#22 ++ part))))
def execUnregModel (tag : BitVec 13) (part : BitVec 6) (s : State) : Host.Outcome State Fault Refusal := .next (s.access (write32 tag rDIG (opWord 4 (0#22 ++ part))))

/-! ## Shoal, Reef, Lighthouse, resets (spec/10, spec/15, spec/16) -/

/-- RELOAD (R340). -/
def execReload (tag : BitVec 13) (part : BitVec 6) (s : State) : Host.Outcome State Fault Refusal := .next (s.access (write32 tag (rSHOL 0x88) (opWord 1 (0#22 ++ part))))
/-- INJECT (R492). -/
def execInject (tag : BitVec 13) (sev : BitVec 3) (s : State) : Host.Outcome State Fault Refusal := .next (s.access (write32 tag (rREEF 0xD0) (opWord 1 (0#25 ++ sev))))
/-- HEARTBEAT (R485). -/
def execHeartbeat (tag : BitVec 13) (value : Word) (s : State) : Host.Outcome State Fault Refusal := .next (s.access (write32 tag (rLHSE 0x44) value))
/-- ADD_PORT, REMOVE, READMIT and ENGINE_RESET (R510). -/
def execAddPort (tag : BitVec 13) (port : BitVec 10) (s : State) : Host.Outcome State Fault Refusal := .next (s.access (write32 tag (rCLKR 0x100) (opWord 3 (0#18 ++ port))))
def execRemove (tag : BitVec 13) (port : BitVec 10) (s : State) : Host.Outcome State Fault Refusal := .next (s.access (write32 tag (rCLKR 0x100) (opWord 4 (0#18 ++ port))))
def execReadmit (tag : BitVec 13) (port : BitVec 10) (s : State) : Host.Outcome State Fault Refusal := .next (s.access (write32 tag (rCLKR 0x100) (opWord 5 (0#18 ++ port))))
def execEngineReset (tag : BitVec 13) (port : BitVec 10) (s : State) : Host.Outcome State Fault Refusal := .next (s.access (write32 tag (rCLKR 0x100) (opWord 6 (0#18 ++ port))))

/-! ## Power, device time, Keeper (spec/17 to spec/19) -/

/-- DROWSE (R530) and OFF (R536). -/
def execDrowse (tag : BitVec 13) (s : State) : Host.Outcome State Fault Refusal := .next (s.access (write32 tag (rPWRC 0x40) (opWord 1 0)))
def execOff (tag : BitVec 13) (s : State) : Host.Outcome State Fault Refusal := .next (s.access (write32 tag (rPWRC 0x40) (opWord 2 0)))
/-- TIME_SET (R560). -/
def execTimeSet (tag : BitVec 13) (value : Dword) (s : State) : Host.Outcome State Fault Refusal := .next (s.access (write64 tag (rTIME 0x48) value))
/-- RESTART (R576). -/
def execRestart (tag : BitVec 13) (s : State) : Host.Outcome State Fault Refusal := .next (s.access (write32 tag (rKEEP 0x40) 1))
/-- LOAD, ACTIVATE, CONFIRM and ERASE (R571). -/
def execLoad (tag : BitVec 13) (slot : BitVec 1) (s : State) : Host.Outcome State Fault Refusal := .next (s.access (write32 tag (rKEEP 0x5C) (opWord 1 (0#27 ++ slot))))
def execActivate (tag : BitVec 13) (slot : BitVec 1) (s : State) : Host.Outcome State Fault Refusal := .next (s.access (write32 tag (rKEEP 0x5C) (opWord 2 (0#27 ++ slot))))
def execConfirm (tag : BitVec 13) (slot : BitVec 1) (s : State) : Host.Outcome State Fault Refusal := .next (s.access (write32 tag (rKEEP 0x5C) (opWord 3 (0#27 ++ slot))))
def execErase (tag : BitVec 13) (slot : BitVec 1) (s : State) : Host.Outcome State Fault Refusal := .next (s.access (write32 tag (rKEEP 0x5C) (opWord 4 (0#27 ++ slot))))

end Sys2Proof.Machine
end

