-- ==== Sys2Proof/Machine/Wake.lean ====
section
/-! DEFINITION. The commands after which held RDP accesses can handshake: an abandoned entry, PWR_ACK changes, the end of a
wake (spec/17_power_domains.md R527 to R533, R538), and COLD_RST_N (spec/20_ports_and_signals.md R610). -/
namespace Sys2Proof.Machine

/-- Held accesses handshake if RDP ready is high (R533). -/
def State.replayIf (s : State) : State := if s.rdpReady then s.replay else s

/-- The write of the sync-object window that was waiting has been applied: it is answered, and the accesses behind it handshake
(R38, R246, R582). -/
def State.soAnswered (s : State) : State := { (s.answerRdp 0 0) with rdp := { (s.answerRdp 0 0).rdp with waits := false } }.replayIf

/-- SYNC_BANK_APPLY (R244 to R246): the bank takes one offer and applies it. -/
def execSyncBankApply (bank : BitVec 1) (s : State) : Host.Outcome State Fault Refusal :=
  match s.bankNext bank with
  | none => .next s
  | some o =>
    let t := s.bankApply bank o
    .next (if o.src = .rdp ∧ t.rdp.waits then t.soAnswered else t)

/-- ENTRY_ABORT (R531). -/
def execEntryAbort (s : State) : Host.Outcome State Fault Refusal := .next (if s.mustAbort then s.entryAbort.replayIf else s)

/-- PWR_ACK (R527 to R530, R533, R538): the synchronised level of a domain's PWR_ACK changes. -/
def execPwrAck (dom : BitVec 5) (level : Bool) (s : State) : Host.Outcome State Fault Refusal :=
  let t := s.pwrAck dom.toNat level
  .next (if s.rdpReady then t else t.replayIf)

/-- Reads of step 4 of a wake are outstanding (R273, R533). -/
def State.resyncing (s : State) : Bool :=
  s.mmp.any (fun r => match r.why with | .poll _ | .pinReload _ _ _ => true | _ => false) ||
    s.fap.any (fun r => match r.why with | .poll _ => true | _ => false)

/-- The wake has ended (R485, R533, R551, R556, R568): the block is ACTIVE. An entry that was undone (R528) is no wake. -/
def State.awake (s : State) : State :=
  let s := if s.pwr.backOut then s
    else (s.wr (rPWRC 0x6C) (BitVec.ofNat 32 (min (s.time - s.pwr.wakeT).toNat 0xFFFFFFFF))).bump (rPWRC 0x7C)
  let s := s.alignAgain
  { s with
    pwr := { s.pwr with mode := .active, wave := 0, backOut := false, quietC := 0 }
    lhse := { s.lhse with beatT := s.time }
    keep := { s.keep with bootDue := true }
    view := s.time.toNat * 65536 + 3 * s.viewInc, viewHeld := false }

/-- WAKE_DONE (R485, R533): stores are initialised and the resynchronisation is complete. -/
def execWakeDone (s : State) : Host.Outcome State Fault Refusal :=
  .next (if s.pwr.mode = .waking ∧ s.pwr.wave = 4 ∧ !s.resyncing then s.awake.replay else s)

/-- What a cold reset does not touch: the queue, the model's counter, the RTL parameters, and what the outside drives: the PWR_ACK
levels, the link states, the test ports, and accesses whose valid stays high (log entry 34). -/
def State.coldInit (s : State) : State :=
  let r := State.reset
  { r with
    pending := s.pending, freeCtr := s.freeCtr, ecpCount := s.ecpCount, cwMap := s.cwMap, keepStore := s.keepStore
    rdp := { r.rdp with held := s.rdp.held }
    cw := { r.cw with links := s.cw.links }
    test := s.test
    pwr := { r.pwr with doms := Tbl.remap (fun _ => Dom.off) (fun (d : Dom) => { Dom.off with ack := d.ack }) s.pwr.doms } }

/-- COLD_RST_N is asserted (R538). -/
def State.coldAssert (s : State) : State :=
  let t := s.coldInit
  { t with pwr := { t.pwr with coldHeld := true, wave := 0 } }

/-- COLD_RST_N is released (R538): steps 1 to 3 of R533 begin. -/
def State.coldRelease (s : State) : State :=
  let t := s.coldInit
  ({ t with pwr := { t.pwr with wave := 1 } }.waveOn 1).waveNext.replayIf

/-- COLD_RESET (R538, R610). -/
def execColdReset (asserted : Bool) (s : State) : Host.Outcome State Fault Refusal :=
  if asserted then .next s.coldAssert
  else if s.pwr.coldHeld then .next s.coldRelease
  else .next s

end Sys2Proof.Machine
end

