-- ==== Sys2Proof/Machine/Dispatch.lean ====
section
/-! DEFINITION. One arm per command. -/
namespace Sys2Proof.Machine

/-- What a command does to everything but the queue. -/
def exec (i : Instr) (s : State) : Host.Outcome State Fault Refusal :=
  match i with
  | .registerWrite tag addr strb data => Sys2Proof.Machine.execRegisterWrite tag addr strb data s
  | .ifNegotiate tag major minor => Sys2Proof.Machine.execIfNegotiate tag major minor s
  | .softReset tag page => Sys2Proof.Machine.execSoftReset tag page s
  | .srstComplete page => Sys2Proof.Machine.execSrstComplete page s
  | .unitEnable tag page en => Sys2Proof.Machine.execUnitEnable tag page en s
  | .partEnable tag p => Sys2Proof.Machine.execPartEnable tag p s
  | .partDisable tag p => Sys2Proof.Machine.execPartDisable tag p s
  | .funcRangeWrite tag p base count => Sys2Proof.Machine.execFuncRangeWrite tag p base count s
  | .harbQuotaWrite tag p min => Sys2Proof.Machine.execHarbQuotaWrite tag p min s
  | .integDeclare tag reg value => Sys2Proof.Machine.execIntegDeclare tag reg value s
  | .integLock tag => Sys2Proof.Machine.execIntegLock tag s
  | .create tag p ctx => Sys2Proof.Machine.execCreate tag p ctx s
  | .destroy tag p ctx => Sys2Proof.Machine.execDestroy tag p ctx s
  | .flush tag p ctx bound => Sys2Proof.Machine.execFlush tag p ctx bound s
  | .handleInval tag p ctx => Sys2Proof.Machine.execHandleInval tag p ctx s
  | .ctxCmdDone p write mtag gen err lines => Sys2Proof.Machine.execCtxCmdDone p write mtag gen err lines s
  | .doorbell tag func cls strb data => Sys2Proof.Machine.execDoorbell tag func cls strb data s
  | .pause tag func cls => Sys2Proof.Machine.execPause tag func cls s
  | .resumeStream tag func cls => Sys2Proof.Machine.execResumeStream tag func cls s
  | .inval tag func cls keep => Sys2Proof.Machine.execInval tag func cls keep s
  | .streamEnable tag => Sys2Proof.Machine.execStreamEnable tag s
  | .streamDisable tag => Sys2Proof.Machine.execStreamDisable tag s
  | .channelTakeStream ch => Sys2Proof.Machine.execChannelTakeStream ch s
  | .prefetch stream => Sys2Proof.Machine.execPrefetch stream s
  | .ringReadReturn mtag gen err lines => Sys2Proof.Machine.execRingReadReturn mtag gen err lines s
  | .releaseWriteAck mtag gen err => Sys2Proof.Machine.execReleaseWriteAck mtag gen err s
  | .ferryInputReady stream mtag gen err lines => Sys2Proof.Machine.execFerryInputReady stream mtag gen err lines s
  | .ferrySlice => Sys2Proof.Machine.execFerrySlice s
  | .harbourRecordArrives mtag gen err lines => Sys2Proof.Machine.execHarbourRecordArrives mtag gen err lines s
  | .harbourQueueServe => Sys2Proof.Machine.execHarbourQueueServe s
  | .handleEntryReturn mtag gen err lines => Sys2Proof.Machine.execHandleEntryReturn mtag gen err lines s
  | .parkWriteAck mtag gen err => Sys2Proof.Machine.execParkWriteAck mtag gen err s
  | .parkReadbackReturn mtag gen err lines => Sys2Proof.Machine.execParkReadbackReturn mtag gen err lines s
  | .signalEntryApply stream => Sys2Proof.Machine.execSignalEntryApply stream s
  | .barrierPass stream => Sys2Proof.Machine.execBarrierPass stream s
  | .streamTimeout stream => Sys2Proof.Machine.execStreamTimeout stream s
  | .modelSwitch stream => Sys2Proof.Machine.execModelSwitch stream s
  | .modelSwitchDrained p => Sys2Proof.Machine.execModelSwitchDrained p s
  | .modelSwitchComplete p => Sys2Proof.Machine.execModelSwitchComplete p s
  | .soSignal tag so strb data => Sys2Proof.Machine.execSoSignal tag so strb data s
  | .soAdd tag so strb data => Sys2Proof.Machine.execSoAdd tag so strb data s
  | .soForce tag so strb data => Sys2Proof.Machine.execSoForce tag so strb data s
  | .syncBankApply bank => Sys2Proof.Machine.execSyncBankApply bank s
  | .wakePass => Sys2Proof.Machine.execWakePass s
  | .fenceReadReturn fab mtag gen err line => Sys2Proof.Machine.execFenceReadReturn fab mtag gen err line s
  | .pollInterval order => Sys2Proof.Machine.execPollInterval order s
  | .watchNotify watch gen value => Sys2Proof.Machine.execWatchNotify watch gen value s
  | .mirrorRetry => Sys2Proof.Machine.execMirrorRetry s
  | .fetchAdd tag => Sys2Proof.Machine.execFetchAdd tag s
  | .atomMax tag => Sys2Proof.Machine.execAtomMax tag s
  | .compareSwap tag => Sys2Proof.Machine.execCompareSwap tag s
  | .atomResult fab mtag gen err old => Sys2Proof.Machine.execAtomResult fab mtag gen err old s
  | .mirrorEnable tag => Sys2Proof.Machine.execMirrorEnable tag s
  | .mirrorEntryEnable tag en so => Sys2Proof.Machine.execMirrorEntryEnable tag en so s
  | .register tag id pin => Sys2Proof.Machine.execRegister tag id pin s
  | .replace tag id pin => Sys2Proof.Machine.execReplace tag id pin s
  | .retire tag id => Sys2Proof.Machine.execRetire tag id s
  | .setPin tag id pin => Sys2Proof.Machine.execSetPin tag id pin s
  | .tmplCmdDone p write mtag gen err lines => Sys2Proof.Machine.execTmplCmdDone p write mtag gen err lines s
  | .launchPlace stream => Sys2Proof.Machine.execLaunchPlace stream s
  | .imemLoadDone core mtag gen err lines => Sys2Proof.Machine.execImemLoadDone core mtag gen err lines s
  | .add core thread => Sys2Proof.Machine.execAdd core thread s
  | .sub core thread => Sys2Proof.Machine.execSub core thread s
  | .and core thread => Sys2Proof.Machine.execAnd core thread s
  | .or core thread => Sys2Proof.Machine.execOr core thread s
  | .xor core thread => Sys2Proof.Machine.execXor core thread s
  | .sll core thread => Sys2Proof.Machine.execSll core thread s
  | .srl core thread => Sys2Proof.Machine.execSrl core thread s
  | .sra core thread => Sys2Proof.Machine.execSra core thread s
  | .mul core thread => Sys2Proof.Machine.execMul core thread s
  | .mulhu core thread => Sys2Proof.Machine.execMulhu core thread s
  | .slt core thread => Sys2Proof.Machine.execSlt core thread s
  | .sltu core thread => Sys2Proof.Machine.execSltu core thread s
  | .min core thread => Sys2Proof.Machine.execMin core thread s
  | .max core thread => Sys2Proof.Machine.execMax core thread s
  | .minu core thread => Sys2Proof.Machine.execMinu core thread s
  | .maxu core thread => Sys2Proof.Machine.execMaxu core thread s
  | .addi core thread => Sys2Proof.Machine.execAddi core thread s
  | .andi core thread => Sys2Proof.Machine.execAndi core thread s
  | .ori core thread => Sys2Proof.Machine.execOri core thread s
  | .xori core thread => Sys2Proof.Machine.execXori core thread s
  | .slli core thread => Sys2Proof.Machine.execSlli core thread s
  | .srli core thread => Sys2Proof.Machine.execSrli core thread s
  | .srai core thread => Sys2Proof.Machine.execSrai core thread s
  | .lui core thread => Sys2Proof.Machine.execLui core thread s
  | .slti core thread => Sys2Proof.Machine.execSlti core thread s
  | .ld core thread => Sys2Proof.Machine.execLd core thread s
  | .lw core thread => Sys2Proof.Machine.execLw core thread s
  | .sd core thread => Sys2Proof.Machine.execSd core thread s
  | .sw core thread => Sys2Proof.Machine.execSw core thread s
  | .rdp core thread => Sys2Proof.Machine.execRdp core thread s
  | .wrp core thread => Sys2Proof.Machine.execWrp core thread s
  | .beq core thread => Sys2Proof.Machine.execBeq core thread s
  | .bne core thread => Sys2Proof.Machine.execBne core thread s
  | .blt core thread => Sys2Proof.Machine.execBlt core thread s
  | .bge core thread => Sys2Proof.Machine.execBge core thread s
  | .bltu core thread => Sys2Proof.Machine.execBltu core thread s
  | .bgeu core thread => Sys2Proof.Machine.execBgeu core thread s
  | .jal core thread => Sys2Proof.Machine.execJal core thread s
  | .jalr core thread => Sys2Proof.Machine.execJalr core thread s
  | .csrr core thread => Sys2Proof.Machine.execCsrr core thread s
  | .issue core thread => Sys2Proof.Machine.execIssue core thread s
  | .issuew core thread => Sys2Proof.Machine.execIssuew core thread s
  | .qdepth core thread => Sys2Proof.Machine.execQdepth core thread s
  | .waitn core thread => Sys2Proof.Machine.execWaitn core thread s
  | .waitnDone core thread => Sys2Proof.Machine.execWaitnDone core thread s
  | .patchv core thread => Sys2Proof.Machine.execPatchv core thread s
  | .copyc core thread => Sys2Proof.Machine.execCopyc core thread s
  | .endProg core thread => Sys2Proof.Machine.execEndProg core thread s
  | .resume tag core => Sys2Proof.Machine.execResume tag core s
  | .stepThread tag core => Sys2Proof.Machine.execStepThread tag core s
  | .halt tag core => Sys2Proof.Machine.execHalt tag core s
  | .imemLoad tag core lock part => Sys2Proof.Machine.execImemLoad tag core lock part s
  | .imemInval tag core all part => Sys2Proof.Machine.execImemInval tag core all part s
  | .admission group => Sys2Proof.Machine.execAdmission group s
  | .grant group => Sys2Proof.Machine.execGrant group s
  | .commandTransfer port => Sys2Proof.Machine.execCommandTransfer port s
  | .reportAccept group shown => Sys2Proof.Machine.execReportAccept group shown s
  | .reportMerge => Sys2Proof.Machine.execReportMerge s
  | .scalInit tag scale => Sys2Proof.Machine.execScalInit tag scale s
  | .scalCfg tag k format => Sys2Proof.Machine.execScalCfg tag k format s
  | .launchComplete stream seq => Sys2Proof.Machine.execLaunchComplete stream seq s
  | .fevReadReturn mtag gen err lines => Sys2Proof.Machine.execFevReadReturn mtag gen err lines s
  | .auditDigestDone => Sys2Proof.Machine.execAuditDigestDone s
  | .auditWriteAck mtag gen err => Sys2Proof.Machine.execAuditWriteAck mtag gen err s
  | .recordWriteAck mtag gen err => Sys2Proof.Machine.execRecordWriteAck mtag gen err s
  | .fenceWriteAck fab mtag gen err old => Sys2Proof.Machine.execFenceWriteAck fab mtag gen err old s
  | .msgHoldoffTick => Sys2Proof.Machine.execMsgHoldoffTick s
  | .refresh tag func => Sys2Proof.Machine.execRefresh tag func s
  | .fevFlush tag func => Sys2Proof.Machine.execFevFlush tag func s
  | .flushAll tag => Sys2Proof.Machine.execFlushAll tag s
  | .sourceAssert source level => Sys2Proof.Machine.execSourceAssert source level s
  | .claim tag target => Sys2Proof.Machine.execClaim tag target s
  | .complete tag target source => Sys2Proof.Machine.execComplete tag target source s
  | .holdoffExpire group => Sys2Proof.Machine.execHoldoffExpire group s
  | .swSet tag word bits => Sys2Proof.Machine.execSwSet tag word bits s
  | .swClear tag word bits => Sys2Proof.Machine.execSwClear tag word bits s
  | .arm tag => Sys2Proof.Machine.execArm tag s
  | .armDone => Sys2Proof.Machine.execArmDone s
  | .go tag => Sys2Proof.Machine.execGo tag s
  | .runStart => Sys2Proof.Machine.execRunStart s
  | .disarm tag => Sys2Proof.Machine.execDisarm tag s
  | .regProg tag part => Sys2Proof.Machine.execRegProg tag part s
  | .regModel tag part => Sys2Proof.Machine.execRegModel tag part s
  | .unregProg tag part => Sys2Proof.Machine.execUnregProg tag part s
  | .unregModel tag part => Sys2Proof.Machine.execUnregModel tag part s
  | .digCmdDone write mtag gen err lines => Sys2Proof.Machine.execDigCmdDone write mtag gen err lines s
  | .lookupAdmit stream => Sys2Proof.Machine.execLookupAdmit stream s
  | .indexListReturn mtag gen err lines => Sys2Proof.Machine.execIndexListReturn mtag gen err lines s
  | .indexInsert => Sys2Proof.Machine.execIndexInsert s
  | .windowTimer p => Sys2Proof.Machine.execWindowTimer p s
  | .windowSeal => Sys2Proof.Machine.execWindowSeal s
  | .mapWriteAck mtag gen err => Sys2Proof.Machine.execMapWriteAck mtag gen err s
  | .reload tag part => Sys2Proof.Machine.execReload tag part s
  | .reloadDone mtag gen err lines => Sys2Proof.Machine.execReloadDone mtag gen err lines s
  | .epochAdvance stream => Sys2Proof.Machine.execEpochAdvance stream s
  | .epochCommit p => Sys2Proof.Machine.execEpochCommit p s
  | .reefTakeEvent => Sys2Proof.Machine.execReefTakeEvent s
  | .quietTimerExpire => Sys2Proof.Machine.execQuietTimerExpire s
  | .pageFaultTimerExpire page => Sys2Proof.Machine.execPageFaultTimerExpire page s
  | .inject tag sev => Sys2Proof.Machine.execInject tag sev s
  | .scrubPass => Sys2Proof.Machine.execScrubPass s
  | .sramSbe site => Sys2Proof.Machine.execSramSbe site s
  | .sramDbe site => Sys2Proof.Machine.execSramDbe site s
  | .heartbeat tag value => Sys2Proof.Machine.execHeartbeat tag value s
  | .heartbeatLost => Sys2Proof.Machine.execHeartbeatLost s
  | .haltChange a b => Sys2Proof.Machine.execHaltChange a b s
  | .haltDisc => Sys2Proof.Machine.execHaltDisc s
  | .engineHang port => Sys2Proof.Machine.execEngineHang port s
  | .stall p => Sys2Proof.Machine.execStall p s
  | .partition p => Sys2Proof.Machine.execPartition p s
  | .partResetDrained p => Sys2Proof.Machine.execPartResetDrained p s
  | .partResetPortsDone p => Sys2Proof.Machine.execPartResetPortsDone p s
  | .partResetDone p => Sys2Proof.Machine.execPartResetDone p s
  | .block => Sys2Proof.Machine.execBlock s
  | .keeperGraceExpire => Sys2Proof.Machine.execKeeperGraceExpire s
  | .blockResetDrained => Sys2Proof.Machine.execBlockResetDrained s
  | .blockResetPortsDone => Sys2Proof.Machine.execBlockResetPortsDone s
  | .blockResetSettled => Sys2Proof.Machine.execBlockResetSettled s
  | .initDone => Sys2Proof.Machine.execInitDone s
  | .dumpBeat port last data => Sys2Proof.Machine.execDumpBeat port last data s
  | .dumpBeatTimeout port => Sys2Proof.Machine.execDumpBeatTimeout port s
  | .dumpDone mtag gen err => Sys2Proof.Machine.execDumpDone mtag gen err s
  | .addPort tag port => Sys2Proof.Machine.execAddPort tag port s
  | .remove tag port => Sys2Proof.Machine.execRemove tag port s
  | .readmit tag port => Sys2Proof.Machine.execReadmit tag port s
  | .engineReset tag port => Sys2Proof.Machine.execEngineReset tag port s
  | .engineResetAck port depth => Sys2Proof.Machine.execEngineResetAck port depth s
  | .resetTimeout port => Sys2Proof.Machine.execResetTimeout port s
  | .deferredPortChange port => Sys2Proof.Machine.execDeferredPortChange port s
  | .idleEntry => Sys2Proof.Machine.execIdleEntry s
  | .idleExit => Sys2Proof.Machine.execIdleExit s
  | .drowse tag => Sys2Proof.Machine.execDrowse tag s
  | .off tag => Sys2Proof.Machine.execOff tag s
  | .autoDrowse => Sys2Proof.Machine.execAutoDrowse s
  | .entryAbort => Sys2Proof.Machine.execEntryAbort s
  | .pwrAck dom level => Sys2Proof.Machine.execPwrAck dom level s
  | .ackTimeout dom => Sys2Proof.Machine.execAckTimeout dom s
  | .wake cause => Sys2Proof.Machine.execWake cause s
  | .wakeTimer => Sys2Proof.Machine.execWakeTimer s
  | .wakeDone => Sys2Proof.Machine.execWakeDone s
  | .coldReset asserted => Sys2Proof.Machine.execColdReset asserted s
  | .clockMeasure mhz => Sys2Proof.Machine.execClockMeasure mhz s
  | .alignReq level => Sys2Proof.Machine.execAlignReq level s
  | .alignCheckDone failMask => Sys2Proof.Machine.execAlignCheckDone failMask s
  | .alignLost failMask => Sys2Proof.Machine.execAlignLost failMask s
  | .timeSync => Sys2Proof.Machine.execTimeSync s
  | .syncLost => Sys2Proof.Machine.execSyncLost s
  | .timeSet tag value => Sys2Proof.Machine.execTimeSet tag value s
  | .keeperBoot store => Sys2Proof.Machine.execKeeperBoot store s
  | .restart tag => Sys2Proof.Machine.execRestart tag s
  | .trialTimeout => Sys2Proof.Machine.execTrialTimeout s
  | .load tag slot => Sys2Proof.Machine.execLoad tag slot s
  | .activate tag slot => Sys2Proof.Machine.execActivate tag slot s
  | .confirm tag slot => Sys2Proof.Machine.execConfirm tag slot s
  | .erase tag slot => Sys2Proof.Machine.execErase tag slot s
  | .mboxCmdDone write mtag gen err lines => Sys2Proof.Machine.execMboxCmdDone write mtag gen err lines s
  | .linkDown link => Sys2Proof.Machine.execLinkDown link s
  | .linkActive link => Sys2Proof.Machine.execLinkActive link s
  | .ctxRecordAccessDone write mtag gen err lines => Sys2Proof.Machine.execCtxRecordAccessDone write mtag gen err lines s
  | .mirrorWriteResult fab mtag gen err old => Sys2Proof.Machine.execMirrorWriteResult fab mtag gen err old s
  | .msgWriteAck mtag gen err => Sys2Proof.Machine.execMsgWriteAck mtag gen err s
  | .watchCancelDone mtag gen err => Sys2Proof.Machine.execWatchCancelDone mtag gen err s
  | .aliveToggle => Sys2Proof.Machine.execAliveToggle s
  | .deviceTimeTick => Sys2Proof.Machine.execDeviceTimeTick s
  | .traceRecordOut => Sys2Proof.Machine.execTraceRecordOut s
  | .launchCopyLine core thread => Sys2Proof.Machine.execLaunchCopyLine core thread s
  | .entryFlushDone => Sys2Proof.Machine.execEntryFlushDone s

end Sys2Proof.Machine
end

