-- ==== Sys2Proof/Machine/Tick.lean ====
section
/-! DEFINITION. One CCLK edge on which nothing is commanded (log entry 5): the counts that advance by themselves. -/
namespace Sys2Proof.Machine

/-- A thread that waits for nothing any more goes on, and a RUNNING one whose launch's first lines are absent stalls (R203, R227). -/
def Thread.unstall (th : Thread) : Thread :=
  match th.st, th.stall with
  | .stalled, .retry => { th with st := .running, stall := .none }
  | .stalled, .line n => if n < th.arrived then { th with st := .running, stall := .none } else th
  | .running, .start => { th with st := .stalled }
  | _, _ => th

/-- A thread at a CCLK edge: CYCLE counts (R211), the time since the last grant (R198), and COUNT of a WAITN (R224), except in BREAK
and QUIESCED. -/
def Thread.tick (th : Thread) : Thread :=
  let th := th.unstall
  let waits := decide (th.st = .waiting) || (decide (th.st = .running) && decide (th.progress.extractLsb' 60 4 = 0xB#4))
  if th.st = .free then th
  else { th with
    cycle := th.cycle + 1, idle := th.idle + 1
    progress := if waits then progressOf 3 (min (th.count + 1) (2 ^ 48 - 1)) else th.progress }

/-- The threads of a core at a CCLK edge. -/
def Core.tick (c : Core) : Core := { c with threads := Tbl.remap (fun _ => Thread.reset) Thread.tick c.threads }

/-- CCLK runs: it is gated in IDLE and stopped outside ACTIVE and the first steps of an entry (R524, R530); in test mode the test
logic takes the functional clocks over (R547, R612). -/
def State.clocked (s : State) : Bool :=
  !s.test.mode && match s.pwr.mode with
  | .active => true
  | .entering => !s.pwr.flushed
  | .idle | .down | .waking => false

/-- A CCLK edge: the count of CCLKs, the threads, the flits that have gone down the links, the CCLK view of device time (R556) and the quiet time (R524). -/
def State.tick (s : State) : State :=
  if s.clocked then
    { s with
      cclk := s.cclk + 1
      cores := Tbl.remap (fun _ => Core.reset) Core.tick s.cores
      cw := { s.cw with down := [] }
      view := if s.viewHeld then s.view else s.view + s.viewInc }.quietTick
  else s

end Sys2Proof.Machine
end

