-- ==== Sys2Proof/Safety.lean ====
section
/-! DEFINITION. What counts as a sound state, and the terms in which the statements say what a command does. -/
namespace Sys2Proof.Machine

/-! ## Canonical stores -/

/-- The cores of a state are canonical, each with canonical threads. -/
def coresOk (t : Tbl Core) : Bool :=
  Tbl.wf (fun _ => Core.reset) t && t.all (fun x => Tbl.wf (fun _ => Thread.reset) x.2.threads)

/-- The sparse stores of a state are canonical: keys rise strictly and no pair holds what an unlisted key reads as, so that stores
of equal contents are equal data. -/
def State.canonical (s : State) : Bool :=
  Tbl.wf regReset s.regs &&
  Tbl.wf (fun _ => 0#16) s.fpmA &&
  Tbl.wf (fun _ => 0#16) s.fpmB &&
  Tbl.wf (fun _ => 0#256) s.pmapA &&
  Tbl.wf (fun _ => 0#256) s.pmapB &&
  Tbl.wf (fun _ => StreamE.reset) s.streams &&
  Tbl.wf (fun _ => none) s.entries &&
  coresOk s.cores &&
  Tbl.wf (fun _ => Port.reset) s.ports &&
  Tbl.wf (fun _ => ScaleE.reset) s.scales &&
  Tbl.wf (fun _ => 0) s.progT &&
  Tbl.wf (fun _ => Slot.reset) s.harb.slots &&
  Tbl.wf (fun _ => SyncObj.reset) s.sync.objs &&
  Tbl.wf (fun _ => ⟨none, false⟩) s.sync.watches &&
  Tbl.wf (fun _ => ⟨false, false, false⟩) s.sync.mirrors

/-! ## Skerry instructions -/

/-- A thread that has executed one instruction and goes on at `pc` (R198, R209, R211, R222, R229): RETIRED has counted it, and
nothing is kept of a long instruction, of a breakpoint passed or of a step. -/
def Thread.after (th : Thread) (pc : Nat) : Thread :=
  { th with
    pc := pc, idle := 0, retired := satAdd th.retired 1, progress := 0, resumed := false, counted := false, patched := false,
    stepping := false, stall := .none }

/-- What an instruction of thread `t` of core `c` leaves as it is: every other thread, but for the note that it lost the slot
(R239); every register but SKRY.PREEMPTS of the core; the banks and loads of the cores; and all that is neither a core, a
register nor a time of progress. -/
structure LeavesRest (s s' : State) (c : BitVec 4) (t : BitVec 3) : Prop where
  others : ∀ c' t', c' ≠ c ∨ t' ≠ t → { s'.thread c' t' with counted := (s.thread c' t').counted } = s.thread c' t'
  banks : ∀ c', { s'.core c' with threads := [], lastThread := 0 } = { s.core c' with threads := [], lastThread := 0 }
  regs : ∀ key, key ≠ rSKRY c 0x94 → s'.rd key = s.rd key
  rest : { s' with cores := s.cores, regs := s.regs, progT := s.progT } = s

/-- The command answers a next state in which the thread is `th'` and all else is left as it is. -/
def Runs (i : Instr) (s : State) (c : BitVec 4) (t : BitVec 3) (th' : Thread) : Prop :=
  ∃ s', exec i s = .next s' ∧ s'.thread c t = th' ∧ LeavesRest s s' c t

/-- Thread `t` of core `c` stands at the instruction `w`, has the slot (R198), and no breakpoint stops it before its first
instruction (R228). -/
def State.at (s : State) (c : BitVec 4) (t : BitVec 3) (w : Word) : Bool :=
  s.canonical && s.mayRun c t && !s.brkAtFirst c t && decide (s.insn c t = w)

/-- The thread does not run on to the end of its program when it goes on at PC + 4 (R216). -/
def State.notLast (s : State) (c : BitVec 4) (t : BitVec 3) : Bool :=
  decide ((s.thread c t).pc + 4 ≠ blkLen ((s.thread c t).lines.getD 0 0))

/-- Thread `t` of core `c` stands at the instruction `w`, has the slot, and does not run on to the end of its program. -/
def State.standsAt (s : State) (c : BitVec 4) (t : BitVec 3) (w : Word) : Bool := s.at c t w && s.notLast c t

/-- As `LeavesRest`, but the entry of launch `k` becomes `e'`. -/
structure LeavesRestBut (s s' : State) (c : BitVec 4) (t : BitVec 3) (k : EKey) (e' : Entry) : Prop where
  entry : s'.entry k = some e'
  entries : ∀ k', k' ≠ k → s'.entry k' = s.entry k'
  rest : LeavesRest { s with entries := s'.entries } s' c t

/-- Thread `t` of core `c` stands at `w` and runs the launch `k`, whose entry is `e`; no breakpoint counts its issues. -/
def State.issuesAt (s : State) (c : BitVec 4) (t : BitVec 3) (w : Word) (k : EKey) (e : Entry) : Bool :=
  s.standsAt c t w && decide ((s.thread c t).launch = some k) && decide (s.entry k = some e) && !s.flag (rSKRY c 0x5C) 31

/-- Operation `i` is one that steps 1 to 3 of R217 let be issued: below OP_COUNT, its line in place, not issued, and every operation
that it depends on issued. -/
def State.mayIssue (s : State) (c : BitVec 4) (t : BitVec 3) (e : Entry) (i : Nat) : Bool :=
  decide (i < blkOps ((s.thread c t).lines.getD 0 0)) && (s.thread c t).present (.op i 0) && decide (i < e.ops.length) &&
    decide (e.ops.getD i .idle = .idle) && e.depsIssued (s.opLine e i) i

/-! ## Register accesses -/

/-- A privileged write of a register of the page in a slot takes effect at once: the block is ACTIVE, INIT_DONE stands, the tag is
privileged, the page is assigned and present, its unit is powered and in service, no soft reset of it runs, and no earlier access
waits for a sync bank (R34, R38, R44, R45, R48, R50, R515, R583, R629). -/
def State.reaches (s : State) (tag : BitVec 13) (slot : Nat) (k : PageKind) (inst : Nat) : Bool :=
  decide (s.pwr.mode = .active) && s.flag (pageAddr pGLBL 0x70) 0 && tag.getLsbD 12 && decide (pageAt slot = some (k, inst)) &&
    (decide (k ≠ .eprt) || decide (inst < s.ecpCount)) && s.unitOn k inst && !s.srstBusy slot && !s.rdp.waits

/-- The command answers a next state: `u`, with the RDP answer 0 and no error (R580). -/
def Answers (i : Instr) (s u : State) : Prop := exec i s = .next (u.answerRdp 0 0)

/-- The registers outside `keys` hold what they held. -/
def RegsBut (s s' : State) (keys : List Nat) : Prop := ∀ key, key ∉ keys → s'.rd key = s.rd key

/-- An access of a doorbell page, or of the sync-object window, takes effect at once: the block is ACTIVE and in service, and
INIT_DONE stands, and no earlier access waits for a sync bank (R38, R50, R515, R583). -/
def State.serves (s : State) : Bool := decide (s.pwr.mode = .active) && s.flag (pageAddr pGLBL 0x70) 0 && !s.oos && !s.rdp.waits

/-- The tag may reach function `f`'s doorbell page (R34). -/
def mayRing (tag : BitVec 13) (f : BitVec 12) : Bool := tag.getLsbD 12 || decide (tag.extractLsb' 0 12 = f)

/-- No run of R452 records timing breaks now. -/
def State.noRun (s : State) : Bool := !s.runOn

/-- A register word of which the `rw` bits have been written with those of `v` (R41). -/
def State.stored (s : State) (key : Nat) (rw v : Word) : State := s.wr key ((s.rd key &&& ~~~rw) ||| (v &&& rw))

/-- The tag may reach sync object `n` (R34, R269). -/
def State.mayTouch (s : State) (tag : BitVec 13) (n : Nat) : Bool :=
  tag.getLsbD 12 || (match s.partOf (tag.extractLsb' 0 12) with | some p => s.soIn p n | none => false)

/-- A request that has just been issued at MMP's read channel for `n` lines, or at its write channel. -/
def State.asksRead (s : State) (a : Addr) (n : Nat) (why : Why) : MReq :=
  ⟨freeTag s.mmp .fetch, .fetch, s.mmpGen, .read, a, 64 * n, [], why⟩

/-- A write request that has just been issued. -/
def State.asksWrite (s : State) (a : Addr) (len : Nat) (data : List Line) (why : Why) : MReq :=
  ⟨freeTag s.mmp .writeback, .writeback, s.mmpGen, .write, a, len, data, why⟩

/-- The answer that comes in is the one that `q` waits for; `u` is the state without the request (R507, R589). -/
def State.gets (s : State) (read : Bool) (tag : BitVec 8) (gen : BitVec 4) (u : State) (q : MReq) : Prop :=
  s.answer read tag gen = (u, some q)

/-- As `State.gets`, for an answer of MMP's write channel or of FAP. -/
def State.getsAtom (s : State) (fab : Bool) (tag : BitVec 8) (gen : BitVec 4) (u : State) (q : MReq) : Prop :=
  s.answerAtom fab tag gen = (u, some q)

end Sys2Proof.Machine
end

