-- ==== Sys2Proof/WellFormed.lean ====
section
/-! DEFINITION. Commands whose operands the block's ports can carry. A meaning that is given a list of the wrong length stops with
the fault illFormed; every other operand is carried by its type. -/
namespace Sys2Proof

/-- A read answer brings one to eight lines (spec/20 R584, MMP_RREQ_LEN), or none with an error. -/
def readOk (lines : List Line) : Bool := decide (lines.length ≤ 8)

/-- An answer of a command that both reads and writes: a write acknowledgement brings no line. -/
def answerOk (write : Bool) (lines : List Line) : Bool := if write then lines.isEmpty else readOk lines

/-- A collector is shown at most one report by each of its sixteen ports (spec/12 R403). -/
def shownOk (group : BitVec 3) (shown : List Report) : Bool :=
  shown.all (fun r => decide (r.port.toNat / 16 = group.toNat)) && decide ((shown.map (fun r => r.port.toNat)).Nodup)

/-- A firmware slot has 4,096 lines (spec/19 R563); the lines that the command does not list read as zero. -/
def storeOk (store : KeeperStore) : Bool := decide (store.slotA.length ≤ 4096) && decide (store.slotB.length ≤ 4096)

/-- The check of a command. -/
def Instr.wellFormed : Instr → Bool
  | .registerWrite _ _ _ _ => true
  | .ifNegotiate _ _ _ => true
  | .softReset _ _ => true
  | .srstComplete _ => true
  | .unitEnable _ _ _ => true
  | .partEnable _ _ => true
  | .partDisable _ _ => true
  | .funcRangeWrite _ _ _ _ => true
  | .harbQuotaWrite _ _ _ => true
  | .integDeclare _ _ _ => true
  | .integLock _ => true
  | .create _ _ _ => true
  | .destroy _ _ _ => true
  | .flush _ _ _ _ => true
  | .handleInval _ _ _ => true
  | .ctxCmdDone _ write _ _ _ lines => answerOk write lines
  | .doorbell _ _ _ _ _ => true
  | .pause _ _ _ => true
  | .resumeStream _ _ _ => true
  | .inval _ _ _ _ => true
  | .streamEnable _ => true
  | .streamDisable _ => true
  | .channelTakeStream _ => true
  | .prefetch _ => true
  | .ringReadReturn _ _ _ lines => readOk lines
  | .releaseWriteAck _ _ _ => true
  | .ferryInputReady _ _ _ _ lines => readOk lines
  | .ferrySlice => true
  | .harbourRecordArrives _ _ _ lines => readOk lines
  | .harbourQueueServe => true
  | .handleEntryReturn _ _ _ lines => readOk lines
  | .parkWriteAck _ _ _ => true
  | .parkReadbackReturn _ _ _ lines => readOk lines
  | .signalEntryApply _ => true
  | .barrierPass _ => true
  | .streamTimeout _ => true
  | .modelSwitch _ => true
  | .modelSwitchDrained _ => true
  | .modelSwitchComplete _ => true
  | .soSignal _ _ _ _ => true
  | .soAdd _ _ _ _ => true
  | .soForce _ _ _ _ => true
  | .syncBankApply _ => true
  | .wakePass => true
  | .fenceReadReturn _ _ _ _ _ => true
  | .pollInterval _ => true
  | .watchNotify _ _ _ => true
  | .mirrorRetry => true
  | .fetchAdd _ => true
  | .atomMax _ => true
  | .compareSwap _ => true
  | .atomResult _ _ _ _ _ => true
  | .mirrorEnable _ => true
  | .mirrorEntryEnable _ _ _ => true
  | .register _ _ _ => true
  | .replace _ _ _ => true
  | .retire _ _ => true
  | .setPin _ _ _ => true
  | .tmplCmdDone _ write _ _ _ lines => answerOk write lines
  | .launchPlace _ => true
  | .imemLoadDone _ _ _ _ lines => readOk lines
  | .add _ _ => true
  | .sub _ _ => true
  | .and _ _ => true
  | .or _ _ => true
  | .xor _ _ => true
  | .sll _ _ => true
  | .srl _ _ => true
  | .sra _ _ => true
  | .mul _ _ => true
  | .mulhu _ _ => true
  | .slt _ _ => true
  | .sltu _ _ => true
  | .min _ _ => true
  | .max _ _ => true
  | .minu _ _ => true
  | .maxu _ _ => true
  | .addi _ _ => true
  | .andi _ _ => true
  | .ori _ _ => true
  | .xori _ _ => true
  | .slli _ _ => true
  | .srli _ _ => true
  | .srai _ _ => true
  | .lui _ _ => true
  | .slti _ _ => true
  | .ld _ _ => true
  | .lw _ _ => true
  | .sd _ _ => true
  | .sw _ _ => true
  | .rdp _ _ => true
  | .wrp _ _ => true
  | .beq _ _ => true
  | .bne _ _ => true
  | .blt _ _ => true
  | .bge _ _ => true
  | .bltu _ _ => true
  | .bgeu _ _ => true
  | .jal _ _ => true
  | .jalr _ _ => true
  | .csrr _ _ => true
  | .issue _ _ => true
  | .issuew _ _ => true
  | .qdepth _ _ => true
  | .waitn _ _ => true
  | .waitnDone _ _ => true
  | .patchv _ _ => true
  | .copyc _ _ => true
  | .endProg _ _ => true
  | .resume _ _ => true
  | .stepThread _ _ => true
  | .halt _ _ => true
  | .imemLoad _ _ _ _ => true
  | .imemInval _ _ _ _ => true
  | .admission _ => true
  | .grant _ => true
  | .commandTransfer _ => true
  | .reportAccept group shown => shownOk group shown
  | .reportMerge => true
  | .scalInit _ _ => true
  | .scalCfg _ _ _ => true
  | .launchComplete _ _ => true
  | .fevReadReturn _ _ _ lines => readOk lines
  | .auditDigestDone => true
  | .auditWriteAck _ _ _ => true
  | .recordWriteAck _ _ _ => true
  | .fenceWriteAck _ _ _ _ _ => true
  | .msgHoldoffTick => true
  | .refresh _ _ => true
  | .fevFlush _ _ => true
  | .flushAll _ => true
  | .sourceAssert _ _ => true
  | .claim _ _ => true
  | .complete _ _ _ => true
  | .holdoffExpire _ => true
  | .swSet _ _ _ => true
  | .swClear _ _ _ => true
  | .arm _ => true
  | .armDone => true
  | .go _ => true
  | .runStart => true
  | .disarm _ => true
  | .regProg _ _ => true
  | .regModel _ _ => true
  | .unregProg _ _ => true
  | .unregModel _ _ => true
  | .digCmdDone write _ _ _ lines => answerOk write lines
  | .lookupAdmit _ => true
  | .indexListReturn _ _ _ lines => readOk lines
  | .indexInsert => true
  | .windowTimer _ => true
  | .windowSeal => true
  | .mapWriteAck _ _ _ => true
  | .reload _ _ => true
  | .reloadDone _ _ _ lines => readOk lines
  | .epochAdvance _ => true
  | .epochCommit _ => true
  | .reefTakeEvent => true
  | .quietTimerExpire => true
  | .pageFaultTimerExpire _ => true
  | .inject _ _ => true
  | .scrubPass => true
  | .sramSbe _ => true
  | .sramDbe _ => true
  | .heartbeat _ _ => true
  | .heartbeatLost => true
  | .haltChange _ _ => true
  | .haltDisc => true
  | .engineHang _ => true
  | .stall _ => true
  | .partition _ => true
  | .partResetDrained _ => true
  | .partResetPortsDone _ => true
  | .partResetDone _ => true
  | .block => true
  | .keeperGraceExpire => true
  | .blockResetDrained => true
  | .blockResetPortsDone => true
  | .blockResetSettled => true
  | .initDone => true
  | .dumpBeat _ _ _ => true
  | .dumpBeatTimeout _ => true
  | .dumpDone _ _ _ => true
  | .addPort _ _ => true
  | .remove _ _ => true
  | .readmit _ _ => true
  | .engineReset _ _ => true
  | .engineResetAck _ _ => true
  | .resetTimeout _ => true
  | .deferredPortChange _ => true
  | .idleEntry => true
  | .idleExit => true
  | .drowse _ => true
  | .off _ => true
  | .autoDrowse => true
  | .entryAbort => true
  | .pwrAck _ _ => true
  | .ackTimeout _ => true
  | .wake _ => true
  | .wakeTimer => true
  | .wakeDone => true
  | .coldReset _ => true
  | .clockMeasure mhz => decide (mhz.length = 12)
  | .alignReq _ => true
  | .alignCheckDone _ => true
  | .alignLost _ => true
  | .timeSync => true
  | .syncLost => true
  | .timeSet _ _ => true
  | .keeperBoot store => storeOk store
  | .restart _ => true
  | .trialTimeout => true
  | .load _ _ => true
  | .activate _ _ => true
  | .confirm _ _ => true
  | .erase _ _ => true
  | .mboxCmdDone write _ _ _ lines => answerOk write lines
  | .linkDown _ => true
  | .linkActive _ => true
  | .ctxRecordAccessDone write _ _ _ lines => answerOk write lines
  | .mirrorWriteResult _ _ _ _ _ => true
  | .msgWriteAck _ _ _ => true
  | .watchCancelDone _ _ _ => true
  | .aliveToggle => true
  | .deviceTimeTick => true
  | .traceRecordOut => true
  | .launchCopyLine _ _ => true
  | .entryFlushDone => true

end Sys2Proof
end

