-- ==== Sys2Proof/Certificates/Slice0/Obligations.lean ====
section
/-! DEFINITION. The statements about the model. -/

open Sys2Proof Sys2Proof.Machine

/-! ## Skerry instructions (spec/06_skerry_cores.md) -/

/-- R209: x0 reads 0 and discards writes; every other register of a thread reads what was written to it, and the others keep
their values. R210: RDP reads a parameter slot zero-extended, WRP writes one, and both go on at PC + 4; nothing else changes.
R211: CSRR writes the special register that imm16[7:0] names to rd, zero-extended, and goes on at PC + 4; the sixteen numbers
and their values. -/
def Obligations.RegisterFileAndPages : Prop :=
  (∀ (th : Thread) (n m : Nat) (v : Dword), n < 32 → m < 32 →
    (th.setReg n v).reg m = if m = 0 then 0 else if m = n then v else th.reg m) ∧
  (∀ (s : State) (c : BitVec 4) (t : BitVec 3) (w : Word), s.standsAt c t w = true →
    let th := s.thread c t
    let i := (th.reg (iRs1 w) + BitVec.ofInt 64 (w.extractLsb' 0 16).toInt).toNat
    (hi : i < 32) →
    (iOp w = 0x16 → Runs (.rdp c t) s c t ((th.setReg (iRd w) (BitVec.ofNat 64 (th.slots[i]).toNat)).after (th.pc + 4))) ∧
    (iOp w = 0x17 →
      Runs (.wrp c t) s c t (({ th with slots := th.slots.set i (BitVec.ofNat 32 (th.reg (iRd w)).toNat) }).after (th.pc + 4)))) ∧
  (∀ (s : State) (c : BitVec 4) (t : BitVec 3) (w : Word) (k : EKey) (e : Entry), s.standsAt c t w = true →
    (s.thread c t).launch = some k → s.entry k = some e → iOp w = 0x20 → iRs1 w = 0 →
    let th := s.thread c t
    let b := th.lines.getD 0 0
    let reads := fun (n : Nat) (v : Dword) =>
      w.extractLsb' 0 16 = BitVec.ofNat 16 n → Runs (.csrr c t) s c t ((th.setReg (iRd w) v).after (th.pc + 4))
    reads 0x00 (BitVec.ofNat 64 (16 * c.toNat + t.toNat)) ∧
    reads 0x01 (BitVec.ofNat 64 e.part.toNat) ∧
    reads 0x02 (BitVec.ofNat 64 e.ctx.toNat) ∧
    reads 0x03 (BitVec.ofNat 64 k.stream.toNat) ∧
    reads 0x04 (BitVec.ofNat 64 (k.stream.toNat % 4)) ∧
    reads 0x05 (BitVec.ofNat 64 (blkOps b)) ∧
    reads 0x06 (BitVec.ofNat 64 (blkP b)) ∧
    reads 0x07 (BitVec.ofNat 64 e.issued) ∧
    reads 0x08 (BitVec.ofNat 64 e.nDone) ∧
    reads 0x09 (BitVec.ofNat 64 (s.view / 65536)) ∧
    reads 0x0A (BitVec.ofNat 64 th.cycle) ∧
    reads 0x0B th.progress ∧
    reads 0x0C e.seqNo ∧
    reads 0x0D (Line.w64 b 0x20) ∧
    reads 0x0E (BitVec.ofNat 64 (Line.w32 b 0x34).toNat) ∧
    reads 0x0F (Line.w64 b 0x18))

/-- R215: the sixteen ALU instructions write their result to rd and go on at PC + 4; nothing else changes (log entry 10 names
the commands' premise that the instruction at the PC is theirs). R214: the nine instructions with an immediate write their
result to rd and go on at PC + 4; nothing else changes. -/
def Obligations.AluResults : Prop :=
  (∀ (s : State) (c : BitVec 4) (t : BitVec 3) (w : Word), s.standsAt c t w = true → iOp w = 0x01 → w.extractLsb' 4 7 = 0#7 →
    let th := s.thread c t
    let a := th.reg (iRs1 w)
    let b := th.reg (iRs2 w)
    let n := b.toNat % 64
    let gives := fun (i : Instr) (fn : Nat) (v : Dword) =>
      w.toNat % 16 = fn → Runs i s c t ((th.setReg (iRd w) v).after (th.pc + 4))
    gives (.add c t) 0 (BitVec.ofNat 64 (a.toNat + b.toNat)) ∧
    gives (.sub c t) 1 (BitVec.ofInt 64 ((a.toNat : Int) - b.toNat)) ∧
    gives (.and c t) 2 (a &&& b) ∧
    gives (.or c t) 3 (a ||| b) ∧
    gives (.xor c t) 4 (a ^^^ b) ∧
    gives (.sll c t) 5 (BitVec.ofNat 64 (a.toNat * 2 ^ n)) ∧
    gives (.srl c t) 6 (BitVec.ofNat 64 (a.toNat / 2 ^ n)) ∧
    gives (.sra c t) 7 (BitVec.ofInt 64 (a.toInt / 2 ^ n)) ∧
    gives (.mul c t) 8 (BitVec.ofNat 64 (a.toNat * b.toNat)) ∧
    gives (.mulhu c t) 9 (BitVec.ofNat 64 (a.toNat * b.toNat / 2 ^ 64)) ∧
    gives (.slt c t) 10 (if a.toInt < b.toInt then 1 else 0) ∧
    gives (.sltu c t) 11 (if a.toNat < b.toNat then 1 else 0) ∧
    gives (.min c t) 12 (if a.toInt < b.toInt then a else b) ∧
    gives (.max c t) 13 (if a.toInt < b.toInt then b else a) ∧
    gives (.minu c t) 14 (if a.toNat < b.toNat then a else b) ∧
    gives (.maxu c t) 15 (if a.toNat < b.toNat then b else a)) ∧
  (∀ (s : State) (c : BitVec 4) (t : BitVec 3) (w : Word), s.standsAt c t w = true →
    let th := s.thread c t
    let a := th.reg (iRs1 w)
    let imm := w.extractLsb' 0 16
    let n := imm.toNat % 64
    let gives := fun (i : Instr) (op : Nat) (p : Bool) (v : Dword) =>
      iOp w = op → p = true → Runs i s c t ((th.setReg (iRd w) v).after (th.pc + 4))
    let shift := fun (code : Nat) => decide (imm.toNat / 64 = code)
    gives (.addi c t) 0x02 true (BitVec.ofInt 64 (a.toInt + imm.toInt)) ∧
    gives (.andi c t) 0x03 true (a &&& BitVec.ofNat 64 imm.toNat) ∧
    gives (.ori c t) 0x04 true (a ||| BitVec.ofNat 64 imm.toNat) ∧
    gives (.xori c t) 0x05 true (a ^^^ BitVec.ofNat 64 imm.toNat) ∧
    gives (.slli c t) 0x06 (shift 0) (BitVec.ofNat 64 (a.toNat * 2 ^ n)) ∧
    gives (.srli c t) 0x06 (shift 1) (BitVec.ofNat 64 (a.toNat / 2 ^ n)) ∧
    gives (.srai c t) 0x06 (shift 2) (BitVec.ofInt 64 (a.toInt / 2 ^ n)) ∧
    gives (.lui c t) 0x07 (decide (iRs1 w = 0)) (BitVec.ofInt 64 (imm.toInt * 65536)) ∧
    gives (.slti c t) 0x08 true (if a.toInt < imm.toInt then 1 else 0))

/-- R206: where an offset of the thread's view lies: the launch block, the parameter slots, the constant buffer (present or read
as 0), the scratch area, the operation lines; every other offset lies nowhere. R203, R206, R214: LD and LW of an aligned offset
that lies somewhere and has arrived write rd and go on at PC + 4; nothing else changes. A line that has not arrived stalls the
thread at the instruction (R227). R206, R207: SD and SW to an aligned offset that has arrived and that the program may write
store there and go on at PC + 4: the words stored to read as stored, every other word of the view reads as before, and nothing
outside the thread changes. -/
def Obligations.Views : Prop :=
  (∀ (th : Thread) (a : Nat),
    let b := th.lines.getD 0 0
    (a < 0x40 → th.place a = .line 0 a) ∧
    (0x40 ≤ a → a < 0xC0 → th.place a = .slot ((a - 0x40) / 4)) ∧
    (0xC0 ≤ a → a < 0x100 → th.place a = .none) ∧
    (0x100 ≤ a → a < 0x200 → blkConst b = false → th.place a = .zero) ∧
    (0x100 ≤ a → a < 0x200 → blkConst b = true → ∃ n, th.place a = .line (1 + n + (a - 0x100) / 64) (a % 64) ∧ blkP b ≤ 16 * n ∧ 16 * n < blkP b + 16) ∧
    (0x200 ≤ a → a < 0x600 → th.place a = .scratch ((a - 0x200) / 64) (a % 64)) ∧
    (0x600 ≤ a → a < 0x4000 → th.place a = .none) ∧
    (0x4000 ≤ a → a < 0x4000 + 64 * blkOps b → th.place a = .op ((a - 0x4000) / 64) (a % 64)) ∧
    (0x4000 + 64 * blkOps b ≤ a → th.place a = .none)) ∧
  (∀ (s : State) (c : BitVec 4) (t : BitVec 3) (w : Word), s.standsAt c t w = true →
    let th := s.thread c t
    let a := (th.reg (iRs1 w) + BitVec.ofInt 64 (w.extractLsb' 0 16).toInt).toNat
    let p := th.place a
    a < 0x8000 → p ≠ .none →
    (th.present p = true →
      (iOp w = 0x10 → a % 8 = 0 →
        Runs (.ld c t) s c t ((th.setReg (iRd w) (th.rd32 (th.place (a + 4)) ++ th.rd32 p)).after (th.pc + 4))) ∧
      (iOp w = 0x11 → a % 4 = 0 →
        Runs (.lw c t) s c t ((th.setReg (iRd w) (BitVec.ofNat 64 (th.rd32 p).toNat)).after (th.pc + 4)))) ∧
    (th.present p = false →
      let waits := { th with idle := 0, stall := th.lineStall p, st := if th.st = .brk then .brk else .stalled }
      (iOp w = 0x10 → a % 8 = 0 → Runs (.ld c t) s c t waits) ∧
      (iOp w = 0x11 → a % 4 = 0 → Runs (.lw c t) s c t waits))) ∧
  (∀ (s : State) (c : BitVec 4) (t : BitVec 3) (w : Word), s.standsAt c t w = true →
    let th := s.thread c t
    let a := (th.reg (iRs1 w) + BitVec.ofInt 64 (w.extractLsb' 0 16).toInt).toNat
    let p := th.place a
    let v := th.reg (iRd w)
    let ops := ((th.launch.bind s.entry).map (·.ops)).getD []
    a < 0x8000 → p ≠ .none → th.present p = true → th.writable ops p = true →
    (iOp w = 0x15 → a % 4 = 0 → ∃ th' : Thread, Runs (.sw c t) s c t (th'.after (th.pc + 4)) ∧
      th'.rd32 p = v.extractLsb' 0 32 ∧ (∀ b, b % 4 = 0 → b ≠ a → th'.rd32 (th.place b) = th.rd32 (th.place b)) ∧
      { th' with slots := th.slots, scratch := th.scratch, lines := th.lines } = th) ∧
    (iOp w = 0x14 → a % 8 = 0 → ∃ th' : Thread, Runs (.sd c t) s c t (th'.after (th.pc + 4)) ∧
      th'.rd32 p = v.extractLsb' 0 32 ∧ th'.rd32 (th.place (a + 4)) = v.extractLsb' 32 32 ∧
      (∀ b, b % 4 = 0 → b ≠ a → b ≠ a + 4 → th'.rd32 (th.place b) = th.rd32 (th.place b)) ∧
      { th' with slots := th.slots, scratch := th.scratch, lines := th.lines } = th))

/-- R214, R216: a conditional branch whose condition holds goes to PC + 4 × off16 if that is a multiple of 4, not below 0 and
below PROG_LEN; one whose condition does not hold goes on at PC + 4 whatever its target; no register changes. R214, R216: JAL
writes PC + 4 to x31 and goes to PC + 4 × off26; JALR writes PC + 4 to rd and goes to the address in rs1 (read before rd is
written), where the target is a multiple of 4, not below 0 and below PROG_LEN. -/
def Obligations.BranchesAndJumps : Prop :=
  (∀ (s : State) (c : BitVec 4) (t : BitVec 3) (w : Word), s.at c t w = true →
    let th := s.thread c t
    let a := th.reg (iRd w)
    let b := th.reg (iRs1 w)
    let x : Int := th.pc + 4 * (w.extractLsb' 0 16).toInt
    let branch := fun (i : Instr) (op : Nat) (holds : Bool) => iOp w = op →
      (holds = true → 0 ≤ x → x < blkLen (th.lines.getD 0 0) → x % 4 = 0 → Runs i s c t (th.after x.toNat)) ∧
      (holds = false → s.notLast c t = true → Runs i s c t (th.after (th.pc + 4)))
    branch (.beq c t) 0x18 (decide (a = b)) ∧
    branch (.bne c t) 0x19 (decide (a ≠ b)) ∧
    branch (.blt c t) 0x1A (decide (a.toInt < b.toInt)) ∧
    branch (.bge c t) 0x1B (decide (b.toInt ≤ a.toInt)) ∧
    branch (.bltu c t) 0x1C (decide (a.toNat < b.toNat)) ∧
    branch (.bgeu c t) 0x1D (decide (b.toNat ≤ a.toNat))) ∧
  (∀ (s : State) (c : BitVec 4) (t : BitVec 3) (w : Word), s.at c t w = true →
    let th := s.thread c t
    let link := BitVec.ofNat 64 (th.pc + 4)
    let ok := fun (x : Int) => 0 ≤ x ∧ x < blkLen (th.lines.getD 0 0) ∧ x % 4 = 0
    (let x : Int := th.pc + 4 * (w.extractLsb' 0 26).toInt
     iOp w = 0x1E → ok x → Runs (.jal c t) s c t ((th.setReg 31 link).after x.toNat)) ∧
    (let x := (th.reg (iRs1 w)).toNat
     iOp w = 0x1F → w.extractLsb' 0 16 = 0#16 → ok x → Runs (.jalr c t) s c t ((th.setReg (iRd w) link).after x)))

/-- R154, R158, R217: ISSUE of operation rs1 + fn[7:0], once steps 1 to 3 let it be issued. A NOP completes at once; an
operation whose dependencies have not all completed enters the dependency window; both count as issued and the thread goes on.
With the window full, or while dispatch has not accepted an operation whose dependencies have completed, the thread is STALLED
with PC on the ISSUE; in the second case the operation stands before dispatch as a candidate. (The NOP clause names launches
that are not waiting for anything else, so that nothing else moves.) R217, R218: ISSUEW of operation rs1 with an object of the
partition's range: an operation that is no NOP enters the dependency window as a waiter on sync object rs2 for the value in the
register of field [25:21], which joins the end of the object's list; it counts as issued and the thread goes on. -/
def Obligations.Issues : Prop :=
  (∀ (s : State) (c : BitVec 4) (t : BitVec 3) (w : Word) (k : EKey) (e : Entry), s.issuesAt c t w k e = true →
    iOp w = 0x28 → iRd w = 0 → w.extractLsb' 8 8 = 0#8 →
    let th := s.thread c t
    let i := (th.reg (iRs1 w) + BitVec.ofNat 64 (w.toNat % 256)).toNat
    let l := s.opLine e i
    let stalled := fun (why : Stall) => { th with idle := 0, stall := why, st := if th.st = .brk then .brk else .stalled }
    s.mayIssue c t e i = true →
    (opKind l = 0 → e.ended = false → e.ops.all (fun o => decide (o ≠ .window)) = true →
      ∃ s', exec (.issue c t) s = .next s' ∧ s'.thread c t = th.after (th.pc + 4) ∧
        LeavesRestBut s s' c t k { e with issued := e.issued + 1, ops := e.ops.set i .done }) ∧
    (opKind l ≠ 0 → e.depsOver l i = false → e.windowSize < 16 →
      ∃ s', exec (.issue c t) s = .next s' ∧ s'.thread c t = th.after (th.pc + 4) ∧
        LeavesRestBut s s' c t k { e with issued := e.issued + 1, ops := e.ops.set i .window }) ∧
    (opKind l ≠ 0 → e.depsOver l i = false → 16 ≤ e.windowSize → Runs (.issue c t) s c t (stalled .window)) ∧
    (∀ n, opKind l ≠ 0 → e.depsOver l i = true → s.opPort k e l i = some n → s.bodyCheck e.part l = none → (s.port n).serves = true →
      ∃ (s' : State) (cd : Cand), exec (.issue c t) s = .next s' ∧ s'.thread c t = stalled .issue ∧
        cd.who = .op k i ∧ cd.port = n ∧ cd.cls = classOf k.stream ∧ cd.part = e.part ∧ cd.since = s.cclk + 1 ∧
        s'.disp = { s.disp with cands := s.disp.cands ++ [cd] } ∧
        LeavesRestBut { s with disp := s'.disp } s' c t k { e with ops := e.ops.set i (.cand true) })) ∧
  (∀ (s : State) (c : BitVec 4) (t : BitVec 3) (w : Word) (k : EKey) (e : Entry), s.issuesAt c t w k e = true →
    iOp w = 0x29 → w.extractLsb' 0 11 = 0#11 →
    let th := s.thread c t
    let i := (th.reg (iRs1 w)).toNat
    let n := (th.reg (iRs2 w)).toNat
    let v := th.reg (iRd w)
    let o := s.obj n
    s.mayIssue c t e i = true → opKind (s.opLine e i) ≠ 0 → n < 16384 → s.soIn e.part n = true → e.windowSize < 16 →
    o.holds v = false →
      ∃ s', exec (.issuew c t) s = .next s' ∧ s'.thread c t = th.after (th.pc + 4) ∧
        LeavesRestBut { s with sync := s'.sync } s' c t k { e with issued := e.issued + 1, ops := e.ops.set i .waiter } ∧
        s'.obj n = { o with waiters := o.waiters ++ [⟨.op k i, v, false⟩], minWait := if v < o.minWait then v else o.minWait } ∧
        (∀ m, m ≠ n → s'.obj m = s.obj m) ∧ { s'.sync with objs := s.sync.objs } = s.sync)

/-- R219: QDEPTH of operation rs1 sets rd to FREE, DEPTH and PORT of the port that dispatch would choose for it, or to 0 where
it has none, and the thread goes on; FREE is what the launch's class could take under the reservations of R312. R224: WAITN
writes 1 once COMPLETED has reached rs1, else 0 once COUNT has reached a limit rs2 that is not 0, and goes on; else the thread
is WAITING with its progress register at WAITN and COUNT. WAITN_DONE ends a wait in the same way. -/
def Obligations.Waits : Prop :=
  (∀ (s : State) (c : BitVec 4) (t : BitVec 3) (w : Word) (k : EKey) (e : Entry), s.standsAt c t w = true →
    (s.thread c t).launch = some k → s.entry k = some e → iOp w = 0x2A → w.extractLsb' 0 16 = 0#16 →
    let th := s.thread c t
    let i := (th.reg (iRs1 w)).toNat
    i < blkOps (th.lines.getD 0 0) → th.present (.op i 0) = true →
    (s.opPort k e (s.opLine e i) i = none → Runs (.qdepth c t) s c t ((th.setReg (iRd w) 0).after (th.pc + 4))) ∧
    (∀ n, s.opPort k e (s.opLine e i) i = some n → n < 1024 →
      let d := s.depth n
      let free := min (d - s.occ n) (d + 1 - (s.occ n + min (s.eqReserve (classOf k.stream)) d))
      Runs (.qdepth c t) s c t ((th.setReg (iRd w) (BitVec.ofNat 64 (free + d * 2 ^ 16 + n * 2 ^ 32))).after (th.pc + 4)))) ∧
  (∀ (s : State) (c : BitVec 4) (t : BitVec 3) (w : Word) (k : EKey) (e : Entry),
    iOp w = 0x2B → (s.thread c t).launch = some k → s.entry k = some e →
    let th := s.thread c t
    let target := th.reg (iRs1 w)
    let limit := th.reg (iRs2 w)
    let reached := decide (target.toNat ≤ e.nDone)
    let late := decide (limit ≠ 0) && decide (min limit.toNat (2 ^ 48 - 1) ≤ th.count)
    let v : Dword := if reached then 1 else 0
    e.nDone < 2 ^ 64 →
    (s.standsAt c t w = true → (reached || late) = true → Runs (.waitn c t) s c t ((th.setReg (iRd w) v).after (th.pc + 4))) ∧
    (s.standsAt c t w = true → (reached || late) = false →
      Runs (.waitn c t) s c t { th with idle := 0, progress := progressOf 3 th.count, st := if th.st = .brk then .brk else .waiting }) ∧
    (s.canonical = true → s.notLast c t = true → s.insn c t = w → th.st = .waiting → (reached || late) = true →
      Runs (.waitnDone c t) s c t { (th.setReg (iRd w) v).after (th.pc + 4) with idle := th.idle, st := .running }))

/-- R222: a step of PATCHV sets word fn[10:8] of BODY of operation rs1 + COUNT to the low 32 bits of the value source plus COUNT
times the stride register; the progress register then counts it, and after the last step the thread goes on at PC + 4. R223: a
step of COPYC copies the next 64 bytes, or what is left, in ascending order; the progress register then counts them, and after
the last step the thread goes on at PC + 4. -/
def Obligations.PatchesAndCopies : Prop :=
  (∀ (s : State) (c : BitVec 4) (t : BitVec 3) (w : Word), s.standsAt c t w = true → iOp w = 0x2C → w.extractLsb' 0 3 = 0#3 →
    let th := s.thread c t
    let f := (th.reg (iRs1 w)).toNat
    let n := (th.reg (iRs2 w)).toNat
    let k := th.count
    let p : Place := .op (f + k) (0x20 + 4 * (w.toNat / 256 % 8))
    let v := BitVec.ofNat 32 ((th.reg (iRd w)).toNat + k * (th.reg (w.toNat / 8 % 32)).toNat)
    let ops := ((th.launch.bind s.entry).map (·.ops)).getD []
    1 ≤ n → n ≤ 256 → f + n ≤ blkOps (th.lines.getD 0 0) → k < n → th.present p = true → th.writable ops p = true →
    ∃ th' : Thread, th'.rd32 p = v ∧ (∀ a, a % 4 = 0 → th.place a ≠ p → th'.rd32 (th.place a) = th.rd32 (th.place a)) ∧
      { th' with lines := th.lines } = th ∧
      (k + 1 = n → Runs (.patchv c t) s c t (th'.after (th.pc + 4))) ∧
      (k + 1 < n → Runs (.patchv c t) s c t { th' with idle := 0, progress := progressOf 1 (k + 1) })) ∧
  (∀ (s : State) (c : BitVec 4) (t : BitVec 3) (w : Word), s.standsAt c t w = true → iOp w = 0x2D → w.extractLsb' 0 11 = 0#11 →
    let th := s.thread c t
    let src := (th.reg (iRs1 w)).toNat
    let len := (th.reg (iRs2 w)).toNat
    let dst := (th.reg (iRd w)).toNat
    let ops := ((th.launch.bind s.entry).map (·.ops)).getD []
    let k := th.count
    let n := min 8 ((len - k) / 8)
    8 ≤ len → len ≤ 4096 → len % 8 = 0 → src % 8 = 0 → dst % 8 = 0 → src + len ≤ dst ∨ dst + len ≤ src → k < len → k % 8 = 0 →
    (∀ i, i < len / 8 → th.place (src + 8 * i) ≠ .none ∧ th.writable ops (th.place (dst + 8 * i)) = true) →
    (∀ i, i < n → th.present (th.place (src + k + 8 * i)) = true ∧ th.present (th.place (dst + k + 8 * i)) = true) →
    ∃ th' : Thread, (∀ i, i < n → th'.rd64 (dst + k + 8 * i) = th.rd64 (src + k + 8 * i)) ∧
      (∀ b, b % 8 = 0 → b < dst + k ∨ dst + k + 8 * n ≤ b → th'.rd64 b = th.rd64 b) ∧
      { th' with slots := th.slots, scratch := th.scratch, lines := th.lines } = th ∧
      (k + 8 * n = len → Runs (.copyc c t) s c t (th'.after (th.pc + 4))) ∧
      (k + 8 * n < len → Runs (.copyc c t) s c t { th' with idle := 0, progress := progressOf 2 (k + 8 * n) }))

/-- R221, R405: END returns the thread to FREE, whose private area and bank pin go with it. The launch has ended: it drains
while an issued operation has not completed, and is finished once all have. R230: an instruction whose opcode R214 does not
assign is skipped with code ILLEGAL: the thread goes on at PC + 4 with no register changed, INSN_SKIPPED counts, INSN is set,
the launch carries the code, and the launch's first skip is reported. R216, R230: an ALU instruction after which execution runs
on to PC = PROG_LEN ends its thread as END does, with code RUN_OFF. (The model reads the rules as log entry 10 says.) -/
def Obligations.EndsAndSkips : Prop :=
  (∀ (s : State) (c : BitVec 4) (t : BitVec 3) (k : EKey) (e : Entry), s.at c t 0xC0000000 = true →
    (s.thread c t).launch = some k → s.entry k = some e →
    let e' := { e with ended := true, stage := .draining, core := none, thread := none, lines := (s.thread c t).lines }
    ∃ s', exec (.endProg c t) s = .next s' ∧ s'.thread c t = Thread.reset ∧
      (e.settled = false → LeavesRestBut s s' c t k e') ∧
      (e.settled = true → LeavesRestBut s s' c t k { e' with stage := .finished, tDone := s.nowFine, store := 0 })) ∧
  (∀ (s : State) (c : BitVec 4) (t : BitVec 3) (w : Word) (k : EKey) (e : Entry), s.standsAt c t w = true →
    (s.thread c t).launch = some k → s.entry k = some e →
    iOp w ∉ [0x01, 0x02, 0x03, 0x04, 0x05, 0x06, 0x07, 0x08, 0x10, 0x11, 0x14, 0x15, 0x16, 0x17, 0x18, 0x19, 0x1A, 0x1B, 0x1C, 0x1D,
      0x1E, 0x1F, 0x20, 0x28, 0x29, 0x2A, 0x2B, 0x2C, 0x2D, 0x30] →
    let th := s.thread c t
    let key := rSKRY c 0x8C
    ∃ s', exec (.add c t) s = .next s' ∧ s'.thread c t = { th.after (th.pc + 4) with skipSeen := true } ∧
      s'.rd key = (if s.rd key = 0xFFFFFFFF then 0xFFFFFFFF else s.rd key + 1) ∧ s'.flag (rSKRY c 0x14) 20 = true ∧
      s'.entry k = some { e with fails := e.fails ++ [⟨1, 0x20, 0⟩] } ∧
      (th.skipSeen = true → s'.reef = s.reef) ∧
      (th.skipSeen = false → s.reef.waiting.all (fun v => decide (v.unit.toNat ≠ pSKRY c)) = true →
        ∃ v, s'.reef.waiting = s.reef.waiting ++ [v] ∧ v.unit = BitVec.ofNat 8 (pSKRY c) ∧ v.code = 0x20 ∧ v.sev = 1 ∧
          v.akind = 3 ∧ v.addr = BitVec.ofNat 57 (t.toNat * 2 ^ 16 + th.pc % 32768) ∧ v.part = some e.part ∧ v.stream = some k.stream)) ∧
  (∀ (s : State) (c : BitVec 4) (t : BitVec 3) (w : Word) (k : EKey) (e : Entry), s.at c t w = true → s.notLast c t = false →
    (s.thread c t).launch = some k → s.entry k = some e → iOp w = 0x01 → w.extractLsb' 4 7 = 0#7 → e.settled = false →
    ∀ i ∈ [((.add c t : Instr), 0), (.sub c t, 1), (.and c t, 2), (.or c t, 3), (.xor c t, 4), (.sll c t, 5), (.srl c t, 6), (.sra c t, 7),
        (.mul c t, 8), (.mulhu c t, 9), (.slt c t, 10), (.sltu c t, 11), (.min c t, 12), (.max c t, 13), (.minu c t, 14), (.maxu c t, 15)],
      w.toNat % 16 = i.2 →
      ∃ s', exec i.1 s = .next s' ∧ s'.thread c t = Thread.reset ∧
        s'.entry k = some { e with fails := e.fails ++ [⟨1, 0x24, 0⟩], ended := true, stage := .draining, core := none, thread := none, lines := (s.thread c t).lines })

/-! ## Registers and pages (spec/02_register_pages.md) -/

/-- R41: an admitted 32-bit write of a functional register that has no effect of its own stores the RW bits, clears the RW1C
bits and sets the RW1S bits that it writes 1, and leaves every other bit; PG_ERR.RO_WRITE is set when a 1 falls on another bit.
Nothing else changes. (The registers of GLBL but IF_NEGOTIATE, of LHSE but HEARTBEAT, of HARB and of DBUG.) (The model reads the
rules as log entries 32 and 36 say.) -/
def Obligations.RegisterWrites : Prop :=
  ∀ (s : State) (tag : BitVec 13) (slot inst off : Nat) (k : PageKind) (r : RegSpec) (v : Word),
    s.canonical = true → s.reaches tag slot k inst = true → 0x40 ≤ off → off < 0x1000 → off % 4 = 0 → k.spec off = some r →
    (k = .glbl ∧ off ≠ 0x48) ∨ (k = .lhse ∧ off ≠ 0x44) ∨ k = .harb ∨ k = .dbug → r.rangeBad v = false →
    let x := write32 tag (pageAddr slot off) v
    let key := pageAddr slot off
    let errs := pageAddr slot 0x14
    ∃ s', exec (.registerWrite x.tag x.addr x.strb x.data) s = .next s' ∧ s'.rdp = { s.rdp with adata := 0, aerr := 0 } ∧
      (∀ i, i < 32 → (s'.rd key).getLsbD i =
        if r.rw.getLsbD i then v.getLsbD i
        else if r.w1c.getLsbD i then (s.rd key).getLsbD i && !v.getLsbD i
        else if r.w1s.getLsbD i then (s.rd key).getLsbD i || v.getLsbD i
        else (s.rd key).getLsbD i) ∧
      (s'.rd errs = if v &&& ~~~(r.rw ||| r.w1c ||| r.w1s ||| r.wo) = 0 then s.rd errs else s.rd errs ||| 4) ∧
      RegsBut s s' [key, errs] ∧ { s' with regs := s.regs, rdp := s.rdp } = s

/-- R629: the reasons of a refusal in their order: UNMAPPED, EARLY, DENIED, WIDTH; an access to which none applies is admitted.
R35, R36, R51: a refused write is answered with its reason and changes nothing but the refusal record, the PG_ERR of a page it
was aimed at, and, for DENIED alone, Reef (the event, or the count of dropped ones). (The model reads the rules as log entry 36
says.) -/
def Obligations.RefusedAccesses : Prop :=
  (∀ (s : State) (x : Access),
    let unmapped := decide (x.region = .unmapped) || s.absentWrite x
    let early := !s.flag (pageAddr pGLBL 0x70) 0 &&
      (match x.region with | .page _ k _ _ => decide (k ≠ .glbl) && decide (k ≠ .intg) | _ => true)
    s.refusal x = if unmapped then some 2 else if early then some 4 else if !s.admits x then some 1 else if !x.widthOk then some 3 else none) ∧
  (∀ (s : State) (x : Access) (r : Nat), s.canonical = true → s.pwr.mode = .active → s.rdp.waits = false → x.write = true →
    s.refusal x = some r → ∃ s', exec (.registerWrite x.tag x.addr x.strb x.data) s = .next s' ∧ s'.rdp = { s.rdp with adata := 0, aerr := BitVec.ofNat 3 r } ∧
      s'.rd (pageAddr pGLBL 0x74) = (if s.rd (pageAddr pGLBL 0x74) = 0xFFFFFFFF then 0xFFFFFFFF else s.rd (pageAddr pGLBL 0x74) + 1) ∧
      s'.rd (pageAddr pGLBL 0x78) = BitVec.ofNat 32 (2 ^ 31 + r * 2 ^ 24 + 2 ^ 23 + x.tag.toNat) ∧
      s'.rd (pageAddr pGLBL 0x7C) = BitVec.ofNat 32 x.addr.toNat ∧
      (∀ key, key % 0x1000 ≠ 0x14 → key ∉ [pageAddr pGLBL 0x74, pageAddr pGLBL 0x78, pageAddr pGLBL 0x7C, rREEF 0x7C] → s'.rd key = s.rd key) ∧
      { s' with regs := s.regs, rdp := s.rdp, reef := s.reef } = s ∧ (r ≠ 1 → s'.reef = s.reef))

/-- R53: what a write of IF_NEGOTIATE does to IF_VERSION: nothing but NEG_BUSY while a stream is enabled; the common version
when the major number is the block's; rejection otherwise. R56, R57: a declaration within its field's range is stored, its
WRITTEN bit is set, and DECLARED once all six are; one outside its range sets BAD_DECL alone; while LOCK is 1 a write of any of
the first four, or of PG_IRQEN, changes no field and sets LOCKED_WRITE. INTEG.CTRL.LOCK is set by writing 1. -/
def Obligations.NegotiationAndDeclarations : Prop :=
  (∀ (s : State) (tag : BitVec 13) (major minor : BitVec 8), s.canonical = true → s.reaches tag pGLBL .glbl 0 = true →
    let cap : BitVec 8 := s.fld (pageAddr pGLBL 0x44) 8 8
    let most : BitVec 8 := s.fld (pageAddr pGLBL 0x44) 0 8
    let u := s.setF (pageAddr pGLBL 0x48) 0 (major ++ minor)
    let version := fun (w : Word) => u.wr (pageAddr pGLBL 0x4C) w
    (s.anyStreamOn = true → Answers (.ifNegotiate tag major minor) s (u.setErr pGLBL 16)) ∧
    (s.anyStreamOn = false → major = cap → Answers (.ifNegotiate tag major minor) s
      (version (BitVec.ofNat 32 (2 ^ 31 + cap.toNat * 256 + min minor.toNat most.toNat)))) ∧
    (s.anyStreamOn = false → major ≠ cap → Answers (.ifNegotiate tag major minor) s
      (version (BitVec.ofNat 32 (2 ^ 30 + cap.toNat * 256))))) ∧
  (∀ (s : State) (tag : BitVec 13), s.canonical = true → s.reaches tag pINTG .intg 0 = true →
    let status := pageAddr pINTG 0x5C
    let lock := s.flag (pageAddr pINTG 0x40) 0
    (∀ x ∈ [((0 : BitVec 3), 16, 1, 65535), (1, 20, 1, 1048575), (2, 24, 1, 16777215), (3, 12, 0, 4095), (4, 12, 100, 2000), (5, 12, 500, 2000)],
      ∀ v : Word, v.toNat < 2 ^ x.2.1 →
        let key := pageAddr pINTG (0x44 + 4 * x.1.toNat)
        let u := (s.wr key ((s.rd key &&& ~~~BitVec.ofNat 32 (2 ^ x.2.1 - 1)) ||| v)).setBit status x.1.toNat true
        (lock = true → x.1.toNat < 4 → Answers (.integDeclare tag x.1 v) s (s.setErr pINTG 16)) ∧
        ((lock = false ∨ 4 ≤ x.1.toNat) → (v.toNat < x.2.2.1 ∨ x.2.2.2 < v.toNat) → Answers (.integDeclare tag x.1 v) s (s.setErr pINTG 17)) ∧
        ((lock = false ∨ 4 ≤ x.1.toNat) → x.2.2.1 ≤ v.toNat → v.toNat ≤ x.2.2.2 → Answers (.integDeclare tag x.1 v) s
          (if u.fld status 0 6 = 0x3F#6 then u.setBit status 31 true else u))) ∧
    (∀ v : Word, let t := if v &&& ~~~(headerSpec 0x18).rw ≠ 0 then s.setErr pINTG 2 else s
      (lock = true → Answers (.registerWrite tag (BitVec.ofNat 26 (pageAddr pINTG 0x18)) 0x0F (0#32 ++ v)) s (t.setErr pINTG 16)) ∧
      (lock = false → Answers (.registerWrite tag (BitVec.ofNat 26 (pageAddr pINTG 0x18)) 0x0F (0#32 ++ v)) s
        (t.wr (pageAddr pINTG 0x18) (v &&& (headerSpec 0x18).rw)))) ∧
    Answers (.integLock tag) s (s.setBit (pageAddr pINTG 0x40) 0 true))

/-- R44, R632: PG_CTRL.EN of a unit's page is set by writing 1, and cleared by writing 0 while no stream is enabled; SRST = 1 is
taken while EN = 0, and ignored with CTRL_CONFLICT while EN = 1; on a PART page it asks for the partition's reset. When the soft
reset of a unit completes, SRST_BUSY falls, RESET_COUNT counts, and every functional register of the page that is not retained
reads as at reset (of SHOL.TBL_CMD, whose RW field is retained, the other fields). (The model reads the rules as log entries 33 and 36 say.) -/
def Obligations.UnitControl : Prop :=
  ∀ (s : State) (tag : BitVec 13) (slot : BitVec 8) (k : PageKind) (inst : Nat), s.canonical = true →
    let n := slot.toNat
    let ctrl := pageAddr n 0x0C
    (s.reaches tag n k inst = true → k.fixedCtrl = false → k ≠ .part → (k = .eprt → (s.port inst).st = .offline) → s.anyStreamOn = false →
      Answers (.unitEnable tag slot 1) s (s.setBit ctrl 0 true) ∧
      Answers (.unitEnable tag slot 0) s (s.setBit ctrl 0 false) ∧
      (s.pageEn n = false → Answers (.softReset tag slot) s ((s.setBit ctrl 1 true).setBit ctrl 0 false)) ∧
      (s.pageEn n = true → Answers (.softReset tag slot) s ((s.setErr n 3).setBit ctrl 0 false))) ∧
    (∀ p : BitVec 4, s.reaches tag (pPART p) .part p.toNat = true → s.enabled p = false →
      Answers (.softReset tag (BitVec.ofNat 8 (pPART p))) s ((s.setBit (rPART p 0x0C) 1 true).wantPart p .command)) ∧
    (pageAt n = some (k, inst) → s.srstBusy n = true → k ≠ .part →
      ∃ s', exec (.srstComplete slot) s = .next s' ∧ s'.srstBusy n = false ∧
        s'.fld (pageAddr n 0x1C) 16 16 = satAdd (s.fld (pageAddr n 0x1C) 16 16) 1) ∧
    (pageAt n = some (k, inst) → s.srstBusy n = true → k = .disp ∨ k = .harb ∨ k = .dbug ∨ k = .scal ∨ k = .shol ∨ k = .ftch →
      ∃ s', exec (.srstComplete slot) s = .next s' ∧ s'.srstBusy n = false ∧
        s'.fld (pageAddr n 0x1C) 16 16 = satAdd (s.fld (pageAddr n 0x1C) 16 16) 1 ∧
        (∀ off r, 0x40 ≤ off → off < 0x1000 → k.spec off = some r →
          s'.rd (pageAddr n off) = if k = .shol ∧ off = 0x88 then s.rd (pageAddr n off) &&& 0xFFFFF
            else if r.keep then s.rd (pageAddr n off) else regReset (pageAddr n off)))

/-! ## Partitions and contexts (spec/03_tenancy_objects.md) -/

/-- R64 to R67, R70: enabling a partition whose configuration is complete makes it SERVING, and disabling one of whose functions
no stream is enabled makes it DISABLED; the map's entry follows, no copy of its template directory is kept (R161), and on enabling Shoal numbers its windows
from 0 (R356) and reads the table directory (R340). A write
of FUNC_RANGE of a disabled partition that R64 allows binds every function that enters the range. A write of HARB_QUOTA.MIN
takes effect unless the minima would sum to more than 64. (The model reads the rules as log entry 36 says.) -/
def Obligations.PartitionConfig : Prop :=
  ∀ (s : State) (tag : BitVec 13) (p : BitVec 4), s.canonical = true → s.reaches tag (pPART p) .part p.toNat = true →
    let ctrl := rPART p 0x0C
    let owner := s.num (rPART p 0x6C) 0 12
    let range := s.funcRange p
    (s.enabled p = false → s.resetting p = false → range.1 ≤ owner → owner < range.1 + range.2 → 1 ≤ s.num (rPART p 0x68) 0 17 →
      let u := ((s.setBit ctrl 0 true).pmapWrite p).dirsDrop p
      Answers (.partEnable tag p) s
        (({ u with shoal := { u.shoal with nextNum := Tbl.set (fun _ => 0) u.shoal.nextNum p.toNat 0 } }.setF (rPART p 0x74) 0 1#3).tblRead p false)) ∧
    (s.enabled p = false → (owner < range.1 ∨ range.1 + range.2 ≤ owner ∨ s.num (rPART p 0x68) 0 17 = 0) →
      Answers (.partEnable tag p) s (s.setErr (pPART p) 19)) ∧
    (s.enabled p = true → s.resetting p = false → s.partStreamOn p = false →
      Answers (.partDisable tag p) s ((((s.setBit ctrl 0 false).pmapWrite p).dirsDrop p).setF (rPART p 0x74) 0 0#3)) ∧
    (s.enabled p = true → s.partStreamOn p = true → Answers (.partDisable tag p) s (s.setErr (pPART p) 16)) ∧
    (∀ (base : BitVec 12) (count : BitVec 13), s.enabled p = false → s.funcRangeOk p (0#3 ++ count ++ 0#4 ++ base) = true →
      ∃ s', exec (.funcRangeWrite tag p base count) s = .next s' ∧ s'.funcRange p = (base.toNat, count.toNat) ∧
        (∀ f : BitVec 12, base.toNat ≤ f.toNat → f.toNat < base.toNat + count.toNat → ¬(range.1 ≤ f.toNat ∧ f.toNat < range.1 + range.2) →
          s'.partOf f = some p) ∧
        (∀ f : BitVec 12, range.1 ≤ f.toNat → f.toNat < range.1 + range.2 → ¬(base.toNat ≤ f.toNat ∧ f.toNat < base.toNat + count.toNat) →
          s'.partOf f = none) ∧
        RegsBut s s' [rPART p 0x44]) ∧
    (∀ min : BitVec 7, s.quotaOk p (BitVec.ofNat 32 min.toNat) = true →
      Answers (.harbQuotaWrite tag p min) s ((s.setF (rPART p 0x4C) 0 min).pmapWrite p)) ∧
    (∀ min : BitVec 7, s.quotaOk p (BitVec.ofNat 32 min.toNat) = false →
      Answers (.harbQuotaWrite tag p min) s (s.setErr (pPART p) 18))

/-- R77, R78: a context command written while BUSY sets CMD_BUSY alone; one whose completion object is not the partition's ends with
SO_RANGE, and one beyond CTX_COUNT with CTX_RANGE. Any other becomes BUSY with ERR 0. CREATE, and every command of a context that
holds no slot, reads the record; the others wait for a slot's load, or act on the slot: NOT_CREATED where its record is not VALID;
FLUSH without BOUND writes its lines, HANDLE_INVAL drops the handle and counts HT_GEN or, with ALL, reads the geometry again, and
DESTROY marks the record, loses the launches and goes on when none is left (R85). Each command that ends, but one with SO_RANGE, ADDs
1 to its completion object. R78, R79: what the answers do to a partition's context command: CREATE of a context whose record is not
VALID, whose table is sound and which no launch uses writes VALID alone; the acknowledgement of the record's write ends the command
with ERR 0, or with WRITE_ERROR; a read error of CREATE ends it with READ_ERROR; under the partition's reset an answer has no effect. R75, R93, R630: the acknowledgement of a record's write-back ends its staging; one
that has been overtaken by a change is written again; a failed one is reported, gravely when the change set LOST or DESTROYED. The
line 0x40 that a change to a non-resident context read takes the changes that wait for it and is written; a failed read is reported.
(The model reads the rules as log entries 16, 32 and 47 say.) -/
def Obligations.ContextCommands : Prop :=
  (∀ (s : State) (tag : BitVec 13) (p : BitVec 4) (ctx : BitVec 16) (bound : Bool), s.canonical = true →
    s.reaches tag (pPART p) .part p.toNat = true →
    let cmd := rPART p 0x78
    let so := rPART p 0x80
    let arg := s.rd (rPART p 0x7C)
    let u := ((s.setF cmd 0 ctx).setBit cmd 27 true).setF cmd 20 (0#4)
    let new := fun (op : BitVec 4) (b : Bool) => (⟨op, ctx, b, arg.getLsbD 31, arg.extractLsb' 0 24, 0, 0, 0, 0, 0, 0⟩ : CtxCmd)
    let reads := fun (op : BitVec 4) (b : Bool) => (u.setCtxCmd p (some (new op b))).read (s.ctxAddr p ctx) 2 (.ctxCmd p 0)
    ∀ x ∈ [((.create tag p ctx : Instr), (1 : BitVec 4), false), (.destroy tag p ctx, 2, false), (.flush tag p ctx bound, 3, bound),
        (.handleInval tag p ctx, 4, false)],
      (s.flag cmd 27 = true → Answers x.1 s (s.setErr (pPART p) 20)) ∧
      (s.flag cmd 27 = false → s.soBad p (s.rd so) = true → Answers x.1 s (((u.setCtxCmd p none).setBit cmd 27 false).setF cmd 20 5#4)) ∧
      (s.flag cmd 27 = false → s.soBad p (s.rd so) = false → s.num (rPART p 0x68) 0 17 ≤ ctx.toNat →
        Answers x.1 s ((((u.setCtxCmd p none).setBit cmd 27 false).setF cmd 20 1#4).cmdAdd (s.rd so))) ∧
      (s.flag cmd 27 = false → s.soBad p (s.rd so) = false → ctx.toNat < s.num (rPART p 0x68) 0 17 →
        (x.2.1 = 1 ∨ s.slotOf p ctx = none → Answers x.1 s (reads x.2.1 x.2.2)) ∧
        (∀ n, x.2.1 ≠ 1 → s.slotOf p ctx = some n → (s.slot n).st = .loading → Answers x.1 s (u.setCtxCmd p (some { new x.2.1 x.2.2 with step := 6 }))) ∧
        (∀ n, s.slotOf p ctx = some n → (s.slot n).st ≠ .loading →
          let lines := (s.slot n).recLines
          let l1 := lines.getD 1 0
          (x.2.1 ≠ 1 → l1.getLsbD 0 = false →
            Answers x.1 s ((((u.setCtxCmd p none).setBit cmd 27 false).setF cmd 20 3#4).cmdAdd (s.rd so))) ∧
          (x.2.1 = 3 → x.2.2 = false → l1.getLsbD 0 = true →
            Answers x.1 s (((u.mergeStaged p ctx (lines.drop 1)).setCtxCmd p (some { new 3 false with step := 2, line1 := l1 })).write
              (u.ctxAddr p ctx + 0x40) (64 * (lines.length - 1)) (lines.drop 1) (.ctxCmd p 1))) ∧
          (x.2.1 = 4 → arg.getLsbD 31 = true → l1.getLsbD 0 = true →
            Answers x.1 s (((u.setSlot n { s.slot n with geomWait := true }).setCtxCmd p (some { new 4 false with step := 5 })).read (s.ctxAddr p ctx) 1 (.ctxCmd p 0))) ∧
          (x.2.1 = 4 → arg.getLsbD 31 = false → l1.getLsbD 0 = true →
            let j := (arg.extractLsb' 0 24).toNat
            Answers x.1 s (((((u.staleHandles n (fun i => decide (i = j))).setSlot n { s.slot n with
                cache := (s.slot n).cache.filter (fun y => decide (y.1 ≠ j)), recLines := lines.modify 1 (fun l => Line.put l 4 (Line.w32 l 4 + 1)) }
              |>.setCtxCmd p none).setBit cmd 27 false).setF cmd 20 0#4).cmdAdd (s.rd so))) ∧
          (x.2.1 = 2 → l1.getLsbD 0 = true → ∃ t : State, Answers x.1 s (t.destroyTry p) ∧
            t = ((((if l1.getLsbD 1 then u else u.bump (rPART p 0x88)).setSlot n { s.slot n with
              recLines := lines.modify 1 (fun l => recLose (l ||| 4#512) 4 s.time 0) }).setCtxCmd p
                (some { new 2 false with step := 1, line1 := recLose (l1 ||| 4#512) 4 s.time 0 })).loseLaunches p ctx 0))))) ∧
  (∀ (s u : State) (p : BitVec 4) (mtag : BitVec 8) (gen : BitVec 4) (q : MReq) (line : Nat) (c : CtxCmd), q.why = .ctxCmd p line →
    u.ctxCmd p = some c →
    let ends := fun (t : State) (err : BitVec 4) => (((t.setCtxCmd p none).setBit (rPART p 0x78) 27 false).setF (rPART p 0x78) 20 err).cmdAdd (t.rd (rPART p 0x80))
    (∀ (write err : Bool) (ls : List Line), s.gets (!write) mtag gen u q → write = true ∨ err = true ∨ ls.length * 64 = q.len →
      (u.resetting p = true → exec (.ctxCmdDone p write mtag gen err ls) s = .next u) ∧
      (u.resetting p = false → exec (.ctxCmdDone p write mtag gen err ls) s = .next (u.ctxCmdStep p c write err ls).settle)) ∧
    (∀ l0 l1 : Line, u.resetting p = false → s.gets true mtag gen u q → q.len = 128 → c.op = 1 → c.step = 0 → u.heldLine1 p c.ctx = none → u.harb.changes = [] →
      l1.getLsbD 0 = false → (u.launchesOf p c.ctx).any (fun x => x.2.past4) = false → l0.extractLsb' 0 5 = 0#5 →
      ((Line.w32 l0 8).toNat % 2 ^ 25 ≤ 16777216) →
      exec (.ctxCmdDone p false mtag gen false [l0, l1]) s =
        .next (((u.mergeStaged p c.ctx [1, 0, 0]).setCtxCmd p (some { c with step := 2, line1 := 1 })).write
          (u.ctxAddr p c.ctx + 0x40) 192 [1, 0, 0] (.ctxCmd p 1)).settle) ∧
    (u.resetting p = false → s.gets true mtag gen u q → c.op = 1 → c.step = 0 →
      exec (.ctxCmdDone p false mtag gen true []) s = .next (ends u 7).settle) ∧
    (u.resetting p = false → s.gets false mtag gen u q →
      let done := if c.op = 2 then (match u.slotOf p c.ctx with | some n => u.freeSlot n | none => u) else u
      exec (.ctxCmdDone p true mtag gen false []) s = .next (ends done 0).settle) ∧
    (u.resetting p = false → s.gets false mtag gen u q → c.op ≠ 2 →
      exec (.ctxCmdDone p true mtag gen true []) s = .next (ends (u.ctxRecErr p c.ctx (recGrave c.line1)) 8).settle)) ∧
  (∀ (s u : State) (p : BitVec 4) (ctx : BitVec 16) (line : Nat) (grave : Bool) (mtag : BitVec 8) (gen : BitVec 4) (q : MReq) (x : Staged),
    s.gets false mtag gen u q → q.why = .ctxWb p ctx line grave →
    u.harb.staged.find? (fun y => decide (y.part = p) && decide (y.ctx = ctx)) = some x →
    (x.again = false → exec (.ctxRecordAccessDone true mtag gen false []) s =
      .next { u with harb := { u.harb with staged := u.harb.staged.erase x } }) ∧
    (x.again = true → exec (.ctxRecordAccessDone true mtag gen false []) s =
      .next (({ u with harb := { u.harb with staged := u.harb.staged.map (fun y => if y = x then { x with again := false } else y) } }).writeStaged
        { x with again := false })) ∧
    (x.again = false → ∃ s', exec (.ctxRecordAccessDone true mtag gen true []) s = .next s' ∧ s'.harb.staged = u.harb.staged.erase x ∧
      (u.reef.waiting = [] → ∃ v ∈ s'.reef.waiting, v.unit = 0x13 ∧ v.code = 0x02 ∧ v.sev = (if grave then 4 else 1) ∧ v.part = some p ∧
        v.ctx = some (ctx.setWidth 24)))) ∧
  (∀ (s u : State) (p : BitVec 4) (ctx : BitVec 16) (mtag : BitVec 8) (gen : BitVec 4) (q : MReq) (l : Line),
    s.gets true mtag gen u q → q.why = .ctxMod p ctx →
    let mine := u.harb.changes.filter (fun x => decide (x.1 = p) && decide (x.2.1 = ctx))
    let left := { u with harb := { u.harb with changes := u.harb.changes.filter (fun x => !(decide (x.1 = p) && decide (x.2.1 = ctx))) } }
    let a := u.applyChanges p ctx l
    (mine = [] → ∀ err, exec (.ctxRecordAccessDone false mtag gen err [l]) s = .next u) ∧
    (mine ≠ [] → u.slotOf p ctx = none → exec (.ctxRecordAccessDone false mtag gen false [l]) s = .next (a.1.stageLine1 p ctx a.2)) ∧
    (mine ≠ [] → exec (.ctxRecordAccessDone false mtag gen true []) s = .next (left.ctxRecErr p ctx
      (mine.any (fun x => match x.2.2 with | .lose _ _ _ | .destroyed => true | _ => false)))))

/-! ## Streams (spec/04_streams_and_rings.md) -/

/-- R34, R125, R126, R127, R134, R142: what the doorbell page does to a stream. A doorbell of a DISABLED, DRAINING or FAULTED
stream is dropped and counted; any other stores the hint modulo the ring's size, counts, becomes pending, and takes an IDLE
stream to READY at the tail of its class queue. PAUSE takes a READY or IDLE stream to PAUSED and out of the queue, and is only
stored in any other state; clearing it takes a PAUSED stream to READY when a doorbell is pending or the hint is not at CONS,
else to IDLE. INVAL drops the stream's cached units and what was prefetched for its unreleased entries. An access of an unbound function's page has no
effect but the event UNBOUND_DB (R68). R139, R142, R446:
FETCH.STREAM_CTRL.EN of the selected stream. Enabling takes a DISABLED stream whose function's partition is enabled, with every
unit page enabled and LOG2 and START in range, to IDLE at START with ENTRIES 0 and none of its units cached; otherwise it sets PG_ERR bit 17, or bit 16 while
the stream is DRAINING. Disabling takes a stream with entries in flight or a fetch in progress to DRAINING, one with none to
DISABLED, and leaves a DISABLED one as it is. (The model reads the rules as log entries 15 and 51 say.) -/
def Obligations.DoorbellsAndStreams : Prop :=
  (∀ (s : State) (tag : BitVec 13) (f : BitVec 12) (c : BitVec 2), s.canonical = true → s.serves = true → mayRing tag f = true →
    let n := streamOf f c
    let st := s.stream n
    let q := s.fetch.queue c.toNat
    let joined := if n ∈ q then s.fetch else s.fetch.setQueue c.toNat (q ++ [n])
    let left := s.fetch.setQueue c.toNat (q.filter (fun m => decide (m ≠ n)))
    let becomes := fun (i : Instr) (st' : StreamE) (fetch : Fetch) => ∃ s' : State, exec i s = .next s' ∧ s'.stream n = st' ∧
      (∀ m, m ≠ n → s'.stream m = s.stream m) ∧ s'.fetch = fetch ∧
      { s' with streams := s.streams, fetch := s.fetch, rdp := s.rdp } = s
    (s.partOf f = none →
      let unbound := fun (off : Nat) => s.raise { ev pGLBL 0x02 1 with
        akind := 2, addr := BitVec.ofNat 57 (dbAddr f off c), func := some (tag.extractLsb' 0 12) }
      (∀ v : Dword, Answers (.doorbell tag f c 0xFF v) s (unbound 0)) ∧ Answers (.pause tag f c) s (unbound 0x20) ∧
      Answers (.resumeStream tag f c) s (unbound 0x20) ∧ (∀ keep : Bool, Answers (.inval tag f c keep) s (unbound 0x20))) ∧
    (∀ (v : Dword) (p : BitVec 4), s.partOf f = some p → s.noRun = true →
      let rung := { st with hint := BitVec.ofNat 16 (v.toNat % 2 ^ 16 % 2 ^ st.log2.toNat), dbCount := st.dbCount + 1, dbPending := true }
      (st.st = .disabled ∨ st.st = .draining ∨ st.st = .faulted → Answers (.doorbell tag f c 0xFF v) s (s.bump (pageAddr pFTCH 0x60))) ∧
      (st.st = .idle → becomes (.doorbell tag f c 0xFF v) { rung with st := .ready, dbStarted := true } joined) ∧
      (st.st ∉ [.disabled, .draining, .faulted, .idle] → becomes (.doorbell tag f c 0xFF v) rung s.fetch)) ∧
    (∀ p : BitVec 4, s.partOf f = some p →
     (st.st = .ready ∨ st.st = .idle → becomes (.pause tag f c) { st with pause := true, st := .paused } left) ∧
     (st.st ≠ .ready → st.st ≠ .idle → becomes (.pause tag f c) { st with pause := true } s.fetch) ∧
     (st.st = .paused → st.dbPending = true ∨ st.hint ≠ st.cons →
      becomes (.resumeStream tag f c) { st with pause := false, st := .ready, dbStarted := st.dbPending } joined) ∧
     (st.st = .paused → st.dbPending = false → st.hint = st.cons →
      becomes (.resumeStream tag f c) { st with pause := false, st := .idle } s.fetch) ∧
     (st.st ≠ .paused → becomes (.resumeStream tag f c) { st with pause := false } s.fetch) ∧
     (∀ keep : Bool, ∃ s' u : State, exec (.inval tag f c keep) s = .next s' ∧
      exec (if keep then .pause tag f c else .resumeStream tag f c) s = .next u ∧
      s'.fetch.cache = s.fetch.cache.filter (fun x => decide (x.1 ≠ n)) ∧
      (∀ x ∈ s'.ferry.ahead, ¬(x.1.stream = n ∧ st.serial ≤ x.1.seq)) ∧
      (∀ x ∈ s.ferry.ahead, x.1.stream ≠ n ∨ x.1.seq < st.serial → x ∈ s'.ferry.ahead) ∧
      s'.mmp.map (fun r => { r with why := .orphan }) = s.mmp.map (fun r => { r with why := .orphan }) ∧
      (∀ r ∈ s'.mmp, ∀ k a, r.why = .ahead k a true → ¬(k.stream = n ∧ st.serial ≤ k.seq)) ∧
      { s' with fetch := { s'.fetch with cache := u.fetch.cache }, ferry := { s'.ferry with ahead := u.ferry.ahead }, mmp := u.mmp } = u))) ∧
  (∀ (s : State) (tag : BitVec 13), s.canonical = true → s.reaches tag pFTCH .ftch 0 = true →
    let n : BitVec 14 := s.fld (pageAddr pFTCH 0x40) 0 14
    let st := s.stream n
    let ready := (match s.partOf (funcOf n) with | some p => s.partEn p | none => false) && s.unitPages.all s.pageEn &&
      decide (4 ≤ st.log2.toNat) && decide (st.log2.toNat ≤ 16) && decide (st.startPos.toNat < 2 ^ st.log2.toNat)
    let becomes := fun (i : Instr) (st' : StreamE) => ∃ s' : State, exec i s = .next s' ∧ s'.stream n = st' ∧
      (∀ m, m ≠ n → s'.stream m = s.stream m) ∧ { s' with streams := s.streams, fetch := s.fetch, rdp := s.rdp } = s
    (st.st = .disabled → ready = true → ∃ s' : State, exec (.streamEnable tag) s = .next s' ∧
      s'.stream n = { st with
        st := .idle, ctrlEn := true, cons := st.startPos, fetchPos := st.startPos, phase := st.startPhase, hint := st.startPos,
        entries := 0, faultCode := 0, dbPending := false, dbStarted := false, got := [], fetching := false } ∧
      (∀ m, m ≠ n → s'.stream m = s.stream m) ∧
      s'.fetch = { s.fetch with cache := s.fetch.cache.filter (fun x => decide (x.1 ≠ n)) } ∧
      (∀ x ∈ s.ferry.ahead, x.1.stream ≠ n ∨ x.1.seq < st.serial → x ∈ s'.ferry.ahead) ∧
      { s' with streams := s.streams, fetch := s.fetch, rdp := s.rdp, mmp := s.mmp, ferry := { s'.ferry with ahead := s.ferry.ahead } } = s) ∧
    (st.st = .disabled → ready = false → Answers (.streamEnable tag) s (s.setErr pFTCH 17)) ∧
    (st.st = .draining → Answers (.streamEnable tag) s (s.setErr pFTCH 16)) ∧
    (st.st = .disabled → Answers (.streamDisable tag) s s) ∧
    (st.st ≠ .disabled → st.inflight = 0 → st.fetching = false →
      becomes (.streamDisable tag) { st with st := .disabled, ctrlEn := false }) ∧
    (st.st ≠ .disabled → st.inflight ≠ 0 ∨ st.fetching = true →
      becomes (.streamDisable tag) { st with st := .draining, ctrlEn := false }))

/-- R128, R129, R135: a free channel with no launch to serve takes the stream at the head of the class that it prefers, and
reads its entry from CONS on: as many units as the hint reaches, at most 8 and not past the ring's end. PREFETCH reads the units
that are not cached yet, under the same bounds, while no prefetch of the stream is under way. R117, R122, R126, R146: what the
first units of an entry do when they return to a fetch that has none yet. A read error, or the first check of the header that
fails, takes the stream to FAULTED with its code at CONS; a header that the producer still owns ends the fetch and takes the
stream to IDLE, or to PAUSED; a PAD that is whole is released: its control word is written back with OWN = 0, and the stream
goes on behind it. RELEASE_WRITE_ACK marks the entry released, and an error faults the stream with RELEASE_WRITE. (The model
reads the rules as log entry 15 says.) -/
def Obligations.Fetches : Prop :=
  (∀ (s : State) (n : BitVec 14), s.canonical = true →
    let st := s.stream n
    let room := 2 ^ st.log2.toNat - st.cons.toNat
    let d := (st.hint.toNat + 2 ^ st.log2.toNat - st.cons.toNat) % 2 ^ st.log2.toNat
    let asks := fun (units : Nat) (pos : BitVec 16) (pre : Bool) =>
      s.mmp ++ [s.asksRead ((st.ringBase ++ 0#12) + BitVec.ofNat 57 (64 * pos.toNat)) units (.ring n pos units pre)]
    (∀ (ch : BitVec 4) (q : List (BitVec 14)), s.fetch.reenter = [] → s.fetchHeld = false → Tbl.get (fun _ => none) s.fetch.chans ch.toNat = none →
      s.fetch.queue (ch.toNat % 4) = n :: q → st.pause = false → s.streamHeld n = false → (classOf n).toNat = ch.toNat % 4 →
      s.cached n st.cons = none → st.cons.toNat < 2 ^ st.log2.toNat → 1 ≤ d →
      ∃ s' : State, exec (.channelTakeStream ch) s = .next s' ∧ Tbl.get (fun _ => none) s'.fetch.chans ch.toNat = some n ∧ n ∉ s'.fetch.queue (ch.toNat % 4) ∧
        (∃ pos, s'.stream n = { st with st := .fetching, fetching := true, dbPending := false, got := [], fetchPos := pos }) ∧
        (∀ m, m ≠ n → s'.stream m = s.stream m) ∧ s'.mmp = asks (min 8 (min d room)) st.cons false ∧
        { s'.fetch with chans := s.fetch.chans } = s.fetch.setQueue (ch.toNat % 4) ((s.fetch.queue (ch.toNat % 4)).filter (fun m => decide (m ≠ n))) ∧
        { s' with streams := s.streams, mmp := s.mmp, fetch := s.fetch } = s) ∧
    ((st.st = .idle ∨ st.st = .ready ∨ st.st = .blocked) → st.pause = false → s.prefetching n = false → s.streamHeld n = false → s.rst.stopped = false →
      s.cached n st.cons = none → st.cons.toNat < 2 ^ st.log2.toNat → 1 ≤ d →
      exec (.prefetch n) s = .next { s with mmp := asks (min (min 8 d) room) st.cons true })) ∧
  (∀ (s u : State) (mtag : BitVec 8) (gen : BitVec 4) (q : MReq), s.canonical = true →
    (∀ (n : BitVec 14) (units : Nat) (h : Line) (ls : List Line), s.gets true mtag gen u q → q.why = .ring n (u.stream n).cons units false →
      units ≠ 0 → (h :: ls).length * 64 = q.len → (u.stream n).fetching = true → (u.stream n).got = [] → (u.stream n).st = .fetching →
      (u.stream n).cons.toNat < 2 ^ (u.stream n).log2.toNat →
      let st := u.stream n
      let w := Line.w32 h 0
      let ended := { st with fetching := false, got := [], fetchPos := st.cons }
      let faults := fun (i : Instr) (code : BitVec 8) => ∃ u' : State, exec i s = .next u' ∧ (u'.stream n).st = .faulted ∧ (u'.stream n).faultCode = code ∧
        (u'.stream n).faultPos = st.cons ∧ (u'.stream n).fetching = false ∧ (∀ m, m ≠ n → u'.stream m = u.stream m)
      faults (.ringReadReturn mtag gen true []) 0x0A ∧
      (w.getLsbD 31 = false → st.dbPending = false → st.dbStarted = false → ∃ u' : State, exec (.ringReadReturn mtag gen false (h :: ls)) s = .next u'.settle ∧
        u'.stream n = { ended with st := if st.pause then .paused else .idle } ∧ (∀ m, m ≠ n → u'.stream m = u.stream m) ∧
        u'.fetch.cache = u.fetch.cache ∧ u'.mmp = u.mmp) ∧
      (∀ code, w.getLsbD 31 = true → u.headerCheck n h = .error code → ∃ u' : State, exec (.ringReadReturn mtag gen false (h :: ls)) s = .next u'.settle ∧
        (u'.stream n).st = .faulted ∧ (u'.stream n).faultCode = code ∧ (u'.stream n).faultPos = st.cons ∧ (∀ m, m ≠ n → u'.stream m = u.stream m)) ∧
      (w.getLsbD 31 = true → u.headerCheck n h = .ok .pad → (w.extractLsb' 27 3).toNat = ls.length →
        ∃ u' : State, exec (.ringReadReturn mtag gen false (h :: ls)) s = .next u'.settle ∧
          (let wrap := decide (st.cons.toNat + ls.length + 1 = 2 ^ st.log2.toNat)
           let cons : BitVec 16 := if wrap then 0 else BitVec.ofNat 16 (st.cons.toNat + ls.length + 1)
           u'.stream n = { st with
             cons := cons, fetchPos := cons, phase := if wrap then ~~~st.phase else st.phase, entries := st.entries + 1, serial := st.serial + 1, fetching := false,
             st := if st.pause then .paused else .ready, dbStarted := if st.pause then st.dbStarted else false, head := none }) ∧
          (∀ m, m ≠ n → u'.stream m = u.stream m) ∧
          u'.mmp = u.mmp ++ [u.asksWrite (st.unitAddr st.cons) 4 [(w &&& 0x7FFFFFFF).setWidth 512] (.release ⟨n, st.serial⟩ st.cons)])) ∧
    (∀ (k : EKey) (e : Entry) (pos : BitVec 16), s.gets false mtag gen u q → q.why = .release k pos → u.entry k = some e →
      exec (.releaseWriteAck mtag gen false) s = .next ((u.setEntry k (some { e with released := true })).land2Retry k.stream).settle ∧
      ((u.stream k.stream).fetching = false →
        exec (.releaseWriteAck mtag gen true) s =
          .next (((u.setEntry k (some { e with released := true })).streamFault k.stream 0x0C pos).land2Retry k.stream).settle)))

/-! ## Entries that take effect at a point (spec/03, spec/04, spec/08) -/

/-- R112, R114, R145: a SIGNAL entry is applied once every earlier launch of its stream has passed step 2 of R406: its first
used pair is offered to the sync block and the later ones behind it; one without used pairs completes, and frees its stream. A
BARRIER passes once it is the oldest entry of its stream. A stream whose running launches made no progress for the timeout loses
the context of the oldest of them that has not been aborted, with an S3 event, and restarts the timer. (The model takes no launch
past t_done as running, log entry 52.) -/
def Obligations.Points : Prop :=
  ∀ (s : State) (n : BitVec 14) (k : EKey) (e : Entry), k.stream = n → s.entry k = some e →
    let st := s.stream n
    (st.sigPending = some k.seq → e.pairDone = 0 → (s.entriesOf n).any (fun x => x.2.etype.isLaunch && decide (x.1.seq < k.seq) && !x.2.recDone) = false →
      (∀ x xs, unitUpds (e.units.getD 1 0) = x :: xs →
        exec (.signalEntryApply n) s = .next { s.setEntry k (some { e with pairDone := 1 }) with
          sync := { s.sync with offers := s.sync.offers ++ [⟨.signalEntry, x, xs, some k⟩] } }) ∧
      (unitUpds (e.units.getD 1 0) = [] → (st.st ≠ .blocked ∨ st.head ≠ none) →
        exec (.signalEntryApply n) s =
          .next (((s.setEntry k (some { e with pairDone := 1 })).setStream n { st with sigPending := none }).enterLanding k))) ∧
    (st.head = some k.seq → e.etype = .barrier → e.stage = .point → (s.entriesOf n).any (fun x => decide (x.1.seq < k.seq)) = false →
      exec (.barrierPass n) s = .next ((s.headLeaves k).enterLanding k)) ∧
    (((s.entriesOf n).filter (fun x => x.2.running)).find? (fun x => !x.2.aborted && (decide (x.2.stage = .running) || decide (x.2.stage = .draining))) = some (k, e) →
      st.progressT.toNat + st.limitUs.toNat * 1000 ≤ s.time.toNat →
      exec (.streamTimeout n) s =
        .next ((((s.setStream n { st with progressT := s.time, limitUs := st.timeoutUs }).bump (pageAddr pFTCH 0x6C)).raise { ev pFTCH 0x0B 3 with
            stream := some n, part := some e.part, ctx := some e.ctx }).loseCtx e.part (e.ctx.extractLsb' 0 16) 0x02 (n.setWidth 20) 0x0B)) ∧
    (((s.entriesOf n).filter (fun x => x.2.running)) ≠ [] →
      ((s.entriesOf n).filter (fun x => x.2.running)).find? (fun x => !x.2.aborted && (decide (x.2.stage = .running) || decide (x.2.stage = .draining))) = none →
      st.progressT.toNat + st.limitUs.toNat * 1000 ≤ s.time.toNat →
      exec (.streamTimeout n) s = .next (s.setStream n { st with progressT := s.time, limitUs := st.timeoutUs }))

/-- R70, R348: a MODEL_SWITCH entry that is held at stage 7 and whose windows have started takes the SERVING partition to
DRAINING, and its launches that hold a thread without having started give it back; once no launch of it runs and no record is owed, the partition goes to SWITCHING; then PART.MODEL takes the entry's
identifier, the partition is SERVING again, and the entry completes. R298, R299, R301, R348: an EPOCH_ADVANCE entry that is held
at stage 7 and whose windows have started becomes the partition's pending advance. At a launch boundary with LIVE_OLD 0 and no
update running the advance commits: CUR rises by one, the live launches count as old, an old epoch is kept, EPOCHS counts, and
an entry that does not wait for the retirement completes; with a retirement outstanding, or CUR at its last value, it is refused
and counted. (The model reads the rules as log entry 42 says.) -/
def Obligations.ModelSwitchesAndEpochs : Prop :=
  (∀ (s : State) (k : EKey) (e : Entry) (p : BitVec 4), s.entry k = some e → e.part = p → e.etype = .modelSwitch →
    let state := rPART p 0x74
    ((s.stream k.stream).head = some k.seq → e.stage = .point → e.pairDone = 1 → s.windowsStarted p = true → s.pointOpen p = true →
      let u := (s.setF state 0 2#3).setEntry k (some { e with pairDone := 2 })
      let placed := u.allEntries.filter (fun x => decide (x.2.part = p) && x.2.core.isSome && !x.2.executed)
      exec (.modelSwitch k.stream) s = .next (placed.foldl (fun t x => if x.2.stage = .place then t.backTo8 x.1 else t.unplace x.1) u) ∧
      (placed = [] → exec (.modelSwitch k.stream) s = .next u)) ∧
    (s.num state 0 3 = 2 → s.shoal.wins = [] →
      (∀ x ∈ s.allEntries, x.2.part = p → x.2.running = false ∧ ((x.2.stage = .finished ∨ x.2.stage = .landing) → x.2.writesRecord = true → x.2.recDone = true)) →
      exec (.modelSwitchDrained p) s = .next (s.setF state 0 3#3)) ∧
    (s.num state 0 3 = 3 → s.allEntries.find? (fun x => decide (x.2.part = p) && decide (x.2.etype = .modelSwitch) && decide (x.2.pairDone = 2)) = some (k, e) →
      exec (.modelSwitchComplete p) s =
        .next (((((s.setF state 0 1#3).wr (rPART p 0x70) e.lctrl).modelForget p).headLeaves k).enterLanding k).settle)) ∧
  (∀ (s : State) (k : EKey) (e : Entry) (p : BitVec 4), s.canonical = true → s.entry k = some e → e.part = p → e.etype = .epochAdvance →
    let stat := rTIDE p 8
    let live := rTIDE p 0xC
    ((s.stream k.stream).head = some k.seq → e.stage = .point → e.pairDone = 1 → s.windowsStarted p = true → s.pointOpen p = true → s.flag stat 31 = false →
      exec (.epochAdvance k.stream) s = .next ((s.setBit stat 31 true).setEntry k (some { e with pairDone := 2 }))) ∧
    (s.advancing p = some (k, e) → s.num live 16 16 = 0 → s.num stat 0 16 = 0 → s.windowsStarted p = true →
      (s.flag stat 30 = false → s.cur p ≠ 0xFFFFFFFFFFFF → e.lctrl.getLsbD 0 = false → ∃ u : State, exec (.epochCommit p) s = .next ((u.headLeaves k).enterLanding k).settle ∧
        u.cur p = s.cur p + 1 ∧ u.fld live 0 16 = (0 : BitVec 16) ∧ u.fld live 16 16 = (s.fld live 0 16 : BitVec 16) ∧ u.flag stat 31 = false ∧ u.flag stat 29 = true ∧
        u.num (rTIDE p 0x14) 0 32 = min (s.num (rTIDE p 0x14) 0 32 + 1) 0xFFFFFFFF ∧
        RegsBut s u [rTIDE p 0, rTIDE p 4, stat, live, rTIDE p 0x14] ∧ { u with regs := s.regs } = s) ∧
      (s.flag stat 30 = false → s.cur p ≠ 0xFFFFFFFFFFFF → e.lctrl.getLsbD 0 = true → ∃ u : State, exec (.epochCommit p) s =
          .next (u.setEntry k (some { e with pairDone := 3 })).settle ∧ u.cur p = s.cur p + 1 ∧
        u.fld live 0 16 = (0 : BitVec 16) ∧ u.fld live 16 16 = (s.fld live 0 16 : BitVec 16) ∧ u.flag stat 31 = false ∧ u.flag stat 29 = true ∧
        RegsBut s u [rTIDE p 0, rTIDE p 4, stat, live, rTIDE p 0x14] ∧ { u with regs := s.regs } = s) ∧
      (s.flag stat 30 = true ∨ s.cur p = 0xFFFFFFFFFFFF → exec (.epochCommit p) s = .next (s.refuseAdvance k p).settle)))

/-! ## Sync objects (spec/07_sync_objects.md) -/

/-- R34, R246, R269, R270: an access of an object's window by a requester that may reach it offers a SIGNAL, an ADD or, for a
privileged one, a FORCE with the written data to the object's bank, which answers the access when it has applied the update
(R38, R582); nothing else changes. R241, R244, R251, R270, R274: a bank
takes the next offer in its rotation and applies it. SIGNAL gives max(old, v), ADD old + v saturating, FORCE v where no waiter
and no pass refers to the object, and clears its poison; a poisoned object takes no other update. An object that rises to
MIN_WAIT or above is flagged for a pass behind those flagged before, once. No other object changes, and the unit's next pair is
offered; the last pair of a SIGNAL entry completes the entry, and the last of a launch lets Landing's next completion go on. R244, R245: one offer of a bank is taken each time, never one of another bank, and the sources take turns: with an
offer of every source waiting, the source after the one served last is served. (The model reads the rules as log entries 14 and
41 say.) -/
def Obligations.SyncObjects : Prop :=
  (∀ (s : State) (tag : BitVec 13) (n : BitVec 14) (v : Dword), s.serves = true → s.noRun = true → s.mayTouch tag n.toNat = true →
    let offers := fun (i : Instr) (k : UpdKind) => exec i s = .next { s with
      sync := { s.sync with offers := s.sync.offers ++ [⟨.rdp, ⟨k, n, v⟩, [], none⟩] }, rdp := { s.rdp with waits := true } }
    offers (.soSignal tag n 0xFF v) .signal ∧ offers (.soAdd tag n 0xFF v) .add ∧ (tag.getLsbD 12 = true → offers (.soForce tag n 0xFF v) .force)) ∧
  (∀ (s : State) (bank : BitVec 1) (x : Offer), s.canonical = true → bankPick s.sync.offers bank (if bank = 0 then s.sync.rot0 else s.sync.rot1) = some x →
    let n := x.upd.so.toNat
    let o := s.obj n
    let v := x.upd.value
    let goes := fun (t : State) => match x.rest, x.entry with
      | [], none => t.land3Next
      | [], some k =>
        let st := { t.stream k.stream with sigPending := none }
        let t := t.setStream k.stream st
        (if st.st = .blocked ∧ st.head = none then
          (if st.pause then t.setStream k.stream { st with st := .paused } else t.queueReady k.stream false) else t).enterLanding k
      | _, _ => t
    ∃ s' : State, exec (.syncBankApply bank) s = .next (if x.src = .rdp ∧ (goes s').rdp.waits = true then (goes s').soAnswered else goes s') ∧
      (∀ m, m ≠ n → s'.obj m = s.obj m) ∧
      s'.sync.offers = s.sync.offers.erase x ++ (match x.rest with | [] => [] | y :: ys => [⟨x.src, y, ys, x.entry⟩]) ∧
      (if bank = 0 then s'.sync.rot0 = x.src.index ∧ s'.sync.rot1 = s.sync.rot1 else s'.sync.rot1 = x.src.index ∧ s'.sync.rot0 = s.sync.rot0) ∧
      { s' with sync := s.sync, regs := s.regs, reef := s.reef, mmp := s.mmp, fap := s.fap } = s ∧
      (x.upd.kind = .force → o.forceOk = true → s'.obj n = { o with value := v, poison := false } ∧ s'.sync.passes = s.sync.passes) ∧
      (x.upd.kind = .force → o.forceOk = false → s'.obj n = o ∧ s'.sync.passes = s.sync.passes ∧ s'.rd (pageAddr pSYNC 0x14) = (s.rd (pageAddr pSYNC 0x14) ||| 0x10000)) ∧
      (x.upd.kind ≠ .force → o.poison = true → s'.obj n = o ∧ s'.sync.passes = s.sync.passes) ∧
      (x.upd.kind ≠ .force → o.poison = false →
        let new : Dword := if x.upd.kind = .signal then BitVec.ofNat 64 (max o.value.toNat v.toNat)
          else BitVec.ofNat 64 (min (o.value.toNat + v.toNat) 0xFFFFFFFFFFFFFFFF)
        let rises := decide (o.value < new) && decide (o.minWait ≤ new)
        s'.obj n = { o with value := new, flagged := o.flagged || rises } ∧
        s'.sync.passes = if rises && !o.flagged then s.sync.passes ++ [n] else s.sync.passes)) ∧
  (∀ (offers : List Offer) (bank : BitVec 1) (last : Nat),
    (∀ x, bankPick offers bank last = some x → x ∈ offers ∧ x.upd.so.extractLsb' 0 1 = bank) ∧
    (bankPick offers bank last = none → ∀ x ∈ offers, x.upd.so.extractLsb' 0 1 ≠ bank) ∧
    (∀ x, bankPick offers bank last = some x → ∀ y ∈ offers, y.upd.so.extractLsb' 0 1 = bank →
      (x.src.index + 4 - last % 5) % 5 ≤ (y.src.index + 4 - last % 5) % 5))

/-- R250, R252, R253: a pass takes the object flagged first. It releases exactly the waiters in its list that are not void and
hold, the oldest that waits for MIN_WAIT first; the void and the released ones leave the list, MIN_WAIT is that of the waiters
that remain, and the flag falls. (The model reads the rules as log entry 41 says.) -/
def Obligations.WakePasses : Prop :=
  ∀ (s : State) (n : Nat) (rest : List Nat), s.canonical = true → s.sync.passes = n :: rest →
    let o := s.obj n
    let sat := fun (w : Waiter) => !w.void && decide (w.value ≤ o.value) && !o.poison
    ∃ (u : State) (out : List Waiter), exec .wakePass s = .next (out.foldl (fun t w => t.freed w.who) u) ∧
      (o.waiters.Nodup → out.Perm (o.waiters.filter sat)) ∧
      (∀ w, o.waiters.find? (fun x => sat x && decide (x.value = o.minWait)) = some w → ∃ ws, out = w :: ws) ∧
      (u.obj n).waiters = o.waiters.filter (fun w => !w.void && !(decide (w.value ≤ o.value) && !o.poison)) ∧
      (∀ w ∈ (u.obj n).waiters, (u.obj n).minWait ≤ w.value) ∧ (u.obj n).flagged = false ∧ (u.obj n).value = o.value ∧
      (∀ m, m ≠ n → u.obj m = s.obj m) ∧ u.sync.passes = rest ∧ { u with sync := s.sync, regs := s.regs } = s

/-- R247, R259, R274: the first read of a fence word: a value that the pair waits for lets the entry go on with its next pair; a
smaller one parks the stream on the pair, with a poll entry for a local word and a watch for a remote one; an error ends the
entry and faults its stream with RING_READ. A read that comes back for
an entry that does not wait for it any more changes nothing (R249). R253, R260, R262, R264, R265, R274, R607: an interval of polls
reads the line of every local word in the table once, every remote word there by a fetch-add of 0 and the word of every queued
stream, and counts the reads; with one entry in the table, the read that comes back releases its stream when the word has reached
the waited-for value, leaves it else, and on an error faults the stream with RING_READ; a notification
releases the stream of the watch and frees it when the value suffices, one for a freed watch is counted in STALE_WATCH, and one
of an old generation in LATE_FAP; the result of a cancel frees the watch number. (The model reads the rules as log entries 20
and 41 say.) -/
def Obligations.FencesAndPolls : Prop :=
  (∀ (s t : State) (fab : Bool) (mtag : BitVec 8) (gen : BitVec 4) (q : MReq) (k : EKey) (e : Entry) (i : Nat) (unit line : Line),
    (if fab then s.answerFap mtag gen else s.answer true mtag gen) = (t, some q) → q.why = .fenceRead k i → t.entry k = some e → e.waitUnit = some unit →
    (∀ err, ¬(e.stage = .fence ∧ e.pairDone = i) → exec (.fenceReadReturn fab mtag gen err line) s = .next t) ∧
    (e.stage = .fence → e.pairDone = i →
    let v := Line.w64 unit (16 * i)
    let w := Line.w64 unit (16 * i + 8)
    let a : Addr := w.extractLsb' 0 57
    let got := Line.w64 line (if fab then 0 else w.toNat % 64)
    (v ≤ got → exec (.fenceReadReturn fab mtag gen false line) s = .next (t.stage6 k (i + 1))) ∧
    (got < v → (e.etype.isLaunch = false ∨ e.inPark = true ∨ t.parkValid = true) →
      (t.isLocal a = true → exec (.fenceReadReturn fab mtag gen false line) s = .next ((t.addPoll ⟨k, i, e.part, a, v⟩).park k i v w)) ∧
      (t.isLocal a = false → exec (.fenceReadReturn fab mtag gen false line) s = .next ((t.addWatch ⟨k, i, e.part, a, v⟩).park k i v w))) ∧
    exec (.fenceReadReturn fab mtag gen true line) s = .next (((
      (t.setStream k.stream { t.stream k.stream with head := none, waitValue := 0, waitTarget := 0 }).entrySlotIdle k).closeEntry k).streamFault
        k.stream 0x0A e.pos))) ∧
  (∀ (s t : State) (fab : Bool) (mtag : BitVec 8) (gen : BitVec 4) (q : MReq) (p : Poll) (line : Line),
    (if fab then s.answerFap mtag gen else s.answer true mtag gen) = (t, some q) → t.pwr.mode ≠ .waking → t.sync.polls = [p] → t.sync.pollQ = [] →
    q.why = .poll (if t.isLocal p.addr then p.addr &&& ~~~63#57 else p.addr) →
    let got := Line.w64 line (if t.isLocal p.addr then p.addr.toNat % 64 else 0)
    let u := { t with sync := { t.sync with polls := [] } }
    (p.value ≤ got → exec (.fenceReadReturn fab mtag gen false line) s = .next (u.release (.pair p.who p.pair)).fillPolls) ∧
    (got < p.value → exec (.fenceReadReturn fab mtag gen false line) s = .next t) ∧
    exec (.fenceReadReturn fab mtag gen true line) s = .next (u.fenceError p.who).fillPolls) ∧
  (∀ (s : State), s.pwr.mode = .active →
    let reads := fun (n : Nat) => s.wr (rSYNC 0x74) (satAdd (s.rd (rSYNC 0x74)) n)
    (s.powered 13 = true →
      let words := distinct (s.sync.polls.map (fun p => s.pollKey p.addr)) ++ s.sync.pollQ.map (fun p => s.pollKey p.addr)
      (∀ (order : List Addr), words = [] → exec (.pollInterval order) s = .next s) ∧
      (∀ (order : List Addr), words ≠ [] → ∃ (s' : State) (out : List Addr), exec (.pollInterval order) s = .next s' ∧ out.Perm words ∧
        (order.Perm words → order.Nodup → out = order) ∧
        s'.mmp.map (·.why) = s.mmp.map (·.why) ++ (out.filter s.isLocal).map .poll ∧
        s'.fap.map (·.why) = s.fap.map (·.why) ++ (out.filter (fun a => !s.isLocal a)).map .poll ∧
        { s' with mmp := s.mmp, fap := s.fap } = reads words.length) ∧
      (∀ (order : List Addr) (p : Poll), s.sync.polls = [p] → s.sync.pollQ = [] →
        (s.isLocal p.addr = true →
          let a := p.addr &&& ~~~63#57
          exec (.pollInterval order) s = .next { reads 1 with mmp := s.mmp ++ [s.asksRead a 1 (.poll a)] }) ∧
        (s.isLocal p.addr = false → exec (.pollInterval order) s =
          .next { reads 1 with fap := s.fap ++ [⟨freeTag s.fap .fetch, .fetch, s.fapGen, .fetchAdd 0, p.addr, 8, [], .poll p.addr⟩] }))) ∧
    (∀ (n : BitVec 8) (p : Poll) (c : Bool) (v : Dword), s.powered 29 = true → s.watch n.toNat = ⟨some p, c⟩ →
      (p.value ≤ v → exec (.watchNotify n s.fapGen v) s = .next ((s.setWatch n.toNat ⟨none, false⟩).release (.pair p.who p.pair))) ∧
      (v < p.value → exec (.watchNotify n s.fapGen v) s = .next s)) ∧
    (∀ (n : BitVec 8) (c : Bool) (v : Dword), s.powered 29 = true → s.watch n.toNat = ⟨none, c⟩ →
      exec (.watchNotify n s.fapGen v) s = .next ((s.setWatch n.toNat ⟨none, false⟩).bump (rSYNC 0xA4))) ∧
    (∀ (n : BitVec 8) (gen : BitVec 4) (v : Dword), s.powered 29 = true → gen ≠ s.fapGen →
      exec (.watchNotify n gen v) s = .next (s.bump (pageAddr pCLKR 0x14C))) ∧
    (∀ (u : State) (mtag : BitVec 8) (gen : BitVec 4) (err : Bool) (q : MReq) (n : Nat), s.answerFap mtag gen = (u, some q) → q.why = .watchCancel n →
      exec (.watchCancelDone mtag gen err) s = .next (u.setWatch n ⟨(u.watch n).held, false⟩)))

/-- R266, R267, R276, R277: MIRROR_EN written 1 writes every mirrored value once; an entry's EN written 1 for an object that no
entry mirrors stores it and writes its value, for one that an entry mirrors sets PG_ERR bit 17 alone, and EN written 0 ends it.
The result of a mirror write ends it, is followed by a write of the latest value when an update came meanwhile, and an error
marks the entry failed, sets MIRROR_ERR and raises an S1 event naming the word; the retry writes the failed entries again. R60,
R268, R631: an atomic command while none is under way becomes BUSY and issues a fetch-add, a max or a compare-swap of the
operand registers on ATOM_ADDR, at MMP for a local word and at FAP for any other; while BUSY it sets PG_ERR bit 20 alone. Its
result ends BUSY and gives the old value, or ERROR and 0. (The model reads the rules as log entry 32 says.) -/
def Obligations.MirrorsAndAtomics : Prop :=
  (∀ (s : State) (tag : BitVec 13), s.canonical = true →
    let m := s.num (rSYNC 0x60) 0 10
    let key := bankKey m (rSYNC 0x64)
    let write := fun (t : State) (m : Nat) => (t.setMirror m ⟨true, false, (t.mirrorE m).failed⟩).atomic
      (.max (t.obj ((t.mirrorObj m).extractLsb' 0 14).toNat).value) (t.mirrorAddr m) (.mirror m)
    (s.reaches tag pSYNC .sync 0 = true →
      (s.mirrorsOn = [] → Answers (.mirrorEnable tag) s (s.setBit (rSYNC 0x40) 1 true)) ∧
      (∀ j, s.mirrorsOn = [j] → (s.mirrorE j).out = false → Answers (.mirrorEnable tag) s (write (s.setBit (rSYNC 0x40) 1 true) j)) ∧
      (∀ n : BitVec 14, s.flag key 31 = false → (s.mirrorOf n.toNat).isSome = true → Answers (.mirrorEntryEnable tag true (n.setWidth 20)) s (s.setErr pSYNC 17)) ∧
      (∀ n : BitVec 14, s.flag key 31 = false → s.mirrorOf n.toNat = none → s.flag (rSYNC 0x40) 1 = true → (s.mirrorE m).out = false →
        Answers (.mirrorEntryEnable tag true (n.setWidth 20)) s (((s.wr key (1#1 ++ 0#17 ++ n)).setMirror m ⟨true, false, false⟩).atomic
          (.max (s.obj n.toNat).value) (s.mirrorAddr m) (.mirror m))) ∧
      (∀ n : BitVec 14, s.flag key 31 = true → Answers (.mirrorEntryEnable tag false (n.setWidth 20)) s
        ((s.setBit key 31 false).setMirror m ⟨(s.mirrorE m).out, false, false⟩))) ∧
    (∀ (u : State) (fab : Bool) (mtag : BitVec 8) (gen : BitVec 4) (q : MReq) (j : Nat) (old : Dword), s.getsAtom fab mtag gen u q → q.why = .mirror j →
      ((u.mirrorE j).stale = false → exec (.mirrorWriteResult fab mtag gen false old) s = .next (u.setMirror j ⟨false, false, false⟩)) ∧
      ((u.mirrorE j).stale = true → bit (u.mirrorObj j) 31 = true → u.flag (rSYNC 0x40) 1 = true →
        exec (.mirrorWriteResult fab mtag gen false old) s = .next ((u.setMirror j ⟨true, false, false⟩).atomic
          (.max (u.obj ((u.mirrorObj j).extractLsb' 0 14).toNat).value) (u.mirrorAddr j) (.mirror j))) ∧
      exec (.mirrorWriteResult fab mtag gen true old) s = .next (((u.setMirror j ⟨false, (u.mirrorE j).stale, true⟩).setErr pSYNC 19).raise
        { ev pSYNC 0x61 1 with akind := 1, addr := u.mirrorAddr j })) ∧
    (∀ j, s.powered 13 = true → s.mirrorsOn = [j] → (s.mirrorE j).failed = true → (s.mirrorE j).out = false → s.flag (rSYNC 0x40) 1 = true →
      exec .mirrorRetry s = .next (write s j))) ∧
  (∀ (s : State) (tag : BitVec 13), s.canonical = true →
    let cmd := rSYNC 0x70
    let a : Addr := (s.rd64 (rSYNC 0x78)).extractLsb' 0 57
    let v := s.rd64 (rSYNC 0x80)
    let c := s.rd64 (rSYNC 0x88)
    (s.reaches tag pSYNC .sync 0 = true → ∀ x ∈ [((.fetchAdd tag : Instr), MOp.fetchAdd v), (.atomMax tag, .max v), (.compareSwap tag, .cas c v)],
      (s.flag cmd 27 = true → Answers x.1 s (s.setErr pSYNC 20)) ∧
      (s.flag cmd 27 = false → s.isLocal a = true → Answers x.1 s { s.setBit cmd 27 true with
        mmp := s.mmp ++ [⟨freeTag s.mmp .atomic, .atomic, s.mmpGen, x.2, a, 8, [], .atom⟩] }) ∧
      (s.flag cmd 27 = false → s.isLocal a = false → Answers x.1 s { s.setBit cmd 27 true with
        fap := s.fap ++ [⟨freeTag s.fap .fetch, .fetch, s.fapGen, x.2, a, 8, [], .atom⟩] })) ∧
    (∀ (u : State) (fab : Bool) (mtag : BitVec 8) (gen : BitVec 4) (q : MReq) (err : Bool) (old : Dword), s.getsAtom fab mtag gen u q → q.why = .atom →
      ∃ s' : State, exec (.atomResult fab mtag gen err old) s = .next s' ∧ s'.flag cmd 27 = false ∧ s'.flag cmd 26 = err ∧
        s'.rd64 (rSYNC 0x90) = (if err then 0 else old) ∧ RegsBut u s' [cmd, rSYNC 0x90, rSYNC 0x94] ∧ { s' with regs := u.regs } = u))

/-! ## Command buffers, templates and contexts (spec/03, spec/05) -/

/-- R177, R183: a slice of a launch whose launch block is out and whose next lines are parameter or constant lines emits as many
lines as SLICE allows, each in its place, after which the next channel is served. With no ready launch and no lookup launch kept
out of the store nothing happens. R98, R99, R179, R181, R191: input lines that return to a launch are put in their place, and
the launch goes on; a read error marks it; a directory line that returns at the pin enters the directory cache, and the launch pins
what it says. What was prefetched for the next entry is kept for it, unless it is not wanted any more. A handle-table entry enters
the slot's handle cache first, the last of 120 others leaving it, and the launches that wait for it go on; one that an invalidation
has overtaken is dropped while it is read again; one that a launch reads for the table it has pinned (R97) is kept with the launch;
a read error faults the launches that wait with code 0x01. (The model reads the
rules as log entry 16 says.) -/
def Obligations.SlicesAndInputs : Prop :=
  (∀ (s : State), s.canonical = true → s.allEntries.any (fun x => decide (x.2.etype = .lookupLaunch)) = false →
    let order := (List.range 16).map (fun i => (s.ferry.last.toNat + 1 + i) % 16)
    (order.findSome? (fun c => (s.chanReady c).map (fun k => (c, k))) = none → exec .ferrySlice s = .next s) ∧
    (∀ (c : Nat) (k : EKey) (e : Entry) (m : Nat), order.findSome? (fun c => (s.chanReady c).map (fun k => (c, k))) = some (c, k) → s.entry k = some e →
      s.num (pageAddr pFERY 0x40) 0 7 = m → e.decode = 0 → 1 ≤ e.lines.length →
      e.lines.length + m ≤ 1 + ceilDiv e.xP 16 + (if e.constIn then 4 else 0) → e.lines.length + m < e.total →
      let line := fun (n : Nat) => if n ≤ ceilDiv e.xP 16 then
          (if e.isDirect then e.extUnit.getD 0 else e.cb.getD n 0) &&& BitVec.ofNat 512 (2 ^ (32 * (e.xP - 16 * (n - 1))) - 1)
        else e.cst.getD (n - 1 - ceilDiv e.xP 16) 0
      ∃ u : State, exec .ferrySlice s = .next u.settle ∧
        u.entry k = some { e with store := e.total, lines := e.lines ++ (List.range m).map (fun i => line (e.lines.length + i)) } ∧
        (∀ j, j ≠ k → u.entry j = s.entry j) ∧ u.ferry.last = BitVec.ofNat 4 c ∧
        RegsBut s u [pageAddr 0x0D (0x40 + 4 * c)] ∧
        { u with entries := s.entries, regs := s.regs, ferry := { u.ferry with last := s.ferry.last } } = s)) ∧
  (∀ (s u : State) (mtag : BitVec 8) (gen : BitVec 4) (q : MReq) (ls : List Line), s.canonical = true → s.gets true mtag gen u q →
    (∀ (k : EKey) (e : Entry) (part off : Nat), q.why = .input k part off → u.entry k = some e → part ∈ [1, 2, 3, 4] → ls.length * 64 = q.len →
      let e' : Entry := { e with waiting := e.waiting - 1 }
      exec (.ferryInputReady k.stream mtag gen false ls) s =
        .next ((u.setEntry k (some (e'.setInput part (setLines (e.inputPart part) off ls)))).advance k).settle ∧
      exec (.ferryInputReady k.stream mtag gen true []) s = .next ((u.setEntry k (some { e' with inErr := true })).advance k).settle) ∧
    (∀ (k : EKey) (e : Entry) (l : Line), q.why = .input k 0 0 → u.entry k = some e → q.len = 64 →
      let d := (u.dirGet e.part e.tmplId).getD (DirEntry.ofLine l (e.tmplId.toNat % 2))
      exec (.ferryInputReady k.stream mtag gen false [l]) s = .next ((((u.setEntry k (some { e with waiting := e.waiting - 1 })).dirPut e.part e.tmplId d).setEntry k
        (some { e with waiting := e.waiting - 1, tpinned := d.valid, tgen := d.gen, timg := d.image, tlines := d.lines })).advance k).settle) ∧
    (∀ (k : EKey) (a : Addr), q.why = .ahead k a true → (u.stream k.stream).serial = k.seq → ls.length * 64 = q.len →
      exec (.ferryInputReady k.stream mtag gen false ls) s = .next { u with ferry := { u.ferry with
        ahead := u.ferry.ahead ++ ls.mapIdx (fun i l => (k, a + BitVec.ofNat 57 (64 * i), l)) } }) ∧
    (∀ (k : EKey) (a : Addr), q.why = .ahead k a false → ls.length * 64 = q.len →
      exec (.ferryInputReady k.stream mtag gen false ls) s = .next u) ∧
    (∀ (k : EKey) (e : Entry) (idx : Nat) (l : Line), q.why = .handleOwn k idx → q.len = 64 → u.entry k = some e → e.stage = .miss → e.missIdx = idx →
      exec (.handleEntryReturn mtag gen false [l]) s = .next ((u.setEntry k (some { e with
        stage := if e.prepared then .ferry else .input, ownH := (idx, handleBits (geomBase e.geom) idx l) :: e.ownH })).advance k).settle ∧
      exec (.handleEntryReturn mtag gen true []) s = .next (u.ferryFault k 0x01).settle) ∧
    (∀ (n i : Nat), q.why = .handle n i → i < staleHandle → exec (.handleEntryReturn mtag gen true []) s = .next
      (((u.allEntries.filter (fun x => decide (x.2.stage = .miss) && decide (x.2.slot = some n) && decide (x.2.missIdx = i))).map (·.1)).foldl
        (fun t k => t.ferryFault k 0x01) u).settle) ∧
    (∀ (n i : Nat) (l : Line), q.why = .handle n i → q.len = 64 →
      (i < staleHandle → exec (.handleEntryReturn mtag gen false [l]) s = .next
        (((u.allEntries.filter (fun x => decide (x.2.stage = .miss) && decide (x.2.slot = some n) && decide (x.2.missIdx = i))).map (·.1)).foldl
          (fun t k => (t.updEntry k (fun e => { e with stage := if e.prepared then .ferry else .input })).advance k)
          (u.setSlot n { u.slot n with cache := (i, handleBits (geomBase ((u.slot n).recLines.getD 0 0)) i l) ::
            ((u.slot n).cache.filter (fun x => decide (x.1 ≠ i))).take 119 })).settle) ∧
      (staleHandle ≤ i → u.mmp.any (fun m => decide (m.why = .handle n (i - staleHandle))) = true →
        exec (.handleEntryReturn mtag gen false [l]) s = .next u)))

/-- R80, R89, R91, R93: the record of a context that is VALID and not LOST, staged lines and waiting changes in it, makes its slot
BUSY with the record's lines, and the launches that wait for it go on; a read error, or a record that is not VALID or is LOST, frees
it, and the waiting launches end, with CB_READ or as CTX_LOST. The Harbour queue serves first a partition below its minimum, and a
launch that is given its slot leaves the queue and re-enters through a channel, or goes on from its park; a launch whose context is
being destroyed is CTX_LOST (R85). R187, R189: an acknowledgement of a park write is counted, and the last one gives the launch's
lines in the expansion store back; the lines that a read-back brings are put in their place; the last ones of a launch whose context
is resident let it go on, any other joins the Harbour queue, and one whose context is being destroyed is CTX_LOST; an error in either
completes the launch with code 0x0E. (The model reads the rules as log entry 16 says.) -/
def Obligations.HarbourAndPark : Prop :=
  (∀ (s u : State) (mtag : BitVec 8) (gen : BitVec 4) (q : MReq) (n : Nat) (ls : List Line),
    s.gets true mtag gen u q → q.why = .ctxLoad n → (u.slot n).st = .loading → ls.length * 64 = q.len →
    let sl := u.slot n
    let ws := u.loadWaiters n
    let waits := u.harb.changes.any (fun x => decide (x.1 = sl.part) && decide (x.2.1 = sl.ctx))
    let lines := u.recordOf sl ls
    let a := u.applyChanges sl.part sl.ctx (lines.getD 1 0)
    let t := a.1.setSlot n { sl with st := .busy, recLines := lines.set 1 a.2, missing := 0 }
    let lost := ws.foldl (fun t k => (t.leaveQueues k).refuseLaunch k ⟨6, 0, 0⟩) t
    let failed := ws.foldl (fun t k => (t.leaveQueues k).cbFault k 0x01) u
    (a.2.getLsbD 0 = true → a.2.getLsbD 1 = false → exec (.harbourRecordArrives mtag gen false ls) s =
      .next ((ws.foldl State.ctxReady (t.ctxCmdLoaded sl.part sl.ctx)).slotIdle n).settle) ∧
    (a.2.getLsbD 0 = false ∨ a.2.getLsbD 1 = true → exec (.harbourRecordArrives mtag gen false ls) s =
      .next (((if waits then lost.stageLine1 sl.part sl.ctx a.2 else lost).freeSlot n).ctxCmdLoaded sl.part sl.ctx).settle) ∧
    (waits = false → exec (.harbourRecordArrives mtag gen true []) s = .next ((failed.freeSlot n).ctxCmdLoaded sl.part sl.ctx).settle)) ∧
  (∀ (s : State),
    let lost := s.harbOrder.find? (fun k => match s.entry k with | some e => s.destroying e | none => false)
    (∀ k, lost = some k → exec .harbourQueueServe s = .next ((s.leaveQueues k).refuseLaunch k ⟨6, 0, 0⟩)) ∧
    (∀ (k : EKey) (t : State), lost = none → s.harbOrder.findSome? (fun k => match s.entry k with
        | some e => (s.takeCtx k e.part (e.ctx.extractLsb' 0 16)).map (fun t => (k, t))
        | none => none) = some (k, t) → exec .harbourQueueServe s = .next (t.served k))) ∧
  (∀ (s u : State) (mtag : BitVec 8) (gen : BitVec 4) (q : MReq) (n : Nat), s.canonical = true →
    (s.gets true mtag gen u q → q.why = .ctxLoad n → q.len = 256 → (u.slot n).st = .loading → (u.slot n).missing = 4 → u.loadWaiters n = [] →
      u.harb.changes = [] → u.harb.staged = [] → u.ctxCmd (u.slot n).part = none →
      (∀ l0 l1 l2 l3 : Line, l1.getLsbD 0 = true → l1.getLsbD 1 = false →
        exec (.harbourRecordArrives mtag gen false [l0, l1, l2, l3]) s =
          .next ((u.setSlot n { u.slot n with st := .busy, recLines := [l0, l1, l2, l3], missing := 0 }).slotIdle n).settle) ∧
      (∀ l0 l1 l2 l3 : Line, l1.getLsbD 0 = false ∨ l1.getLsbD 1 = true → ∃ t : State,
        exec (.harbourRecordArrives mtag gen false [l0, l1, l2, l3]) s = .next t.settle ∧ (t.slot n).st = .free ∧ (∀ m, m ≠ n → t.slot m = u.slot m)) ∧
      (∃ t : State, exec (.harbourRecordArrives mtag gen true []) s = .next t.settle ∧ (t.slot n).st = .free ∧ (∀ m, m ≠ n → t.slot m = u.slot m))) ∧
    (∀ (k : EKey) (e : Entry), s.harb.queue = [k] → s.entry k = some e → e.prepared = false → s.slotOf e.part (e.ctx.extractLsb' 0 16) = none →
      (s.slot 0).st = .free → s.destroying e = false →
      ∃ t : State, exec .harbourQueueServe s = .next t ∧ t.harb.queue = [] ∧ t.fetch.reenter = s.fetch.reenter.filter (fun j => decide (j ≠ k)) ++ [k] ∧
        t.entry k = some { e with slot := some 0, stage := .reenter, asked := 1 } ∧ (t.slot 0).st = .loading ∧ (t.slot 0).part = e.part ∧
        (t.slot 0).ctx = e.ctx.extractLsb' 0 16 ∧ (∀ m, m ≠ 0 → t.slot m = s.slot m) ∧ ∃ r, t.mmp = s.mmp ++ [r] ∧ r.why = .ctxLoad 0)) ∧
  (∀ (s u : State) (mtag : BitVec 8) (gen : BitVec 4) (q : MReq) (k : EKey) (e : Entry), s.canonical = true → u.entry k = some e →
    (s.gets false mtag gen u q → q.why = .park k →
      exec (.parkWriteAck mtag gen false) s =
        .next (u.setEntry k (some { e with parkAcks := e.parkAcks - 1, store := if e.parkAcks ≤ 1 ∧ e.inPark = true then 0 else e.store })).settle ∧
      exec (.parkWriteAck mtag gen true) s =
        .next ((u.setEntry k (some { e with parkAcks := e.parkAcks - 1, store := if e.parkAcks ≤ 1 ∧ e.inPark = true then 0 else e.store })).parkFail k).settle) ∧
    (∀ (off : Nat) (ls : List Line), s.gets true mtag gen u q → q.why = .unpark k off → ls.length * 64 = q.len → e.prepared = true →
      (2 ≤ e.waiting → exec (.parkReadbackReturn mtag gen false ls) s =
        .next (u.setEntry k (some { e with waiting := e.waiting - 1, lines := setLines e.lines off ls }))) ∧
      (e.waiting = 1 →
        let v := u.setEntry k (some { e with waiting := 0, lines := setLines e.lines off ls, inPark := false })
        (u.destroying e = true → exec (.parkReadbackReturn mtag gen false ls) s = .next (v.refuseLaunch k ⟨6, 0, 0⟩).settle) ∧
        (∀ t : State, u.destroying e = false → v.takeCtx k e.part (e.ctx.extractLsb' 0 16) = some t →
          exec (.parkReadbackReturn mtag gen false ls) s = .next (t.ctxReady k).settle) ∧
        (u.destroying e = false → v.takeCtx k e.part (e.ctx.extractLsb' 0 16) = none →
          exec (.parkReadbackReturn mtag gen false ls) s = .next (v.enqueueHarb k).settle))) ∧
    (∀ (off : Nat) (ls : List Line), s.gets true mtag gen u q → q.why = .unpark k off → ls.length * 64 = q.len → e.prepared = false →
      (2 ≤ e.waiting → exec (.parkReadbackReturn mtag gen false ls) s =
        .next (u.setEntry k (some { e with waiting := e.waiting - 1, units := setLines e.units off ls }))) ∧
      (e.waiting = 1 → exec (.parkReadbackReturn mtag gen false ls) s =
        .next ((u.setEntry k (some { e with waiting := 0, units := setLines e.units off ls, inPark := false, stage := .input })).advance k).settle)) ∧
    (∀ off : Nat, s.gets true mtag gen u q → q.why = .unpark k off → exec (.parkReadbackReturn mtag gen true []) s = .next (u.parkFail k).settle))

/-- R163, R164: a template command of a partition that runs none, with no completion object and its number in the directory,
becomes BUSY with ERR 0 and reads the directory line; one beyond TMPL_COUNT ends with TMPL_RANGE; one written while BUSY sets
PG_ERR bit 18 alone. When the line is in: RETIRE of a valid template writes it with VALID and PINNED cleared; REGISTER of a
valid one and each other command of one that is not valid end with BAD_STATE; REGISTER and REPLACE of the right one read the
image's header; a read error ends the command with READ_ERROR. (The model reads the rules as log entries 16 and 32 say.) -/
def Obligations.TemplateCommands : Prop :=
  ∀ (s : State) (tag : BitVec 13) (p : BitVec 4), s.canonical = true →
    let cmd := rFERYp p 0x58
    (s.reaches tag pFERY .fery 0 = true → s.fld (pageAddr pFERY 0x48) 0 4 = p → s.flag (rFERYp p 0x64) 31 = false →
      ∀ (id : BitVec 12) (pin : Bool), ∀ x ∈ [((.register tag id pin : Instr), (1 : BitVec 4), pin), (.replace tag id pin, 2, pin), (.retire tag id, 3, false),
        (.setPin tag id pin, 4, pin)],
        let u := ((s.stored cmd 0x4000FFF (BitVec.ofNat 32 (id.toNat + if x.2.2 then 2 ^ 26 else 0))).setBit cmd 27 true).setF cmd 20 0#4
        (s.flag cmd 27 = true → Answers x.1 s (s.setErr pFERY 18)) ∧
        (s.flag cmd 27 = false → id.toNat < s.num (rFERYp p 0x54) 0 13 → Answers x.1 s
          ((u.setTmplCmd p (some ⟨x.2.1, id, x.2.2, s.addrPair (rFERYp p 0x5C) 6, 0, []⟩)).read (s.dirLineAddr p id) 1 (.tmplCmd p 0))) ∧
        (s.flag cmd 27 = false → s.num (rFERYp p 0x54) 0 13 ≤ id.toNat → Answers x.1 s (((u.setTmplCmd p none).setBit cmd 27 false).setF cmd 20 1#4))) ∧
    (∀ (u : State) (write : Bool) (mtag : BitVec 8) (gen : BitVec 4) (err : Bool) (lines : List Line) (q : MReq), s.gets (!write) mtag gen u q →
      write = true ∨ err = true ∨ lines.length * 64 = q.len →
      (∀ line : Nat, q.why = .tmplCmd p line → u.tmplCmd p = none → exec (.tmplCmdDone p write mtag gen err lines) s = .next u) ∧
      (∀ (line : Nat) (c : TmplCmd), q.why = .tmplCmd p line → u.tmplCmd p = some c →
        exec (.tmplCmdDone p write mtag gen err lines) s = .next (u.tmplStep p c write err line lines)) ∧
      (∀ id off : Nat, q.why = .pinReload p id off → err = true ∨ lines.length * 64 = q.len →
        exec (.tmplCmdDone p write mtag gen err lines) s = .next (u.pinStep p (BitVec.ofNat 12 id) off err lines))) ∧
    (∀ (u : State) (mtag : BitVec 8) (gen : BitVec 4) (q : MReq) (c : TmplCmd) (l : Line), s.gets true mtag gen u q → q.why = .tmplCmd p 0 → q.len = 64 →
      u.tmplCmd p = some c → u.dirGet p c.id = none → u.flag (rFERYp p 0x64) 31 = false →
      let d := DirEntry.ofLine l (c.id.toNat % 2)
      let c' := { c with got := [l] }
      let ends := fun (err : BitVec 4) => ((u.setTmplCmd p none).setBit cmd 27 false).setF cmd 20 err
      (c.op = 3 → d.valid = true → exec (.tmplCmdDone p false mtag gen false [l]) s =
        .next ((u.setPins p c.id none).tmplWrite p c' { d with valid := false, pinned := false } 2)) ∧
      ((c.op = 1 ∧ d.valid = true) ∨ ((c.op = 2 ∨ c.op = 3 ∨ c.op = 4) ∧ d.valid = false) → exec (.tmplCmdDone p false mtag gen false [l]) s = .next (ends 2)) ∧
      ((c.op = 1 ∧ d.valid = false) ∨ (c.op = 2 ∧ d.valid = true) → exec (.tmplCmdDone p false mtag gen false [l]) s =
        .next ((u.setTmplCmd p (some { c with step := 1, got := [l, 0] })).read c.src 1 (.tmplCmd p 1))) ∧
      exec (.tmplCmdDone p false mtag gen true []) s = .next (ends 6))

/-! ## Placing launches (spec/06_skerry_cores.md) -/

/-- R82, R200, R201, R203: a launch at stage 8 whose context is lost completes; one that is held there, that other waiting
launches precede, or that no core can take, waits; one whose program is in an active bank is placed on the fitting core with most
free threads, in its lowest free thread, with its lines in the pool. R203: a line of the launch is copied into its thread; a
thread that waited for just that line may run again, and the last line gives the launch's lines in the expansion store back. (The
model reads the rules as log entry 13 says.) -/
def Obligations.Placement : Prop :=
  (∀ (s : State) (k : EKey) (e : Entry), s.canonical = true → (s.stream k.stream).head = some k.seq → s.entry k = some e → e.stage = .place →
    let b := e.lines.getD 0 0
    let key := progKey e.part b
    (e.core = none → s.ctxGone e = true → exec (.launchPlace k.stream) s = .next (s.refuseLaunch k ⟨6, 0, 0⟩)) ∧
    (e.core = none → s.ctxGone e = false → s.startHeld e = true → exec (.launchPlace k.stream) s = .next (s.wait8 k)) ∧
    (e.core = none → s.ctxGone e = false → s.startHeld e = false → s.outranked k = true → exec (.launchPlace k.stream) s = .next (s.wait8 k)) ∧
    (e.core = none → s.ctxGone e = false → s.startHeld e = false → s.outranked k = false → s.place8 key (blkOps b) = .wait →
      exec (.launchPlace k.stream) s = .next (s.wait8 k)) ∧
    (∀ c, e.core = none → s.ctxGone e = false → s.startHeld e = false → s.outranked k = false → s.place8 key (blkOps b) = .start c →
      ∃ (s' : State) (t : BitVec 3), exec (.launchPlace k.stream) s = .next s' ∧ s.fit c (blkOps b) = true ∧ ((s.core c).bank (s.core c).active).has key = true ∧
        (∀ c', s.fit c' (blkOps b) = true → ((s.core c').bank (s.core c').active).has key = true → (s.core c').freeThreads ≤ (s.core c).freeThreads) ∧
        (s.thread c t).st = .free ∧ (∀ t' : BitVec 3, t' < t → (s.thread c t').st ≠ .free) ∧
        s'.thread c t = { Thread.reset with
          st := .stalled, stall := .start, launch := some k, bank := (s.core c).active, lines := e.lines, slots := paramSlots e.lines } ∧
        s'.entry k = some { e with core := some c, thread := some t, poolAt := some c, poolN := blkOps b } ∧ (∀ j, j ≠ k → s'.entry j = s.entry j) ∧
        (∀ c' t', c' ≠ c ∨ t' ≠ t → s'.thread c' t' = s.thread c' t') ∧ { s' with cores := s.cores, entries := s.entries } = s)) ∧
  (∀ (s : State) (c : BitVec 4) (t : BitVec 3) (k : EKey) (e : Entry), s.canonical = true →
    let th := s.thread c t
    th.launch = some k → s.entry k = some e → th.stall ≠ .start → th.arrived < th.lines.length →
    let goes := decide (th.stall = .line th.arrived)
    ∃ s' : State, exec (.launchCopyLine c t) s = .next s' ∧
      s'.thread c t = { th with arrived := th.arrived + 1, st := if goes ∧ th.st = .stalled then .running else th.st, stall := if goes ∧ (th.st = .stalled ∨ th.st = .brk) then .none else th.stall } ∧
      (∀ c' t', c' ≠ c ∨ t' ≠ t → s'.thread c' t' = s.thread c' t') ∧
      s'.entry k = some { e with store := if th.arrived + 1 = th.lines.length then 0 else e.store } ∧ (∀ j, j ≠ k → s'.entry j = s.entry j) ∧
      { s' with cores := s.cores, entries := s.entries } = s)

/-- R230, R232, R235, R236: SKRY.IMEM_CMD. LOAD of a bad length ends with ERR 3; with the standby bank pinned or a load under
way it sets PG_ERR bit 16 and ends with ERR 1; without room it ends with ERR 2; otherwise it is BUSY and reads the program's
lines into the standby bank. INVAL ends at once. The lines of a load are kept until the last are in; then the other bank becomes
active, with the program as its first. (The model reads the rules as log entry 37 says.) -/
def Obligations.ProgramLoads : Prop :=
  ∀ (s : State) (tag : BitVec 13) (c : BitVec 4), s.canonical = true →
    let cmd := rSKRY c 0x4C
    let bytes := s.num (rSKRY c 0x58) 0 16
    let co := s.core c
    (s.reaches tag (pSKRY c) .skry c.toNat = true → s.flag cmd 27 = false → ∀ (lock : Bool) (p : BitVec 4),
      let w : Word := BitVec.ofNat 32 ((if lock then 2 ^ 26 else 0) + p.toNat)
      let key : ProgKey := ⟨p.setWidth 6, s.addrPair (rSKRY c 0x50) 6, bytes⟩
      let u := s.stored cmd 0x600003F w
      let ends := fun (t : State) (err : BitVec 4) => (t.setBit cmd 27 false).setF cmd 20 err
      (bytes < 64 ∨ 32768 < bytes ∨ bytes % 64 ≠ 0 → Answers (.imemLoad tag c lock (p.setWidth 6)) s (ends u 3)) ∧
      (64 ≤ bytes → bytes ≤ 32768 → bytes % 64 = 0 → co.pins (~~~co.active) ≠ 0 ∨ co.load.isSome = true → Answers (.imemLoad tag c lock (p.setWidth 6)) s
        (ends ((u.raise { ev (pSKRY c) 0x2C 1 with part := some p }).setErr (pSKRY c) 16) 1)) ∧
      (64 ≤ bytes → bytes ≤ 32768 → bytes % 64 = 0 → co.pins (~~~co.active) = 0 → co.load = none → co.room key = false →
        Answers (.imemLoad tag c lock (p.setWidth 6)) s (ends u 2)) ∧
      (64 ≤ bytes → bytes ≤ 32768 → bytes % 64 = 0 → co.pins (~~~co.active) = 0 → co.load = none → co.room key = true →
        Answers (.imemLoad tag c lock (p.setWidth 6)) s (((u.setBit cmd 27 true).setF cmd 20 0#4).startLoad c key lock true)) ∧
      (∀ all : Bool, ∃ s' : State, exec (.imemInval tag c all (p.setWidth 6)) s = .next s' ∧ s'.flag cmd 27 = false ∧ s'.num cmd 20 4 = 0 ∧
        (∀ d q, q ∈ (s'.core d).bankA.progs ++ (s'.core d).bankB.progs → q.valid = true → invalHits all (p.setWidth 6) (s.addrPair (rSKRY c 0x50) 6) bytes q.key = false))) ∧
    (∀ (u : State) (mtag : BitVec 8) (gen : BitVec 4) (q : MReq) (off : Nat) (err : Bool) (ls : List Line), s.gets true mtag gen u q → q.why = .imem c off →
      err = true ∨ ls.length * 64 = q.len →
      ((u.core c).load = none → exec (.imemLoadDone c mtag gen err ls) s = .next u) ∧
      (∀ l : Load, (u.core c).load = some l →
        let l' := { l with got := if err then l.got else setLines l.got off ls, missing := l.missing - 1, err := l.err || err }
        exec (.imemLoadDone c mtag gen err ls) s = .next (if l'.missing = 0 then u.loadEnds c l' else u.setCore c { u.core c with load := some l' }))) ∧
    (∀ (u : State) (mtag : BitVec 8) (gen : BitVec 4) (q : MReq) (off : Nat) (l : Load) (ls : List Line), s.gets true mtag gen u q → q.why = .imem c off →
      ls.length * 64 = q.len → (u.core c).load = some l →
      (2 ≤ l.missing → exec (.imemLoadDone c mtag gen false ls) s =
        .next (u.setCore c { u.core c with load := some { l with got := setLines l.got off ls, missing := l.missing - 1 } })) ∧
      (l.missing = 1 → l.err = false → l.soft = false → u.swapWaiters c = [] → exec (.imemLoadDone c mtag gen false ls) s =
        .next ((u.setCore c { ((u.core c).setBank (~~~(u.core c).active) ((u.core c).loadedBank { l with got := setLines l.got off ls, missing := 0 } u.cclk)) with
          load := none, active := ~~~(u.core c).active }).bump (rSKRY c 0x90))))

/-- R202, R211, R290, R323: a placed launch of which the launch block and the parameter lines are in, and whose program the active
bank holds, starts at once when nothing holds stage 8 back, its context stands, no class that it uses is empty and no breakpoint
matches: its thread is RUNNING with CYCLE 0, the launch belongs to its partition's current epoch, none of its operations is
issued, and LIVE_CUR counts it. R226, R229, R239: SKRY.THR_CTRL of the selected thread. HALT takes a RUNNING, WAITING or STALLED
thread to BREAK; RESUME takes one in BREAK to RUNNING; STEP runs one instruction of a thread in BREAK, which stays in BREAK. A
thread whose launch has not started goes on waiting for it, after RESUME and after STEP. In any other state of the thread each
sets PG_ERR bit 19 alone. (The statement names launches whose function keeps no audit log, so that nothing is read.) -/
def Obligations.StartsAndThreadControl : Prop :=
  (∀ (s : State) (c : BitVec 4) (t : BitVec 3) (k : EKey) (e : Entry), s.canonical = true →
    let th := s.thread c t
    let b := th.lines.getD 0 0
    let live := rTIDE e.part 0xC
    th.launch = some k → s.entry k = some e → th.st = .stalled → th.stall = .start → th.wantSwap = false → e.stage = .place → e.core = some c → e.thread = some t →
    (s.stream k.stream).head = some k.seq → 1 + ceilDiv (blkP b) 16 ≤ th.arrived + 1 → th.arrived + 1 < th.lines.length →
    s.ctxGone e = false → s.startHeld e = false → e.etype = .launch → emptyClassOps th.lines (s.placesOf e.part) = [] → s.brkMatch c b false = false →
    s.fev (funcOf k.stream) = none → s.flag (rAUDT (0x108 + 0x10 * e.part.toNat)) 31 = false →
    ((s.core c).bank (s.core c).active).progs.any (fun p => decide (p.key = progKey e.part b)) = true →
    ∃ s' : State, exec (.launchCopyLine c t) s = .next s' ∧
      s'.thread c t = { th with st := .running, stall := .none, bank := (s.core c).active, arrived := th.arrived + 1, cycle := 0 } ∧
      (∀ c' t', c' ≠ c ∨ t' ≠ t → s'.thread c' t' = s.thread c' t') ∧
      s'.entry k = some { e with
        stage := .running, executed := true, tStart := s.view, epoch := s.cur e.part, places := s.placesOf e.part, engines := enginesOf (s.placesOf e.part)
        model := s.rd (rPART e.part 0x70), waitUs := s.fld (pageAddr pINTG 0x48) 0 20, node := s.fld (pageAddr pINTG 0x50) 0 12, ops := List.replicate (blkOps b) .idle } ∧
      (∀ j, j ≠ k → s'.entry j = s.entry j) ∧ s'.fld live 0 16 = (s.fld live 0 16 : BitVec 16) + 1 ∧ s'.fld live 16 16 = (s.fld live 16 16 : BitVec 16) ∧
      (s'.stream k.stream).head = none ∧ s'.mmp = s.mmp ∧ s'.disp = s.disp ∧ s'.sync = s.sync) ∧
  (∀ (s : State) (tag : BitVec 13) (c : BitVec 4), s.canonical = true → s.reaches tag (pSKRY c) .skry c.toNat = true →
    let t : BitVec 3 := s.fld (rSKRY c 0x6C) 0 3
    let th := s.thread c t
    let bad := fun (i : Instr) => Answers i s (s.setErr (pSKRY c) 19)
    let becomes := fun (i : Instr) (th' : Thread) => ∃ s' : State, exec i s = .next s' ∧ s'.thread c t = th' ∧ LeavesRest { s with rdp := s'.rdp } s' c t
    s.flag (rSKRY c 0x70) 27 = false →
    (th.st ∈ [.running, .stalled, .waiting] → OpState.cand true ∉ ((th.launch.bind s.entry).map (·.ops)).getD [] →
      becomes (.halt tag c) { th with st := .brk, stall := if th.stall = .start then .start else .none }) ∧
    (th.st ∉ [.running, .stalled, .waiting] → bad (.halt tag c)) ∧
    (th.st = .brk → becomes (.resume tag c) { th with
      st := .running, stall := if th.stall = .start then .start else .none, resumed := true, stepping := false }) ∧
    (th.st ≠ .brk → bad (.resume tag c) ∧ bad (.stepThread tag c)) ∧
    (∀ w : Word, th.st = .brk → th.stall ≠ .start → s.insn c t = w → iOp w = 0x01 → w.extractLsb' 0 11 = 0#11 → s.notLast c t = true →
      becomes (.stepThread tag c) { (th.setReg (iRd w) (th.reg (iRs1 w) + th.reg (iRs2 w))).after (th.pc + 4) with idle := th.idle }) ∧
    (th.st = .brk → th.stall = .start → becomes (.stepThread tag c) { th with stepping := true, resumed := true }))

/-! ## Dispatch, reports and scales (spec/09, spec/11, spec/12) -/

/-- R311, R315, R318, R319, R370: a candidate that is alone in its group, and is aged or fits its class's limits, is admitted:
it leaves the candidates and stands in the group queue with the lowest free tag of its port, its class, its overtake counts and
its admission time, and the ISSUE that offered it leaves its thread. While a halt is in effect none is. R311, R315, R320: admission never fills a group queue beyond 64 flits nor
a port's engine queue beyond its depth, and every flit that it adds carries a tag that no other unreported command of its port
holds. -/
def Obligations.AdmissionAndQueues : Prop :=
  (∀ (s : State) (g : BitVec 3), s.canonical = true →
    (s.dispHalted = true → exec (.admission g) s = .next s) ∧
    (∀ (x : Cand) (k : EKey) (e : Entry) (i : Nat), s.dispHalted = false → s.groupCands g.toNat = [x] → x.who = .op k i → s.entry k = some e →
      i < e.ops.length →
      let occ := (s.groupQueue g.toNat).length
      let aged := decide (s.dispNum 0x40 ≤ s.cclk - x.since) && decide (s.occ x.port < s.depth x.port) && decide (occ < 64)
      aged = true ∨ s.ordinary occ x = true →
      ∃ s' : State, exec (.admission g) s = .next (if e.ops.getD i .idle = .cand true then s'.issueLeaves k else s') ∧ s'.disp.cands = s.disp.cands.erase x ∧
        s'.disp.cmds = s.disp.cmds ++ [⟨x.who, x.port, s.freeCtag x.port, x.cls, x.part, x.func, x.since, x.retries, .queued, s.cclk, aged,
          (List.range x.cls.toNat).map s.burst, x.hdr, x.body, 0⟩] ∧
        s'.entry k = some { e with ops := e.ops.set i .sent } ∧ (∀ j, j ≠ k → s'.entry j = s.entry j) ∧
        RegsBut s s' [rDISP (0x100 + 4 * x.cls.toNat), rDISP 0x110] ∧ { s' with disp := s.disp, entries := s.entries, regs := s.regs } = s) ∧
    (∀ (x : Cand) (p : BitVec 4) (w n : Nat), s.dispHalted = false → s.groupCands g.toNat = [x] → x.who = .gather p w n →
      let occ := (s.groupQueue g.toNat).length
      let aged := decide (s.dispNum 0x40 ≤ s.cclk - x.since) && decide (s.occ x.port < s.depth x.port) && decide (occ < 64)
      aged = true ∨ s.ordinary occ x = true →
      ∃ s' : State, exec (.admission g) s = .next s' ∧ s'.disp.cands = s.disp.cands.erase x ∧
        s'.disp.cmds = s.disp.cmds ++ [⟨x.who, x.port, s.freeCtag x.port, x.cls, x.part, x.func, x.since, x.retries, .queued, s.cclk, aged,
          (List.range x.cls.toNat).map s.burst, x.hdr, x.body, 0⟩] ∧
        RegsBut s s' [rDISP (0x100 + 4 * x.cls.toNat), rDISP 0x110] ∧ { s' with disp := s.disp, regs := s.regs } = s)) ∧
  (∀ (s s' : State) (g : BitVec 3), s.canonical = true → exec (.admission g) s = .next s' →
    (∀ n, n < 128 → s.occ n ≤ s.depth n ∧ 1 ≤ s.depth n ∧ s.depth n ≤ 64) → (∀ c, s.ahead c ≤ 64 ∧ 1 ≤ s.eqReserve c) →
    ((s.groupQueue g.toNat).length ≤ 64 → (s'.groupQueue g.toNat).length ≤ 64) ∧ (∀ n, n < 128 → s'.occ n ≤ s'.depth n) ∧
    (s.disp.cmds.Pairwise (fun a b => a.port = b.port → a.ctag ≠ b.ctag) → s'.disp.cmds.Pairwise (fun a b => a.port = b.port → a.ctag ≠ b.ctag)))

/-- R314, R320, R367, R592, R595: the arbiter grants a flit that was queued before this CCLK and for which every older flit of
the queue is of a higher class number and lets it overtake; of those that may be granted the first of the lowest class. The flit
goes to the group adapter with its header finished, each older one loses one overtake of its class, and the command crosses its
port's command port once the port serves, behind Causeway as a flit (R599). R371, R372, R373, R383, R403: a collector with room takes the report of the next port
in its rotation, with the CCLK since when it has been shown, and none when it is full; a message of a remote group gives a credit
back (R601). The merge takes it to Landing: one of an old generation, or one that names no
command, changes nothing but its port's counter and error; one of a command frees its engine-queue entry and its tag, counts,
and with STATUS 0 completes the operation. (The model reads the rules as log entry 21 says.) -/
def Obligations.GrantsAndReports : Prop :=
  (∀ (s : State),
    (∀ (q : List Cmd) (now : Nat) (n : Cmd), grantPick q now = some n → n ∈ q ∧ n.stamp < now ∧ grantable (q.takeWhile (fun c => decide (c ≠ n))) n = true ∧
      ∀ as m bs, q = as ++ m :: bs → m.stamp < now → grantable as m = true → n.cls ≤ m.cls) ∧
    (∀ (g : BitVec 3) (n : Cmd), s.canonical = true → s.dispHalted = false → grantPick (s.groupQueue g.toNat) s.cclk = some n →
      ∃ s' : State, exec (.grant g) s = .next s' ∧
        (∀ c ∈ s.disp.cmds, c ≠ n → c.port / 16 ≠ g.toNat ∨ c.stage ≠ .queued → c ∈ s'.disp.cmds) ∧
        { n with stage := .granted, hdr := s.finishHdr n, sentT := s.viewTime } ∈ s'.disp.cmds ∧ s'.disp.cmds.length + s.disp.cmds.count n = s.disp.cmds.length + 1 ∧
        s'.disp.cands = s.disp.cands ∧ s'.mmp = s.mmp ∧ s'.entries = s.entries ∧ s'.streams = s.streams ∧ s'.cores = s.cores ∧ s'.sync = s.sync) ∧
    (∀ (n : BitVec 7) (c : Cmd), s.disp.cmds.find? (fun c => decide (c.port = n.toNat) && decide (c.stage = .granted)) = some c →
      ((s.port n.toNat).serves = false → exec (.commandTransfer n) s = .next s) ∧
      ((s.port n.toNat).serves = true → ∃ s' : State, exec (.commandTransfer n) s = .next s' ∧
        s'.disp.cmds = s.disp.cmds.map (fun x => if x = c then { x with stage := .sent, sentT := s.viewTime }
          else if x.port = c.port ∧ x.stage = .granted then { x with sentT := s.viewTime } else x) ∧
        (s.canonical = true → s'.rd (rEPRT n.toNat 0x50) = satAdd (s.rd (rEPRT n.toNat 0x50)) 1 ∧ RegsBut s s' [rEPRT n.toNat 0x50]) ∧
        s'.cw = (s.sendDown (n.toNat / 16) (commandFlit n.toNat c.hdr c.body)).cw ∧
        { s' with disp := { s'.disp with cmds := s.disp.cmds }, regs := s.regs, cw := s.cw } = s))) ∧
  (∀ (s : State) (r : Report), s.canonical = true →
    let n := r.port.toNat
    (∀ g : BitVec 3, n / 16 = g.toNat → s.portHeard n = true →
      let since := Tbl.get (fun _ => 0) s.land.shown n
      ((s.fifo g.toNat).length < 16 → ∃ s' : State, exec (.reportAccept g [r]) s = .next s' ∧
        s'.fifo g.toNat = s.fifo g.toNat ++ [(r, if since = 0 then s.cclk else since - 1)] ∧
        (∀ h, h ≠ g.toNat → s'.fifo h = s.fifo h) ∧ s'.land.colPtr = Tbl.set (fun _ => 15) s.land.colPtr g.toNat (n % 16) ∧
        s'.cw = (s.credit g.toNat).cw ∧
        { s' with land := { s'.land with fifos := s.land.fifos, colPtr := s.land.colPtr, shown := s.land.shown }, cw := s.cw } = s.idleExit) ∧
      (16 ≤ (s.fifo g.toNat).length → ∃ s' : State, exec (.reportAccept g [r]) s = .next s' ∧
        { s' with land := { s'.land with shown := s.land.shown } } = s)) ∧
    (∀ (g t : Nat), g < 8 → s.land.fifos = [(g, [(r, t)])] → s.land.queue.length < 1024 →
      (repGen r ≠ (s.port n).gen → ∃ u : State, exec .reportMerge s = .next u.settle ∧ u.land.fifos = [] ∧ u.disp = s.disp ∧ u.entries = s.entries ∧
        u.rd (rEPRT n 0x5C) = satAdd (s.rd (rEPRT n 0x5C)) 1 ∧ RegsBut s u [rEPRT n 0x5C, rEPRT n 0x14, rAUDT 0x64]) ∧
      (repGen r = (s.port n).gen → s.cmdOf r = none → ∃ u : State, exec .reportMerge s = .next u.settle ∧ u.land.fifos = [] ∧ u.disp = s.disp ∧
        u.entries = s.entries ∧ u.rd (rEPRT n 0x60) = satAdd (s.rd (rEPRT n 0x60)) 1) ∧
      (∀ (c : Cmd) (k : EKey) (e : Entry) (i : Nat), s.cmdOf r = some c → c.who = .op k i → s.entry k = some e → s.resetting c.part = false → repStatus r = 0#8 →
        ∃ (u : State) (e' : Entry), exec .reportMerge s = .next (u.opOver k i .done).settle ∧ u.land.fifos = [] ∧
          u.disp = { s.disp with cmds := s.disp.cmds.filter (fun x => decide (x ≠ c)) } ∧ u.rd (rEPRT n 0x54) = satAdd (s.rd (rEPRT n 0x54)) 1 ∧
          u.rd64 (rEPRT n 0x70) = s.rd64 (rEPRT n 0x70) + (repBusy r).setWidth 64 ∧
          u.entry k = some e' ∧ { e' with ldigest := e.ldigest, outBytes := e.outBytes } = e ∧
          (repCrcOk r = true → e'.ldigest = e.ldigest ^^^ digestItem r.w3 (repBytes r) i ∧ e'.outBytes = e.outBytes + (repBytes r).setWidth 64) ∧
          (repCrcOk r = false → e' = e) ∧ (∀ j, j ≠ k → u.entry j = s.entry j))))

/-- R392, R399, R402: SCAL.INIT sets the selected entry's scale and returns everything else of it but its format and its history
length to reset, and SCAL.CFG sets only these two; a value that is not canonical, or a format without code, sets PG_ERR bit 16
alone. R393, R394, R396: roundup_SC12 gives the least of the 4,080 codes whose value is not below the quotient, and the greatest
where none is. -/
def Obligations.Scales : Prop :=
  (∀ (s : State) (tag : BitVec 13), s.canonical = true → s.reaches tag pSCAL .scal 0 = true →
    let n := s.num (rSCAL 0x40) 0 14
    let x := s.scaleE n
    (∀ v : BitVec 12, v.extractLsb' 4 8 ≠ 0#8 → Answers (.scalInit tag v) s (s.setScale n { ScaleE.reset with scale := v, k := x.k, fmt := x.fmt })) ∧
    (∀ v : BitVec 12, v.extractLsb' 4 8 = 0#8 → Answers (.scalInit tag v) s (s.setErr pSCAL 16)) ∧
    (∀ (k : BitVec 3) (f : BitVec 6), f.toNat ≤ 15 → Answers (.scalCfg tag k f) s (s.setScale n { x with k := k, fmt := f })) ∧
    (∀ (k : BitVec 3) (f : BitVec 6), 15 < f.toNat → Answers (.scalCfg tag k f) s (s.setErr pSCAL 16))) ∧
  (∀ (num den : Nat), 1 ≤ den →
    let c := (sc12Up num den).toNat
    0x010 ≤ c ∧ (sc12Ge c num den = true ∨ c = 0xFFF) ∧ ∀ d, 0x010 ≤ d → d < c → sc12Ge d num den = false)

/-! ## Completion (spec/12_completion_and_events.md) -/

/-- R123, R405, R406, R411, R412: a finished launch whose function's entry is cached, with its completion queue enabled, its
release acknowledged, no earlier completion of its stream in Landing, and neither audit nor digest log, enters Landing's queue
and writes its record at the position that software line 0xC0 gives; the position advances, and the phase flips at the queue's
end. R261, R406, R417, R426: acknowledgements of a completion's record and fence writes take it to its next step; an error is
counted in LAND_ERRS, sets LAND_ERR and raises its S1 event, and the completion goes on. R423, R424, R425, R426: when the oldest
audited completion has its digest table lines, its digest is known, and its record is written at the ring's position, which
advances, with its phase; with the ring full it alone waits when the partition's ring stalls, and is dropped and counted
otherwise. The record's acknowledgement
lets the completion go on, and an error drops its index. (The model reads the rules as log entry 18 says.) -/
def Obligations.CompletionRecords : Prop :=
  (∀ (s : State) (k : EKey) (e : Entry) (x : Fev) (swl : Line), s.canonical = true → s.entry k = some e → e.stage = .finished → e.etype = .launch → e.released = true →
    s.land.queue.length < 1024 → (∀ j ∈ s.land.queue, j.stream ≠ k.stream) → s.land.hashing = [] → s.fevValid = true →
    s.land.fev = [x] → x.func = funcOf k.stream → x.missing = 0 → x.lines.length = 4 → x.lines.getD 3 0 = swl → e.audited s k x = false → k ∉ s.aud.logs →
    s.land.cmd = none → s.land.step2 = [] →
    s.flag (rAUDT (0x508 + 0x10 * e.part.toNat)) 31 = false →
    let c := (classOf k.stream).toNat
    let w := Line.w64 (x.lines.getD 0 0) (16 * c)
    let q := Line.w32 swl (4 * c)
    let pos := (q.extractLsb' 0 16).toNat
    let phase : BitVec 1 := q.extractLsb' 16 1
    let wrap := decide (pos + 1 = 2 ^ (w.extractLsb' 0 5).toNat)
    w.getLsbD 61 = true →
    ∃ (u : State) (l : Line), exec (.launchComplete k.stream k.seq) s = .next u.settle ∧
      u.entry k = some { e with stage := .landing, lstep := 4 } ∧ (∀ j, j ≠ k → u.entry j = s.entry j) ∧ u.land.queue = s.land.queue ++ [k] ∧
      u.mmp = s.mmp ++ [s.asksWrite ((w.extractLsb' 12 45 ++ 0#12) + BitVec.ofNat 57 (pos * 32)) 32 [({ e with stage := .landing, lstep := 4 }.record phase).setWidth 512] (.record k)] ∧
      u.land.fev = [{ x with lines := x.lines.set 3 l, dirty := true }] ∧ u.land.step2 = [] ∧
      Line.w32 l (4 * c) = (0#15 ++ (if wrap then ~~~phase else phase) ++ BitVec.ofNat 16 (if wrap then 0 else pos + 1)) ∧
      Line.w64 l 0x18 = Line.w64 swl 0x18 + 1) ∧
  (∀ (s u : State) (mtag : BitVec 8) (gen : BitVec 4) (q : MReq) (k : EKey) (e : Entry), u.entry k = some e →
    let failed := fun (code : Nat) => ((u.bump (rAUDT 0x60)).setErr pAUDT 17).raise
      { ev pAUDT code 1 with stream := some k.stream, func := some (funcOf k.stream), part := some e.part }
    let on := fun (t : State) => (((((t.progress e.part).recPassed k).land3 k).land2Retry k.stream).refreshTry.fevRetry).settle
    (s.gets false mtag gen u q → q.why = .record k →
      exec (.recordWriteAck mtag gen false) s = .next (on u) ∧ exec (.recordWriteAck mtag gen true) s = .next (on (failed 0x70))) ∧
    (∀ (fab : Bool) (old : Dword), s.getsAtom fab mtag gen u q → q.why = .fence k →
      exec (.fenceWriteAck fab mtag gen false old) s =
        .next (((u.fenceWritten q.addr (BitVec.ofNat 64 (max old.toNat e.cookie.toNat))).land4 k).refreshTry.fevRetry).settle ∧
      exec (.fenceWriteAck fab mtag gen true old) s = .next (((failed 0x71).land4 k).refreshTry.fevRetry).settle)) ∧
  (∀ (s : State) (k : EKey) (e : Entry), s.canonical = true →
    (∀ (x : AudIn) (ks js : List EKey), s.land.hashing = k :: ks → s.land.queue = k :: js → s.land.cmd = none → s.entry k = some e → s.aud.ins.find? (fun x => decide (x.e = k)) = some x → x.prog.isSome = true → x.model.isSome = true →
      let cfg := s.rd (rAUDT (0x108 + 0x10 * e.part.toNat))
      let size := 2 ^ (cfg.extractLsb' 0 5).toNat
      let prod := (cfg.extractLsb' 12 16).toNat
      let full := decide ((prod + 1) % size = s.num (rAUDT (0x10C + 0x10 * e.part.toNat)) 0 16)
      (full = true → cfg.getLsbD 30 = true → exec .auditDigestDone s = .next ((s.hashLeaves k).setEntry k (some { e with lstep := 9 }))) ∧
      (full = true → cfg.getLsbD 30 = false → ∃ u : State, exec .auditDigestDone s = .next (u.land1b k).settle ∧ u.entry k = some { e with lstep := 9, audLost := true } ∧
        u.land.hashing = s.land.hashing.filter (fun j => decide (j ≠ k)) ∧ u.mmp = s.mmp ∧
        u.num (rAUDT (0x10C + 0x10 * e.part.toNat)) 16 16 = min (s.num (rAUDT (0x10C + 0x10 * e.part.toNat)) 16 16 + 1) 0xFFFF ∧
        u.flag (pageAddr pAUDT 0x14) 18 = true) ∧
      (full = false → prod < size → size ≤ 65536 → ∃ (s' : State) (l : Line), exec .auditDigestDone s = .next s' ∧
        s'.entry k = some { e with lstep := 2, audIdx := some (BitVec.ofNat 32 prod) } ∧ s'.land.hashing = s.land.hashing.filter (fun j => decide (j ≠ k)) ∧
        s'.num (rAUDT (0x108 + 0x10 * e.part.toNat)) 12 16 = (if prod + 1 = size then 0 else prod + 1) ∧
        s'.mmp = s.mmp ++ [s.asksWrite (s.addrPair (rAUDT (0x100 + 0x10 * e.part.toNat)) 12 + BitVec.ofNat 57 (64 * prod)) 64 [l] (.audit k)] ∧
        l.getLsbD 511 = cfg.getLsbD 29 ∧ Line.w64 l 0x20 = e.cookie ∧ Line.w64 l 0x28 = e.seqNo)) ∧
    (∀ (u : State) (mtag : BitVec 8) (gen : BitVec 4) (q : MReq), s.gets false mtag gen u q → q.why = .audit k → u.entry k = some e →
      exec (.auditWriteAck mtag gen false) s = .next (((u.land1b k).refreshTry.fevRetry).settle) ∧
      exec (.auditWriteAck mtag gen true) s = .next (((((u.bump (rAUDT 0x60)).raise { ev pAUDT 0x73 1 with stream := some k.stream, part := some e.part, ctx := some e.ctx }).setEntry k
        (some { e with audIdx := none, audLost := true })).land1b k).refreshTry.fevRetry).settle))

/-- R410, R419, R421, R422: the four lines of a function's entry fill its place in the cache. At a 64 ns tick an unmasked vector
with pending events whose hold-off has passed writes its message and has none pending; a message's acknowledgement frees what
waits for it, and an error raises an S1 event. R409, R428: AUDT.FEV_CMD. While BUSY a command sets PG_ERR bit 19 alone; without
a table it ends with ERR 1; otherwise it is BUSY. REFRESH of a cached entry of which nothing is in flight reads its three
software lines, FLUSH and FLUSH_ALL write line 0xC0 of each entry they name, and end at once when they name none. (The model
reads the rules as log entries 18 and 23 say.) -/
def Obligations.FunctionEvents : Prop :=
  (∀ (s : State), s.canonical = true →
    (∀ (u : State) (mtag : BitVec 8) (gen : BitVec 4) (q : MReq) (f : BitVec 12) (x : Fev) (ls : List Line), s.gets true mtag gen u q → q.why = .fevRead f → q.len = 256 → ls.length = 4 →
      u.land.fev = [x] → x.func = f → u.land.queue = [] → u.land.faults = [] → u.land.vecs = [] → u.land.hashing = [] → u.land.cmd = none →
      u.land.step2 = [] → exec (.fevReadReturn mtag gen false ls) s =
        .next (({ u with land := { u.land with fev := [{ x with lines := ls, missing := 0 }] } }).noteUsed f (ls.getD 0 0) false).settle) ∧
    (∀ (f : BitVec 12) (v : BitVec 2) (x : Fev), s.land.fev = [x] → x.func = f → x.missing = 0 → s.land.queue = [] → s.land.faults = [] →
      s.land.vecs = [(f.toNat * 4 + v.toNat, s.vec f v)] → (s.vec f v).pend ≠ 0 → x.masked v = false → x.badAddr v = false →
      (let hold := (Line.w32 (x.lines.getD 2 0) (4 * v.toNat)).extractLsb' 0 16
       (s.vec f v).last.toNat + hold.toNat * 64 ≤ s.viewTime.toNat / 64 * 64) →
      ∃ s' : State, exec .msgHoldoffTick s = .next s' ∧ (s'.vec f v).pend = 0 ∧ (s'.vec f v).last = s.viewTime / 64 * 64 ∧
        s'.mmp = s.mmp ++ [s.asksWrite ((Line.w32 (x.lines.getD 1 0) (16 * v.toNat + 4)).extractLsb' 0 25 ++ Line.w32 (x.lines.getD 1 0) (16 * v.toNat)) 4
          [(Line.w32 (x.lines.getD 1 0) (16 * v.toNat + 8)).setWidth 512] (.message f v.toNat)] ∧
        s'.rd (rAUDT 0x54) = satAdd (s.rd (rAUDT 0x54)) 1 ∧ { s' with land := s.land, mmp := s.mmp, regs := s.regs } = s) ∧
    (∀ (u : State) (mtag : BitVec 8) (gen : BitVec 4) (q : MReq) (f : BitVec 12) (v : Nat), s.gets false mtag gen u q → q.why = .message f v →
      exec (.msgWriteAck mtag gen false) s = .next u.landAgain ∧
      exec (.msgWriteAck mtag gen true) s = .next ((((u.bump (rAUDT 0x60)).setErr pAUDT 17).raise { ev pAUDT 0x72 1 with func := some f, part := u.partOf f }).landAgain))) ∧
  (∀ (s : State) (tag : BitVec 13), s.canonical = true → s.reaches tag pAUDT .audt 0 = true →
    let cmd := rAUDT 0x48
    ∀ (f : BitVec 12), ∀ x ∈ [((.refresh tag f : Instr), (1 : BitVec 4), f), (.fevFlush tag f, 2, f), (.flushAll tag, 3, 0)],
      let u := ((s.stored cmd 0xFFF (BitVec.ofNat 32 x.2.2.toNat)).setBit cmd 27 true).setF cmd 20 0#4
      let ends := fun (t : State) (err : BitVec 4) => (({ t with land := { t.land with cmd := none } }).setBit cmd 27 false).setF cmd 20 err
      (s.flag cmd 27 = true → Answers x.1 s (s.setErr pAUDT 19)) ∧
      (s.flag cmd 27 = false → s.fevValid = false → Answers x.1 s (ends u 1)) ∧
      (s.flag cmd 27 = false → s.fevValid = true → x.2.1 = 1 → (s.fev f).isSome = true → s.fevBusy f = false →
        s.mmp.any (fun r => decide (r.why = .fevRead f)) = false → Answers x.1 s
          { u with land := { s.land with cmd := some (1, f) }, mmp := s.mmp ++ [s.asksRead (s.fevAddr f) 3 (.fevRead f)] }) ∧
      (s.flag cmd 27 = false → s.fevValid = true → x.2.1 ≠ 1 → s.land.fev = [] → s.mmp = [] → Answers x.1 s (ends u 0)) ∧
      (∀ y : Fev, s.flag cmd 27 = false → s.fevValid = true → x.2.1 ≠ 1 → s.land.fev = [y] → y.missing = 0 → (x.2.1 = 2 → y.func = f) → Answers x.1 s
        { u with land := { s.land with cmd := some (x.2.1, x.2.2), fev := [{ y with dirty := false }] },
                 mmp := s.mmp ++ [s.asksWrite (s.fevAddr y.func + 0xC0) 64 [swLine (y.lines.getD 3 0)] (.fevWrite y.func)] }))

/-! ## Beacon (spec/13_beacon_interrupts.md) -/

/-- R432, R434, R436, R437, R439, R443: Beacon sees a level source follow its condition. A claim returns the lowest-numbered
source presented to its target and holds it, clearing a software source; with none presented it returns 0x3FF and counts as
spurious. Completing the held source frees it and starts its group's hold-off, which ends once device time has reached it;
completing any other, 0x3FF and
above among them, sets PG_ERR bit 16 and counts. SW and SW_CLR set and clear software sources. -/
def Obligations.Beacon : Prop :=
  ∀ (s : State) (tag : BitVec 13) (t : BitVec 3), s.canonical = true →
    let data := fun (v : Word) => if t.toNat % 2 = 1 then (v ++ 0#32 : Dword) else 0#32 ++ v
    (s.reaches tag pBCON .bcon 0 = true →
      (s.pageEn pBCON = true → (∀ n, n < 512 → s.presented t.toNat n = false) → exec (.claim tag t) s = .next ((s.bump (rBCON 0xC0)).answerRdp (data 0x3FF) 0)) ∧
      (s.pageEn pBCON = false → exec (.claim tag t) s = .next (s.answerRdp (data 0x3FF) 0)) ∧
      (∀ n, n < 512 → s.pageEn pBCON = true → s.presented t.toNat n = true → (∀ m, m < n → s.presented t.toNat m = false) → ∃ s' : State, exec (.claim tag t) s = .next s' ∧
        s'.rdp = { s.rdp with adata := data (BitVec.ofNat 32 n), aerr := 0 } ∧ s'.holds t.toNat = some n ∧ (∀ j, j ≠ t.toNat → s'.holds j = s.holds j) ∧
        s'.rd (rBCON 0xC8) = satAdd (s.rd (rBCON 0xC8)) 1 ∧
        (n < 256 → RegsBut s s' [rBCON 0xC8]) ∧
        (256 ≤ n → s'.swBit n = false ∧ ∀ m, 256 ≤ m → m < 512 → m ≠ n → s'.swBit m = s.swBit m) ∧
        { s' with rdp := s.rdp, bcon := { s'.bcon with claims := s.bcon.claims }, regs := s.regs } = s) ∧
      (∀ n : BitVec 10, s.holds t.toNat = some n.toNat → n.toNat < 512 →
        let g := n.toNat / 16
        let h := s.num (rBCON (0x100 + 4 * g)) 0 16
        let free := { s with bcon := { s.bcon with claims := Tbl.set (fun _ => none) s.bcon.claims t.toNat none } }
        (h = 0 → Answers (.complete tag t n) s free) ∧
        (h ≠ 0 → Answers (.complete tag t n) s { free with bcon := { free.bcon with
          hold := Tbl.set (fun _ => 0) s.bcon.hold g (BitVec.ofNat 64 ((s.time.toNat + h * 64 + 63) / 64 * 64)) } })) ∧
      (∀ n : BitVec 10, s.holds t.toNat ≠ some n.toNat → Answers (.complete tag t n) s ((s.bump (rBCON 0xC4)).setErr pBCON 16)) ∧
      (∀ v : Word, 0x400 ≤ v.toNat → (∀ n, s.holds t.toNat = some n → n < 512) →
        let a := write32 tag (rBCON (0x60 + 4 * t.toNat)) v
        Answers (.registerWrite a.tag a.addr a.strb a.data) s (((s.setErr pBCON 2).bump (rBCON 0xC4)).setErr pBCON 16)) ∧
      (∀ v : Word, Answers (.swSet tag t v) s (s.wr (rBCON (0x2C0 + 4 * t.toNat)) (s.rd (rBCON (0x2C0 + 4 * t.toNat)) ||| v)) ∧
        Answers (.swClear tag t v) s (s.wr (rBCON (0x2C0 + 4 * t.toNat)) (s.rd (rBCON (0x2C0 + 4 * t.toNat)) &&& ~~~v)))) ∧
    (∀ (n : BitVec 9) (level : Bool), s.pwr.mode = .active → s.powered 1 = true → srcAssigned n.toNat = true → n.toNat < 256 → s.srcCond n.toNat = level →
      exec (.sourceAssert n level) s = .next { s with bcon := { s.bcon with seen := Tbl.set (fun _ => false) s.bcon.seen n.toNat level } }) ∧
    (∀ g : BitVec 5, let stop := Tbl.get (fun _ => 0#64) s.bcon.hold g.toNat
      stop ≠ 0 → stop ≤ s.time → exec (.holdoffExpire g) s = .next { s with bcon := { s.bcon with hold := Tbl.set (fun _ => 0) s.bcon.hold g.toNat 0 } }) ∧
    (∀ g : BitVec 5, s.time < Tbl.get (fun _ => 0#64) s.bcon.hold g.toNat → exec (.holdoffExpire g) s = .next s)

/-! ## Runs and digests (spec/14_determinism_and_audit.md) -/

/-- R452, R454: AUDT.REPRO_CMD. ARM in FREE, with every ratio locked and a partition in TIDE_LOCK, is BUSY and reads ARMING with
the partitions of the run; it ends with ERR 3, 1 or 2 otherwise. GO in ARMED waits for its edge, and ends with ERR 3 elsewhere.
DISARM frees the run. An idle block takes ARMING to ARMED; the edge takes a run that goes to RUNNING, with the device time
recorded. (The model reads the rules as log entry 24 says.) -/
def Obligations.TideLockRuns : Prop :=
  ∀ (s : State) (tag : BitVec 13), s.canonical = true →
    let cmd := rAUDT 0x200
    let stat := rAUDT 0x204
    let st := s.num stat 30 2
    let ends := fun (t : State) (err : BitVec 4) => (t.setBit cmd 27 false).setF cmd 20 err
    let busy := (s.setBit cmd 27 true).setF cmd 20 0#4
    (s.reaches tag pAUDT .audt 0 = true →
      (s.flag cmd 27 = true → Answers (.arm tag) s (s.setErr pAUDT 22) ∧ Answers (.go tag) s (s.setErr pAUDT 22) ∧ Answers (.disarm tag) s (s.setErr pAUDT 22)) ∧
      (s.flag cmd 27 = false →
        (st ≠ 0 → Answers (.arm tag) s (ends s 3)) ∧
        (st = 0 → s.ratioOk = false → Answers (.arm tag) s (ends s 1)) ∧
        (st = 0 → s.ratioOk = true → s.tideLocked = 0 → Answers (.arm tag) s (ends s 2)) ∧
        (st = 0 → s.ratioOk = true → s.tideLocked ≠ 0 → Answers (.arm tag) s (busy.wr stat (1#2 ++ 0#14 ++ s.tideLocked))) ∧
        (st ≠ 2 → Answers (.go tag) s (ends s 3)) ∧
        (st = 2 → Answers (.go tag) s { busy with aud := { s.aud with going := true } }) ∧
        Answers (.disarm tag) s (ends (s.wr stat 0) 0))) ∧
    (st = 1 → s.armIdle = true → exec .armDone s = .next (ends (s.armReset.setF stat 30 2#2) 0)) ∧
    (st ≠ 1 ∨ s.armIdle = false → exec .armDone s = .next s) ∧
    (s.aud.going = false → exec .runStart s = .next s) ∧
    (s.aud.going = true →
      let mine := s.streams.filter (fun x => x.2.pause && (match s.partOf (funcOf (BitVec.ofNat 14 x.1)) with | some p => s.inRun p | none => false))
      let u := mine.foldl (fun t x => t.resumeStream (BitVec.ofNat 14 x.1)) s
      exec .runStart s = .next (ends (({ u with aud := { u.aud with going := false } }.setF stat 30 3#2).wr64 (rAUDT 0x208) u.time) 0)) ∧
    (s.aud.going = true → s.streams.any (fun x => x.2.pause) = false →
      exec .runStart s = .next (ends (({ s with aud := { s.aud with going := false } }.setF stat 30 3#2).wr64 (rAUDT 0x208) s.time) 0))

/-- R460, R461: AUDT.DIG_CMD. While BUSY a command sets PG_ERR bit 21 alone; of a partition without a table it ends with ERR 1
and sets bit 25. REG_PROG of 1 to 512 lines and the two UNREG commands read the table line that they act on, and REG_MODEL the
first lines of its range. A read or write error ends the command with ERR 4, and the acknowledgement of the table line's write
ends it with ERR 0, after which the partition's kept model line is read again if it was that one. (The model reads the rules as
log entries 18 and 32 say.) -/
def Obligations.Digests : Prop :=
  ∀ (s : State) (tag : BitVec 13), s.canonical = true →
    let cmd := rAUDT 0x210
    let ends := fun (t : State) (err : BitVec 4) => (({ t with aud := { t.aud with dig := none } }).setBit cmd 27 false).setF cmd 20 err
    (s.reaches tag pAUDT .audt 0 = true → s.flag (rAUDT 0x224) 31 = false → ∀ (p : BitVec 4),
      let u := ((s.stored cmd 0x3F (p.setWidth 32)).setBit cmd 27 true).setF cmd 20 0#4
      let n := s.rd (rAUDT 0x21C)
      let model := s.rd (rAUDT 0x220)
      let a := s.addrPair (rAUDT 0x214) 6
      let q := p.setWidth 6
      (∀ i ∈ [(.regProg tag q : Instr), .regModel tag q, .unregProg tag q, .unregModel tag q],
        (s.flag cmd 27 = true → Answers i s (s.setErr pAUDT 21)) ∧
        (s.flag cmd 27 = false → s.dtabValid p = false → Answers i s ((ends u 1).setErr pAUDT 25))) ∧
      (s.flag cmd 27 = false → s.dtabValid p = true →
        let reads := fun (op : BitVec 4) (line : Nat) =>
          ({ u with aud := { s.aud with dig := some ⟨op, p, 0, digBase op a n model, n.toNat, a, shaInit⟩ } }).read (s.dtabAddr p line) 1 (.digCmd 0)
        (1 ≤ n.toNat → n.toNat ≤ 512 → Answers (.regProg tag q) s (reads 1 (s.dtabIndex p a))) ∧
        (n.toNat = 0 ∨ 512 < n.toNat → Answers (.regProg tag q) s ((ends u 2).setErr pAUDT 25)) ∧
        (n ≠ 0 → model ≠ 0 → Answers (.regModel tag q) s
          (({ u with aud := { s.aud with dig := some ⟨2, p, 1, digBase 2 a n model, n.toNat, a, shaInit⟩ } }).read a (min 8 n.toNat) (.digCmd 1))) ∧
        (n = 0 ∨ model = 0 → Answers (.regModel tag q) s ((ends u 2).setErr pAUDT 25)) ∧
        Answers (.unregProg tag q) s (reads 3 (s.dtabIndex p a)) ∧ Answers (.unregModel tag q) s (reads 4 0))) ∧
    (∀ (u : State) (mtag : BitVec 8) (gen : BitVec 4) (q : MReq) (step : Nat) (c : DigCmd) (write : Bool), s.gets (!write) mtag gen u q → q.why = .digCmd step → u.aud.dig = some c →
      u.flag (rAUDT 0x224) 31 = false →
      (write = true → exec (.digCmdDone true mtag gen true []) s = .next ((ends u 4).setErr pAUDT 25)) ∧
      (write = true → exec (.digCmdDone true mtag gen false []) s = .next (ends (if c.op = 2 ∨ c.op = 4 then u.modelForget c.part else u) 0)) ∧
      (write = false → ∀ ls : List Line, ls.length * 64 = q.len → exec (.digCmdDone false mtag gen false ls) s = .next (u.digStep c ls)) ∧
      (write = false → ∀ ls : List Line, exec (.digCmdDone false mtag gen true ls) s = .next (u.digEnd 4)) ∧
      (∀ l : Line, write = false → q.len = 64 → c.step = 0 → c.op = 1 → (entryValid l = false ∨ (entryAddr l = entryAddr c.entry ∧ entryLines l = entryLines c.entry)) →
        exec (.digCmdDone false mtag gen false [l]) s =
          .next (({ u with aud := { u.aud with dig := some { c with step := 1 } } }).read c.addr (min 8 c.left) (.digCmd 1))))

/-! ## Shoal (spec/10_shoal_lookup_coalescing.md) -/

/-- R338, R341, R342, R345, R346: an index list's lines enter the index store. A lookup launch at stage 7 whose list is complete
is refused by the first check that fails; it joins the partition's open window when it fits in it; it opens a window when none
is open and a plan slot is free and no launch that waits is served before it, and otherwise waits. An open window closes with
cause TIMER once its closing time has come. R343, R344, R350, R353, R357: the intake pipe inserts two indices, each of which
takes the gather entry of its row if the window's Lagoon slot holds it, and otherwise makes one, in the lowest free way of its
set or passing through. The window that closed first is sealed once every index is inserted; the commands that its gather
entries are cut into hold each entry once and in order, 1 to 12 of them, with at most 12 bytes of tokens. A map's last
acknowledgement releases its launch once the gathers are over. (The model reads the rules as log entry 19 says.) -/
def Obligations.LookupWindows : Prop :=
  (∀ (s : State), s.canonical = true →
    (∀ (u : State) (mtag : BitVec 8) (gen : BitVec 4) (q : MReq) (k : EKey) (off : Nat) (ls : List Line), s.gets true mtag gen u q → q.why = .indexList k off →
      ls.length * 64 = q.len →
      exec (.indexListReturn mtag gen false ls) s =
        .next (u.updLookup k (fun l => { l with lines := setLines l.lines off ls, missing := l.missing - 1 })) ∧
      exec (.indexListReturn mtag gen true []) s = .next (u.updLookup k (fun l => { l with missing := l.missing - 1, err := true }))) ∧
    (∀ (k : EKey) (e : Entry) (l : Lookup), (s.stream k.stream).head = some k.seq → s.entry k = some e → s.shoal.lookups.find? (fun l => decide (l.e = k)) = some l →
      e.stage = .shoal → e.window = none → l.asked = true → l.missing = 0 → s.shoal.reads.any (fun r => decide (r.part = e.part) && r.cmd) = false →
      let p := e.part
      let f := (funcOf k.stream).toNat
      let worst := s.worstOf p l.indices
      let shared := s.flag (rSHOLp p 4) 31 && !s.flag (rSHOL (0xA00 + 4 * (f / 32))) (f % 32)
      (∀ code index, s.lkCheck p l = some (code, index) →
        exec (.lookupAdmit k.stream) s = .next (((s.bump (rSHOL 0x58)).setErr pSHOL 20).shoalFail k code index)) ∧
      (s.lkCheck p l = none → exec (.lookupAdmit k.stream) s = .next (s.admitLookup k p l)) ∧
      (∀ w : Win, s.lkCheck p l = none → shared = true → s.openWin p = some w → s.win p w.num = some w → w.indices + l.n ≤ cfgMaxIdx w.cfg →
        w.worst + worst ≤ s.planBytes p → w.members.length + 1 < cfgMaxReq w.cfg → (classOf k.stream ≠ 0 ∨ w.cfg.getLsbD 30 = false) →
        ∃ s' : State, exec (.lookupAdmit k.stream) s = .next s' ∧
          s'.win p w.num = some { w with members := w.members ++ [⟨k, l.indices, [], 0, 0⟩], worst := w.worst + worst } ∧
          s'.entry k = some { e with window := some w.num } ∧ (∀ j, j ≠ k → s'.entry j = s.entry j) ∧ s'.shoal.intake = s.shoal.intake ++ [(p, w.num, k)] ∧
          { s' with entries := s.entries, shoal := { s'.shoal with wins := s.shoal.wins, intake := s.shoal.intake } } = s) ∧
      (s.lkCheck p l = none → shared = true → s.openWin p = none → (s.freePlan p = none ∨ s.winHeld p = true ∨ s.windowOutranked p k = true) →
        exec (.lookupAdmit k.stream) s = .next (s.updLookup k (fun l => { l with waits := true }))) ∧
      (∀ slot : Nat, s.lkCheck p l = none → shared = true → s.openWin p = none → s.winHeld p = false → s.freePlan p = some slot →
        s.windowOutranked p k = false →
        let n := Tbl.get (fun _ => 0) s.shoal.nextNum p.toNat
        let cfg := s.rd (rSHOLp p 4)
        let room := 32 + ceilDiv (cfgMaxIdx cfg) 2 + ceilDiv (cfgMaxIdx cfg) 4
        s.win p n = none → 1 < cfgMaxReq cfg → (classOf k.stream ≠ 0 ∨ cfg.getLsbD 30 = false) →
        ∃ s' : State, exec (.lookupAdmit k.stream) s = .next s' ∧
          s'.win p n = some ⟨p, n, slot, false, .opened, cfg, s.view + s.num (rSHOLp p 0) 0 24 * 65536 - room * 65536000 / s.cclkMhz,
            [⟨k, l.indices, [], 0, 0⟩], worst, 0, 0, [], []⟩ ∧
          s'.entry k = some { e with window := some n } ∧ (∀ j, j ≠ k → s'.entry j = s.entry j) ∧ s'.shoal.intake = s.shoal.intake ++ [(p, n, k)] ∧
          Tbl.get (fun _ => 0) s'.shoal.nextNum p.toNat = n + 1)) ∧
    (∀ (p : BitVec 4) (w : Win), s.openWin p = some w → s.win p w.num = some w →
      (s.view < w.tClose → exec (.windowTimer p) s = .next s) ∧
      (w.tClose ≤ s.view → ∃ s' : State, exec (.windowTimer p) s = .next s' ∧
        s'.win p w.num = some { w with st := .sealing, epoch := s.cur p, cls := w.members.foldl (fun c m => if classOf m.e.stream < c then classOf m.e.stream else c) 3 } ∧
        s'.shoal.sealQ = s.shoal.sealQ ++ [(p, w.num)] ∧ s'.rd (rSHOL 0x60) = satAdd (s.rd (rSHOL 0x60)) 1 ∧ RegsBut s s' [rSHOL 0x60] ∧
        { s' with regs := s.regs, shoal := { s'.shoal with wins := s.shoal.wins, sealQ := s.shoal.sealQ } } = s))) ∧
  ((∀ (s : State), exec .indexInsert s = .next s.intakeOne.intakeOne) ∧
  (∀ (s : State) (p : BitVec 4) (n : Nat) (k : EKey) (rest : List (BitVec 4 × Nat × EKey)) (w : Win) (m : Member) (t row : Nat), s.canonical = true →
    s.shoal.intake = (p, n, k) :: rest → s.win p n = some w → w.members.find? (fun m => decide (m.e = k)) = some m → m.idx[m.asn.length]? = some (t, row) →
    let set := lagoonSet w.slot p t row
    let hit := w.rows.findIdx? (fun r => r.way.isSome && decide (r.table = t) && decide (r.row = row))
    let way := ((List.range 4).map (fun i => 4 * set + i)).find? (fun x => !s.wayUsed x)
    let isOver := decide (m.asn.length + 1 = m.idx.length)
    s.intakeOne.shoal.intake = (if isOver then rest else s.shoal.intake) ∧ s.intakeOne.rd (rSHOL 0x40) = satAdd (s.rd (rSHOL 0x40)) 1 ∧
    (∀ i, hit = some i → s.intakeOne.win p n = some (w.updMember k (fun m => { m with asn := m.asn ++ [i] })) ∧ RegsBut s s.intakeOne [rSHOL 0x40]) ∧
    (hit = none → ∃ w' : Win, s.intakeOne.win p n = some w' ∧
      w'.rows = w.rows ++ [⟨teShard (s.tblEntry p t) row, t, row, (w.members.map (fun m => m.asn.length)).foldl (· + ·) 0, way, 0, 0⟩] ∧
      w'.members = (w.updMember k (fun m => { m with asn := m.asn ++ [w.rows.length], pass := m.pass + (if way.isNone then 1 else 0) })).members ∧
      s.intakeOne.rd (rSHOL 0x48) = (if way.isNone then satAdd (s.rd (rSHOL 0x48)) 1 else s.rd (rSHOL 0x48)))) ∧
  (∀ (s : State) (p : BitVec 4) (n : Nat) (rest : List (BitVec 4 × Nat)) (w : Win), s.shoal.sealQ = (p, n) :: rest → s.win p n = some w →
    exec .windowSeal s = .next (if w.members.all (fun m => decide (m.asn.length = m.idx.length)) then s.sealWin w else s)) ∧
  (∀ rows : List (Nat × GRow), (cutGathers rows).reverse.flatMap (·.rows) = rows.map (·.1) ∧
    ∀ c ∈ cutGathers rows, 1 ≤ c.rows.length ∧ c.rows.length ≤ 12 ∧ c.bytes.length ≤ 12) ∧
  (∀ (s u : State) (mtag : BitVec 8) (gen : BitVec 4) (q : MReq) (k : EKey) (e : Entry) (w : Win) (m : Member), u.canonical = true → s.gets false mtag gen u q →
    q.why = .mapWrite k → u.entry k = some e → e.stage = .shoal → u.shoal.wins = [w] → w.members = [m] → m.e = k →
    exec (.mapWriteAck mtag gen true) s = .next (({ u with shoal := { u.shoal with wins := [{ w with members := [{ m with acks := m.acks - 1 }] }] } }).shoalFail k 0x37 none) ∧
    (m.acks = 1 → w.st = .releasing → ∃ s' : State, exec (.mapWriteAck mtag gen false) s = .next s' ∧ s'.entry k = some { e with stage := .place } ∧
      (∀ j, j ≠ k → s'.entry j = u.entry j) ∧
      { s' with entries := u.entries, shoal := u.shoal, ferry := { s'.ferry with waits := u.ferry.waits } } = u) ∧
    (2 ≤ m.acks ∨ w.st ≠ .releasing → exec (.mapWriteAck mtag gen false) s =
      .next { u with shoal := { u.shoal with wins := [{ w with members := [{ m with acks := m.acks - 1 }] }] } })))

/-- R340, R364: SHOL.TBL_CMD. RELOAD of a disabled partition ends with ERR 1; one written while BUSY sets PG_ERR bit 18 alone;
otherwise it is BUSY, closes the partition's open window with cause RELOAD, and reads the directory. The last lines end it: with
ERR 2 after a read error, with ERR 3 for an entry that cannot be used, and otherwise with the directory copy replaced. (The
model reads the rules as log entry 32 says.) -/
def Obligations.TableDirectories : Prop :=
  ∀ (s : State) (tag : BitVec 13) (p : BitVec 4), s.canonical = true →
    let cmd := rSHOL 0x88
    let u := s.stored cmd 0x3F (p.setWidth 32)
    (s.reaches tag pSHOL .shol 0 = true →
      (s.flag cmd 27 = true → Answers (.reload tag (p.setWidth 6)) s (s.setErr pSHOL 18)) ∧
      (s.flag cmd 27 = false → s.partEn p = false → Answers (.reload tag (p.setWidth 6)) s (u.setF cmd 20 1#4)) ∧
      (s.flag cmd 27 = false → s.partEn p = true → Answers (.reload tag (p.setWidth 6)) s
        ((((u.setBit cmd 27 true).setF cmd 20 0#4).closeOpen p 5).tblRead p true))) ∧
    (∀ (u : State) (mtag : BitVec 8) (gen : BitVec 4) (q : MReq) (off : Nat) (r : TblRead) (ls : List Line), s.gets true mtag gen u q → q.why = .tableDir p off →
      ls.length * 64 = q.len → u.shoal.reads = [r] → r.part = p → r.started = true → r.cmd = true → r.err = false →
      let all := setLines r.lines off ls
      let ends := fun (t : State) (err : BitVec 4) => ({ t with shoal := { t.shoal with reads := [] } }.setBit cmd 27 false).setF cmd 20 err
      (2 ≤ r.missing → exec (.reloadDone mtag gen false ls) s =
        .next { u with shoal := { u.shoal with reads := [{ r with lines := all, missing := r.missing - 1 }] } } ∧
        exec (.reloadDone mtag gen true []) s = .next { u with shoal := { u.shoal with reads := [{ r with missing := r.missing - 1, err := true }] } }) ∧
      (r.missing = 1 → all.any teBad = false → exec (.reloadDone mtag gen false ls) s =
        .next (ends { u with shoal := { u.shoal with dirs := Tbl.set (fun _ => none) u.shoal.dirs p.toNat (some all) } } 0)) ∧
      (r.missing = 1 → all.any teBad = true → exec (.reloadDone mtag gen false ls) s = .next (ends u 3)) ∧
      (r.missing = 1 → exec (.reloadDone mtag gen true []) s = .next (ends u 2)))

/-! ## Reef and Lighthouse (spec/15_reef_faults.md) -/

/-- R469, R471, R472, R474, R475, R477, R486, R492: Reef takes the waiting event of the highest severity and, among these, of
the lowest UNIT. It writes the event's record at the head of the history, sets PEND and counts it; an event of at least
FAULT_MIN sets FAULT, writing the first-error record when the state was CLEAR, and restarts the quiet timer, and an S5 event
that is not injected stops ALIVE. The quiet timer's end returns to CLEAR and clears every page's FAULT; a page's own timer
clears that page's. INJECT is such an event, of the severity it names. (The model reads the rules as log entries 14 and 35 say.)
-/
def Obligations.FaultRecords : Prop :=
  ∀ (s : State), s.canonical = true →
    (∀ e : Event, s.reefNext = some e → e ∈ s.reef.waiting ∧ ∀ x ∈ s.reef.waiting, x.sev ≤ e.sev ∧ (x.sev = e.sev → e.unit ≤ x.unit)) ∧
    (∀ e : Event, s.powered 1 = true → s.reef.waiting = [e] → s.reef.later = [] → e.sev ≤ 5 →
      let head := s.num (rREEF 0x5C) 8 5
      let fault := decide (s.faultMin ≤ e.sev)
      let s5 := decide (e.sev = 5) && !e.injected
      ∃ s' : State, exec .reefTakeEvent s = .next s' ∧ s'.reef.waiting = [] ∧
        Tbl.get (fun _ => 0) s'.reef.hist head = e.record s.time (1#6 <<< e.sev) (s.fld (rREEF 0x78) 0 8) ∧
        s'.num (rREEF 0x5C) 8 5 = (head + 1) % 32 ∧ s'.flag (rREEF 0x48) e.sev = true ∧
        s'.rd (rREEF (0x60 + 4 * e.sev)) = satAdd (s.rd (rREEF (0x60 + 4 * e.sev))) 1 ∧
        s'.inFault = (s.inFault || fault) ∧
        (fault = true → s.inFault = false → s'.reef.fer = e.record s.time (1#6 <<< e.sev) 0) ∧ (fault = false → s'.reef.fer = s.reef.fer) ∧
        (fault = true → s'.reef.quietDur = s.quietNs ∧ s'.reef.quietEnd = s.time + s.quietNs) ∧
        (s5 = true → s'.lhse = { s.lhse with aliveOn := false } ∧ s'.flag (rLHSE 0x50) 26 = true) ∧ (s5 = false → s'.lhse = s.lhse) ∧
        { s' with regs := s.regs, reef := s.reef, trace := s.trace, lhse := s.lhse } = s) ∧
    (s.inFault = true → s.quietHeld = false → s.reef.quietEnd ≤ s.time → ∃ s' : State, exec .quietTimerExpire s = .next s' ∧
      s'.inFault = false ∧ (∀ page, s'.pageFault page = false) ∧ s'.rd (rREEF 0x50) = satAdd (s.rd (rREEF 0x50)) 1 ∧ RegsBut s s' [rREEF 0x44, rREEF 0x50] ∧
      { s' with regs := s.regs, reef := { s'.reef with pageTimers := s.reef.pageTimers, quietEnd := s.reef.quietEnd } } = s) ∧
    (∀ page : BitVec 8, let t := Tbl.get (fun _ => 0#64) s.reef.pageTimers page.toNat
      t ≠ 0 → t ≠ BitVec.allOnes 64 → t ≤ s.time → exec (.pageFaultTimerExpire page) s = .next
        { s with reef := { s.reef with pageTimers := Tbl.set (fun _ => 0) s.reef.pageTimers page.toNat 0 } }) ∧
    (∀ (tag : BitVec 13) (sev : BitVec 3), s.reaches tag pREEF .reef 0 = true → s.flag (rREEF 0xD0) 27 = false →
      (sev.toNat ≤ 5 → Answers (.inject tag sev) s (s.intake (ev pREEF 0x54 sev.toNat))) ∧
      (5 < sev.toNat → Answers (.inject tag sev) s (s.setErr pREEF 2)))

/-- R470, R481, R482: the scrubber compares the two copies of every entry of the maps: it rewrites an uncorrectable copy from
the other, and reports copies that differ as S5. A corrected error of a store is reported S0; an uncorrectable one poisons a
scale entry, marks the copy of a map's entry, and ends what a poll entry, a table or a window holds with S4. Stores that are not
powered report nothing. (The model reads the rules as log entry 25 says.) -/
def Obligations.StoreErrors : Prop :=
  ∀ (s : State), s.canonical = true →
    (s.flag (rREEF 0x40) 8 = true → s.powered 1 = true → exec .scrubPass s = .next s.idleExit.scrubPass) ∧
    (s.flag (rREEF 0x40) 8 = false ∨ s.powered 1 = false → exec .scrubPass s = .next s) ∧
    (∀ f : Nat, f < 4096 →
      let a := s.fpm false f
      let b := s.fpm true f
      (s.mapBad false false f = true → s.mapBad false true f = false → (s.scrubFpm f).fpm false f = b &&& fpmUsed b ∧ (s.scrubFpm f).mapBad false false f = false) ∧
      (s.mapBad false false f = false → s.mapBad false true f = false → a &&& fpmUsed a ≠ b &&& fpmUsed b →
        s.scrubFpm f = (s.raise { ev pREEF 0x52 5 with func := some (BitVec.ofNat 12 f) }).reefTake) ∧
      (s.mapBad false false f = false → s.mapBad false true f = false → a = b → a &&& ~~~fpmUsed a = 0 → s.scrubFpm f = s)) ∧
    (∀ site : SramSite, s.siteOn site = false → exec (.sramSbe site) s = .next s ∧ exec (.sramDbe site) s = .next s) ∧
    (∀ site : SramSite, s.siteOn site = true →
      let code := match site with | .imem _ _ _ | .dmem _ _ => 0x2D | _ => 0x7E
      let ps := ((List.range 16).map (BitVec.ofNat 4)).filter (s.unitHolds site)
      (∀ p : BitVec 4, s.sitePart site = some p → p ∈ ps) ∧
      exec (.sramSbe site) s = .next (ps.foldl State.timingBreak ((s.landSram site).intake (s.sramEvent site code 0))) ∧
      exec (.sramDbe site) s = .next (s.dbe site)) ∧
    (∀ n : BitVec 14, s.siteOn (.scale n) = true → ∃ s' : State, exec (.sramDbe (.scale n)) s = .next s' ∧
      (s'.scaleE n.toNat) = { s.scaleE n.toNat with poison := true } ∧ (∀ m, m ≠ n.toNat → s'.scaleE m = s.scaleE m) ∧
      s'.flag (pageAddr pSCAL 0x14) 18 = true ∧ { s' with scales := s.scales, regs := s.regs, reef := s.reef } = s) ∧
    (∀ (b : Bool) (f : BitVec 12), s.siteOn (.fpm b f) = true → ∃ s' : State, exec (.sramDbe (.fpm b f)) s = .next s' ∧ s'.mapBad false b f.toNat = true ∧
      { s' with reef := { s'.reef with bad := s.reef.bad } } = s) ∧
    (∀ p : BitVec 4, s.siteOn (.shoal p) = true → exec (.sramDbe (.shoal p)) s =
      .next ((s.intake { ev pSHOL 0x7F 4 with part := some p }).wantPart p .s4))

/-- R484 to R488: a HEARTBEAT write is counted, clears HB_LOST and lets ALIVE run unless an S5 or OOS holds it; one that does
not come within HB_TIMEOUT sets HB_LOST, is reported S1, and stops ALIVE; ALIVE toggles while it runs. The two HALT channels
give the mode RUN, PAUSED or HALTED; a change away from RUN is counted, and HALTED quiesces every thread until the mode is RUN
again. Channels that differ for as long as DISC_TIME are reported S5. -/
def Obligations.Lighthouse : Prop :=
  ∀ (s : State), s.canonical = true →
    (∀ (tag : BitVec 13) (v : Word), s.reaches tag pLHSE .lhse 0 = true → ∃ s' : State, Answers (.heartbeat tag v) s s' ∧
      s'.flag (rLHSE 0x50) 27 = false ∧ s'.flag (rLHSE 0x50) 28 = true ∧ s'.rd (pageAddr pKEEP 0x70) = s.rd (pageAddr pKEEP 0x70) + 1 ∧
      s'.lhse = { s.lhse with beatT := s.time, aliveOn := !(s.flag (rLHSE 0x50) 26 || s.flag (rLHSE 0x50) 29) } ∧
      RegsBut s s' [rLHSE 0x50, pageAddr pKEEP 0x70, pageAddr pLHSE 0x14] ∧ { s' with regs := s.regs, lhse := s.lhse } = s) ∧
    (let due := decide (s.num (rLHSE 0x48) 0 20 * 1000 < (s.time - s.lhse.beatT).toNat)
     (due = false → exec .heartbeatLost s = .next s) ∧
     (due = true → s.flag (rLHSE 0x50) 28 = true → s.flag (rLHSE 0x50) 27 = false → s.pwr.mode = .active →
      ∃ s' : State, exec .heartbeatLost s = .next s' ∧ s'.flag (rLHSE 0x50) 27 = true ∧ s'.lhse = { s.lhse with aliveOn := false } ∧
        { s' with regs := s.regs, lhse := s.lhse, reef := s.reef } = s)) ∧
    (s.lhse.aliveOn = true → exec .aliveToggle s = .next { s with lhse := { s.lhse with alive := !s.lhse.alive } }) ∧
    (s.lhse.aliveOn = false → exec .aliveToggle s = .next s) ∧
    (∀ a b : Bool, s.pwr.coldHeld = false → s.runOn = false →
      let m := haltMode a b s.lhse.mode
      let u : State := { s with lhse := { s.lhse with a := a, b := b, mode := m } }
      let counted := if s.lhse.mode = .run ∧ m ≠ .run then u.bump (rLHSE 0x54) else u
      ((a && b) = true → m = .halted) ∧ ((a || b) = false → m = .run) ∧ ((a && b) = false → (a || b) = true → s.lhse.mode ≠ .halted → m = .paused) ∧
      ((a && b) = false → (a || b) = true → s.lhse.mode = .halted → m = .halted) ∧
      exec (.haltChange a b) s = .next (if m = .halted ∧ s.lhse.mode ≠ .halted then counted.quiesceAll
        else if m = .run ∧ s.lhse.mode ≠ .run ∧ s.rst.stopped = false then counted.unquiesceAll else counted)) ∧
    (s.lhse.a = s.lhse.b → exec .haltDisc s = .next s) ∧
    (s.lhse.a ≠ s.lhse.b → s.lhse.discHeld = false → s.num (rLHSE 0x4C) 0 16 ≤ s.lhse.disc →
      exec .haltDisc s = .next (((({ s with lhse := { s.lhse with discHeld := true } }).setErr pLHSE 17).intake (ev pLHSE 0x58 5)).stopBlock))

/-! ## Hangs, ports and resets (spec/16_hangs_resets_recovery.md) -/

/-- R494, R496: a serving port whose oldest unreported command has waited longer than the ENGINE_TIMEOUT of its launch's start
(R27, R59) does not respond. A partition that has had a live launch and no progress for STALL_TIME gets its STALLED bit and an
S1 event that names its oldest live launch. Neither happens before. R510, R513, R519: ADD, REMOVE, READMIT and ENGINE_RESET of
CLKR.RST_CMD take effect on a port in the state that each needs, and end with ERR 2 on one in another; a port number out of
range gives ERR 1, a port that no partition owns ERR 3. In a partition that is locked and not idle a change is deferred, and
applied once it is idle. An engine reset's acknowledgement latches DEPTH and makes the port READY or returns it to service; one
that does not come within ENG_RST_TIME makes it DEAD, with an S1 event. (The model reads the rules as log entry 37 says.) -/
def Obligations.HangsAndPorts : Prop :=
  (∀ (s : State), s.canonical = true →
    (∀ (port : BitVec 7) (c : Cmd), s.oldest port.toNat = some c → (s.port port.toNat).serves = true → s.resetting c.part = false →
      let age := s.viewTime.toNat - c.sentT.toNat
      (∀ (k : EKey) (i : Nat) (e : Entry), c.who = .op k i → s.entry k = some e → e.executed = true → s.waitLimit c = e.waitUs.toNat) ∧
      (∀ (p : BitVec 4) (w g : Nat), c.who = .gather p w g → s.waitLimit c = s.num (pageAddr pINTG 0x48) 0 20) ∧
      (s.waitLimit c * 1000 < age → exec (.engineHang port) s = .next (s.notResponding port.toNat 0x48)) ∧
      (age ≤ s.waitLimit c * 1000 → exec (.engineHang port) s = .next s)) ∧
    (∀ (port : BitVec 7) (c : Cmd), s.oldest port.toNat = some c → (s.port port.toNat).serves = false ∨ s.resetting c.part = true → exec (.engineHang port) s = .next s) ∧
    (∀ port : BitVec 7, s.oldest port.toNat = none → exec (.engineHang port) s = .next s) ∧
    (∀ (p : BitVec 4) (k : EKey) (e : Entry), s.oldestLive p = some (k, e) →
      let due := max (Tbl.get (fun _ => 0#64) s.progT p.toNat).toNat (e.tStart / 65536) + s.num (rCLKR 0x114) 0 20 * 1000
      (s.flag (rCLKR 0x118) p.toNat = false → due ≤ s.time.toNat → exec (.stall p) s =
        .next (((s.setBit (rCLKR 0x118) p.toNat true).setErr pCLKR 24).intake ((ev pCLKR 0x40 1).ofEntry k e))) ∧
      (s.time.toNat < due → exec (.stall p) s = .next s)) ∧
    (∀ p : BitVec 4, s.oldestLive p = none → exec (.stall p) s = .next s)) ∧
  (∀ (s : State) (tag : BitVec 13) (port : BitVec 10), s.canonical = true →
    let n := port.toNat
    let u := s.stored (rCLKR 0x100) 0x3FF (port.setWidth 32)
    let x := s.port n
    let ready := s.flag (rEPRT n 0x44) 31 && s.pageEn (pEPRT n)
    (s.reaches tag pCLKR .clkr 0 = true → 128 ≤ n → ∀ i ∈ [(.addPort tag port : Instr), .remove tag port, .readmit tag port, .engineReset tag port],
      Answers i s (s.setErr pCLKR 2)) ∧
    (s.reaches tag pCLKR .clkr 0 = true → s.flag (rCLKR 0x100) 27 = false → n < 128 →
      ∀ i ∈ [((.addPort tag port : Instr), 3), (.remove tag port, 4), (.readmit tag port, 5), (.engineReset tag port, 6)],
        Answers i.1 s (if s.flag (rCLKR 0x104) 30 then u.rstErr 4 else u.portCmd i.2 n)) ∧
    (s.reaches tag pCLKR .clkr 0 = true → s.flag (rCLKR 0x100) 27 = false → s.flag (rCLKR 0x104) 30 = false → n < 128 →
      (∀ i ∈ [(.addPort tag port : Instr), .remove tag port, .readmit tag port, .engineReset tag port], s.ecpCount ≤ n → Answers i s (u.rstErr 1)) ∧
      (n < s.ecpCount →
        (x.st = .offline ∨ x.st = .ready ∨ x.st = .dead → Answers (.engineReset tag port) s
          (((((u.genUp n).engineAsk n 0).failCmds n 0).settle).rstErr 0) ∧
          (let y := (u.genUp n).engineAsk n 0
           y.port n = { x with gen := x.gen + 1, st := .resetting, reqT := some s.time, back := 0 } ∧
           y = (u.setPort n (y.port n)).sendDown (n / 16) (controlFlit (.engineReset n)))) ∧
        (x.st = .inService ∨ x.st = .draining ∨ x.st = .resetting → Answers (.engineReset tag port) s (u.rstErr 2)) ∧
        (x.defer ≠ 0 → ∀ i ∈ [(.addPort tag port : Instr), .remove tag port, .readmit tag port], Answers i s (u.rstErr 2)) ∧
        (∀ p : BitVec 4, s.portOwner n = some p → s.resetting p = true → x.defer = 0 →
          Answers (.addPort tag port) s (((u.setPort n { x with defer := 1 }).rstErr 0).engDefer p) ∧
          Answers (.readmit tag port) s (((u.setPort n { x with defer := 3 }).rstErr 0).engDefer p)) ∧
        (∀ p : BitVec 4, s.portOwner n = some p → s.resetting p = false → x.defer = 0 →
          (x.st = .offline → ready = false → Answers (.addPort tag port) s (u.rstErr 2)) ∧ (x.st = .ready → ready = false → Answers (.readmit tag port) s (u.rstErr 2)) ∧
          (x.st ≠ .offline → Answers (.addPort tag port) s (u.rstErr 2)) ∧ (x.st ≠ .inService → Answers (.remove tag port) s (u.rstErr 2)) ∧
          (x.st ≠ .ready → Answers (.readmit tag port) s (u.rstErr 2)) ∧
          (s.portsLocked p = false ∨ s.partIdle p = true →
            (x.st = .offline → ready = true → Answers (.addPort tag port) s ((u.rstErr 0).setPort n { x with st := .inService })) ∧
            (x.st = .inService → Answers (.remove tag port) s ((u.rstErr 0).setPort n { x with st := .draining }).drainPorts) ∧
            (x.st = .ready → ready = true → Answers (.readmit tag port) s ((u.rstErr 0).setPort n { x with st := .inService }))) ∧
          (s.portsLocked p = true → s.partIdle p = false →
            (x.st = .offline → ready = true → Answers (.addPort tag port) s (((u.setPort n { x with defer := 1 }).rstErr 0).engDefer p)) ∧
            (x.st = .inService → Answers (.remove tag port) s (((u.setPort n { x with defer := 2 }).rstErr 0).engDefer p)) ∧
            (x.st = .ready → ready = true → Answers (.readmit tag port) s (((u.setPort n { x with defer := 3 }).rstErr 0).engDefer p)))) ∧
        (s.portOwner n = none → x.defer = 0 → (x.st = .offline → Answers (.addPort tag port) s (u.rstErr 3)) ∧ (x.st = .ready → Answers (.readmit tag port) s (u.rstErr 3))))) ∧
    (∀ q : BitVec 7, let m := q.toNat
      let y := s.port m
      (∀ p : BitVec 4, s.portOwner m = some p → s.resetting p = false → s.partIdle p = true →
        (y.defer = 1 → y.st = .offline → s.portFit m = true → exec (.deferredPortChange q) s = .next ((s.setPort m { y with st := .inService, defer := 0 }).engDefer p)) ∧
        (y.defer = 2 → y.st = .inService → exec (.deferredPortChange q) s = .next ((s.setPort m { y with st := .draining, defer := 0 }).drainPorts.engDefer p)) ∧
        (y.defer = 3 → y.st = .ready → s.portFit m = true → exec (.deferredPortChange q) s = .next ((s.setPort m { y with st := .inService, defer := 0 }).engDefer p)) ∧
        (y.defer ≠ 0 → exec (.deferredPortChange q) s = .next ((s.portChange m (y.defer + 2)).engDefer p))) ∧
      (∀ p : BitVec 4, s.portOwner m = some p → s.resetting p = true ∨ s.partIdle p = false → exec (.deferredPortChange q) s = .next s) ∧
      (y.defer = 0 → exec (.deferredPortChange q) s = .next s) ∧
      (s.portOwner m = none → y.defer ≠ 0 → exec (.deferredPortChange q) s = .next (s.portChange m (y.defer + 2))) ∧
      (∀ depth : BitVec 8, s.portHeard m = true → y.st = .resetting → ∃ s' : State, exec (.engineResetAck q depth) s = .next s' ∧
        s'.port m = { y with st := if y.back = 2 ∧ 1 ≤ depth.toNat ∧ depth.toNat ≤ 64 then .inService else .ready, reqT := none, back := 0 } ∧ (∀ j, j ≠ m → s'.port j = s.port j) ∧
        s'.flag (rEPRT m 0x44) 31 = (decide (1 ≤ depth.toNat) && decide (depth.toNat ≤ 64)) ∧ s'.num (rEPRT m 0x44) 0 7 = depth.toNat % 128 ∧
        RegsBut s s' [rEPRT m 0x44] ∧ { s' with ports := s.ports, regs := s.regs } = s) ∧
      (∀ depth : BitVec 8, (s.portHeard m = false → exec (.engineResetAck q depth) s = .next s) ∧
        (s.portHeard m = true → y.st ≠ .resetting → exec (.engineResetAck q depth) s = .next (if (s.linkOf (m / 16)).isSome then s.latchDepth m depth else s))) ∧
      (y.reqT = none ∨ y.st ≠ .resetting → exec (.resetTimeout q) s = .next s) ∧
      (∀ t : Dword, y.reqT = some t → y.st = .resetting →
        let late := decide (s.num (rCLKR 0x10C) 0 20 * 1000 ≤ (s.time - t).toNat)
        (late = false → exec (.resetTimeout q) s = .next s) ∧
        (late = true → exec (.resetTimeout q) s = .next (((s.setPort m { y with st := .dead, reqT := none, back := 0 }).setErr pCLKR 25).intake
          { ev (pEPRT m) 0x49 1 with part := s.portOwner m })))))

/-- R79, R498, R500, R501, R507, R514: a partition reset that is wanted starts, is counted and discards the partition's work, or
is a block compute reset when the reset limit is exceeded. Step 4 increments the tag of each port of the partition, drops its
commands, and resets each port that serves and has a command unreported; step 5 follows once these resets are over, and step 6
ends the reset once the partition's records are written back. (The model reads the rules as log entry 37 says.) -/
def Obligations.PartitionResets : Prop :=
  ∀ (s : State) (p : BitVec 4), s.canonical = true →
    (∀ c : Cause, s.rst.partWant.find? (fun x => decide (x.1 = p)) = some (p, c) → s.resetting p = false → s.canReset = true →
      (s.partNote p).rd (rCLKR 0x140) = satAdd (s.rd (rCLKR 0x140)) 1 ∧ (s.partNote p).rst.partWant = s.rst.partWant.filter (fun x => decide (x.1 ≠ p)) ∧
      ((s.partNote p).escalates = false → exec (.partition p) s = .next ((s.partNote p).partStart p c)) ∧
      ((s.partNote p).escalates = true → exec (.partition p) s = .next ((s.partNote p).blockStart .escalation ((s.partNote p).causeFault c)))) ∧
    (s.rst.partWant.find? (fun x => decide (x.1 = p)) = none ∨ s.resetting p = true ∨ s.canReset = false → exec (.partition p) s = .next s) ∧
    (s.partRun p = none → exec (.partResetDrained p) s = .next s ∧ exec (.partResetPortsDone p) s = .next s ∧ exec (.partResetDone p) s = .next s) ∧
    (∀ (k : EKey) (e : Entry), (s.discard (some p)).entry k = some e → e.part ≠ p) ∧
    (∀ r : ResetRun, s.partRun p = some r →
      (r.step = 3 → s.drainOver r (s.portsOf p) = true → ∃ u : State, exec (.partResetDrained p) s = .next u.drainPorts ∧
        (∀ n, u.port n = if n ∈ s.portsOf p then
            (let y := { s.port n with gen := (s.port n).gen + 1 }
             if s.occ n ≠ 0 ∧ y.serves = true then { y with st := .resetting, reqT := some s.time, back := if y.st = .inService then 2 else 1 } else y)
          else s.port n) ∧
        u.disp = { s.disp with cmds := s.disp.cmds.filter (fun c => decide (c.port ∉ s.portsOf p)) } ∧ u.partRun p = some { r with step := 4, t := s.time } ∧
        (∀ q, q ≠ p → u.partRun q = s.partRun q) ∧
        u.cw = (((s.portsOf p).filter (fun n => decide (s.occ n ≠ 0) && (s.port n).serves)).foldl State.resetDown s).cw ∧
        { u with ports := s.ports, disp := s.disp, rst := s.rst, cw := s.cw } = s) ∧
      (r.step = 3 → s.drainOver r (s.portsOf p) = false → exec (.partResetDrained p) s = .next s) ∧
      (r.step = 4 → (∀ n ∈ s.portsOf p, (s.port n).back = 0) → exec (.partResetPortsDone p) s =
        .next (((s.partClean p).setPartRun p (some { r with step := 5, t := s.time })).drainPorts)) ∧
      ((∃ n ∈ s.portsOf p, (s.port n).back ≠ 0) → exec (.partResetPortsDone p) s = .next s) ∧
      (r.step = 5 → s.cleaning p = false → exec (.partResetDone p) s =
        .next ((((((((s.ctxCmdByReset p).partBack p).setPartRun p none).setBit (rCLKR 0x104) p.toNat false).bumpF (rPART p 0x1C) 16 16).portsApply
          (fun q => decide (q = p))).tblStart p).quietRelease)) ∧
      (s.cleaning p = true → exec (.partResetDone p) s = .next s) ∧
      (r.step = 5 → s.cleaning p = false → s.ctxCmd p = none → s.ports.all (fun x => decide (x.2.defer = 0)) = true → exec (.partResetDone p) s =
        .next ((((((((s.wr (rPART p 0x70) 0).setF (rPART p 0x74) 0 (if s.partEn p then 1#3 else 0#3)).setBit (rPART p 0x0C) 1 false).setPartRun p none).setBit
          (rCLKR 0x104) p.toNat false).bumpF (rPART p 0x1C) 16 16).tblStart p).quietRelease)) ∧
      (r.step ≠ 3 → exec (.partResetDrained p) s = .next s) ∧ (r.step ≠ 4 → exec (.partResetPortsDone p) s = .next s) ∧
      (r.step ≠ 5 → exec (.partResetDone p) s = .next s))

/-- R272, R499, R503, R504, R505, R507, R514: a block compute reset that is wanted starts and is counted. After an S5 event it
waits for Keeper or KEEPER_GRACE. Step 4 increments every port's tag, drops every command, and resets the ports that have an
engine; step 5 follows, and when memory has acknowledged it the tags of MMP and FAP increment, every unit but PD0's, MMP's,
Causeway's and FAP's is reset, with sync-object values and streams' positions kept and INIT_DONE 0, or the block goes out of
service when the limit was exceeded. INIT_DONE ends it. (The model reads the rules as log entries 33 and 37 say.) -/
def Obligations.BlockResets : Prop :=
  ∀ (s : State), s.canonical = true →
    (∀ c : Cause, s.rst.blockWant = some c → s.rst.block = none → s.canReset = true →
      exec .block s = .next ((s.noteStart true).blockStart (if (s.noteStart true).escalates then .escalation else c) ((s.noteStart true).causeFault c))) ∧
    (s.rst.blockWant = none ∨ s.rst.block.isSome = true ∨ s.canReset = false → exec .block s = .next s) ∧
    (s.rst.block = none → ∀ i ∈ [(.keeperGraceExpire : Instr), .blockResetDrained, .blockResetPortsDone, .blockResetSettled], exec i s = .next s) ∧
    (∀ (k : EKey), (s.discard none).entry k = none) ∧
    (∀ r : ResetRun, s.rst.block = some r →
      (r.step = 2 → r.cause = .s5 → (let grace := decide (s.num (rCLKR 0x110) 0 20 * 1000 ≤ (s.time - r.t).toNat)
        (grace = true → exec .keeperGraceExpire s = .next { s with rst := { s.rst with block := some { r with step := 3, t := s.time } } }) ∧
        (grace = false → exec .keeperGraceExpire s = .next s))) ∧
      (r.step = 3 → s.drainOver r (List.range s.ecpCount) = true → ∃ u : State, exec .blockResetDrained s = .next u ∧
        (∀ n, u.port n = if n < s.ecpCount then
            (let y := { s.port n with gen := (s.port n).gen + 1 }
             if s.flag (rEPRT n 0x44) 31 then { y with st := .resetting, reqT := some s.time, back := if y.st = .inService then 2 else 1 } else y)
          else s.port n) ∧
        u.disp = { s.disp with cands := [], cmds := [] } ∧ u.rst = { s.rst with block := some { r with step := 4, t := s.time } } ∧
        u.cw = (((List.range s.ecpCount).filter (fun n => s.flag (rEPRT n 0x44) 31)).foldl State.resetDown s).cw ∧
        { u with ports := s.ports, disp := s.disp, rst := s.rst, cw := s.cw } = s) ∧
      (r.step ≠ 2 ∨ r.cause ≠ .s5 → exec .keeperGraceExpire s = .next s) ∧
      (r.step ≠ 3 ∨ s.drainOver r (List.range s.ecpCount) = false → exec .blockResetDrained s = .next s) ∧
      (r.step ≠ 4 ∨ s.ports.all (fun x => decide (x.2.back = 0)) = false → exec .blockResetPortsDone s = .next s) ∧
      (r.step ≠ 5 ∨ s.mmp.all (fun x => !x.settles) = false → exec .blockResetSettled s = .next s) ∧
      (r.step ≠ 7 → exec .initDone s = .next s) ∧
      (r.step = 4 → s.ports.all (fun x => decide (x.2.back = 0)) = true → exec .blockResetPortsDone s =
        .next ((s.cleanRecords (fun _ => true)).setBlock (some { r with step := 5, t := s.time }))) ∧
      (r.step = 5 → s.mmp.all (fun x => !x.settles) = true → ∃ s' : State, exec .blockResetSettled s = .next s' ∧
        s'.mmpGen = s.mmpGen + 1 ∧ s'.fapGen = s.fapGen + 1 ∧ (∀ n, s'.stream n = (s.stream n).afterReset) ∧ (∀ k, s'.entry k = none) ∧
        (∀ c t, s'.thread c t = Thread.reset) ∧ (∀ n, (s'.obj n).value = (s.obj n).value ∧ (s'.obj n).poison = (s.obj n).poison) ∧
        s'.num (rSHOL 0x88) 0 6 = s.num (rSHOL 0x88) 0 6 ∧ (∀ o ∈ s.sync.offers, o.src = .rdp ∨ o.src = .tide ∨ o.src = .command → o ∈ s'.sync.offers) ∧ (∀ n, s'.scaleE n = ScaleE.reset) ∧
        (∀ f, s'.partOf f = s.partOf f) ∧ s'.ports = s.ports ∧ s'.time = s.time ∧
        (r.cause ≠ .escalation → s'.flag (pageAddr pGLBL 0x70) 0 = false ∧ s'.rst.block = some { r with step := 7, t := s.time }) ∧
        (r.cause = .escalation → s'.flag (rCLKR 0x104) 30 = true ∧ s'.rst.block = none ∧ s'.lhse = { s.lhse with aliveOn := false })) ∧
      (r.step = 7 → s.reloading = false → exec .initDone s = .next (s.blockEnd.setBit (pageAddr pGLBL 0x70) 0 true))) ∧
    (s.reloading = true → exec .initDone s = .next s) ∧
    (s.rst.block = none → s.flag (pageAddr pGLBL 0x70) 0 = true ∨ s.pwr.mode ≠ .active ∨ s.flag (rCLKR 0x104) 30 = true → exec .initDone s = .next s) ∧
    (s.rst.block = none → s.reloading = false → s.flag (pageAddr pGLBL 0x70) 0 = false → s.pwr.mode = .active → s.flag (rCLKR 0x104) 30 = false →
      exec .initDone s = .next (s.setBit (pageAddr pGLBL 0x70) 0 true))

/-- R517, R518, R596: a beat is added to its port's scratchpad section, which ends at the last beat or at its size limit; a port
without a beat within 10 µs is marked late. Once every section has ended the dump is written in class DUMP; when its writes are
acknowledged its header is written, with COMPLETE 0 after an error, and when the header is, DUMP_STAT shows it. R504, R575: when
Keeper writes its section, that starts 64 KiB before the area's end with MAGIC, FVER, IMAGE_VER, BOOT_STAT, the time, HB_COUNT
and LOG_BYTES. (The model reads the rules as log entry 26 says.) -/
def Obligations.Dumps : Prop :=
  ∀ (s : State) (d : Dump), s.canonical = true →
    let set := fun (t : State) (d : Dump) => { t with rst := { t.rst with dump := some d } }
    let written := fun (u : State) (d : Dump) => ∃ rs : List MReq, u.mmp = s.mmp ++ rs ∧ rs.length = ceilDiv (s.dumpBody d).1.length 8 + ceilDiv (s.keeperLines d).length 8 ∧
      (s.keeperDumps d = true → ∃ r ∈ rs, ∃ (h : Line) (ls : List Line), r.data = h :: ls ∧ r.addr = s.addrPair (rCLKR 0x128) 12 + BitVec.ofNat 57 (s.num (rCLKR 0x130) 0 24 * 1024 - 65536) ∧
        Line.w32 h 0 = 0x4B444D50 ∧ Line.byte h 4 = 1 ∧ Line.w32 h 8 = s.rd (pageAddr pKEEP 0x44) &&& 0xFFFFFF ∧ Line.w32 h 0xC = s.rd (pageAddr pKEEP 0x44) ∧
        Line.w64 h 0x10 = d.t ∧ Line.w32 h 0x18 = s.rd (pageAddr pKEEP 0x70) ∧ (Line.w32 h 0x1C).toNat ≤ 65472) ∧
      (∀ r ∈ rs, r.cls = .dump ∧ r.op = .write ∧ r.gen = s.mmpGen) ∧ ∃ d', u.rst.dump = some d' ∧ d'.stage = 1 ∧ d'.acks = rs.length ∧
        { d' with stage := d.stage, acks := d.acks, trunc := d.trunc, header := d.header } = d
    (s.rst.dump = some d → d.stage = 0 → ∀ (port : BitVec 7) (x : DumpPort), x.port = port.toNat → x.isOver = false →
      let n := port.toNat
      let max := s.num (rCLKR 0x134) 0 17 / 64 * 2
      (∀ (last : Bool) (data : BitVec 256), s.portHeard n = true →
        let x' := { x with beats := data :: x.beats, isOver := last || decide (max ≤ x.beats.length + 1) }
        (∀ y : DumpPort, d.ports = [x, y] → y.port ≠ n → y.isOver = false →
          exec (.dumpBeat port last data) s = .next (set (s.credit (n / 16)) { d with ports := [x', y] })) ∧
        (d.ports = [x] → x'.isOver = true → ∃ u : State, exec (.dumpBeat port last data) s = .next u ∧ written u { d with ports := [x'] })) ∧
      (∀ y : DumpPort, d.ports = [x, y] → y.port ≠ n → y.isOver = false → x.beats = [] →
        (d.t.toNat + 10000 ≤ s.time.toNat → exec (.dumpBeatTimeout port) s = .next (set s { d with ports := [{ x with isOver := true, late := true }, y] })) ∧
        (s.time.toNat < d.t.toNat + 10000 → exec (.dumpBeatTimeout port) s = .next s))) ∧
    (∀ (port : BitVec 7) (last : Bool) (data : BitVec 256), let n := port.toNat
      (s.portHeard n = false → exec (.dumpBeat port last data) s = .next s) ∧
      (s.rst.dump = none → exec (.dumpBeatTimeout port) s = .next s ∧ (s.portHeard n = true → exec (.dumpBeat port last data) s = .next (s.credit (n / 16)))) ∧
      (s.rst.dump = some d →
        (s.portHeard n = true → exec (.dumpBeat port last data) s = .next ((set (s.credit (n / 16)) (d.updPort n (fun x => if x.isOver then x else
          { x with beats := data :: x.beats, isOver := last || decide (s.num (rCLKR 0x134) 0 17 / 64 * 2 ≤ x.beats.length + 1) }))).dumpGo)) ∧
        (d.t.toNat + 10000 ≤ s.time.toNat → exec (.dumpBeatTimeout port) s =
          .next ((set s (d.updPort n (fun x => if x.isOver = true ∨ x.beats ≠ [] then x else { x with isOver := true, late := true }))).dumpGo)) ∧
        (s.time.toNat < d.t.toNat + 10000 → exec (.dumpBeatTimeout port) s = .next s))) ∧
    (∀ (part : Option (BitVec 4)) (c : Cause) (n : Nat), n < s.ecpCount → s.portHeard n = true → (s.linkOf (n / 16)).isSome = true →
      64 ≤ s.num (rCLKR 0x134) 0 17 → (∀ p, part = some p → n ∈ s.portsOf p) →
      ∃ k, s.linkOf (n / 16) = some k ∧ controlFlit (.dumpReq n (s.num (rCLKR 0x134) 0 17)) ∈ Tbl.get (fun _ => []) (s.dumpStart part c).cw.down k) ∧
    (∀ (u : State) (mtag : BitVec 8) (gen : BitVec 4) (q : MReq) (j : Nat) (err : Bool), s.gets false mtag gen u q → q.why = .dump j → u.rst.dump = some d →
      let d' := { d with acks := d.acks - 1, err := d.err || err }
      (d.acks ≠ 1 → exec (.dumpDone mtag gen err) s = .next (if d.acks = 0 ∧ d.stage ≠ 1 then
          (let v := (u.dumpOver d').blockDrain
           match d.part with | some p => v.partDrain p | none => v)
        else if d.acks = 0 then (set u { d' with stage := 2, acks := 1 }).dumpLines (u.addrPair (rCLKR 0x128) 12)
          [if d.err || err then d.header &&& ~~~(1#512 <<< 63) else d.header]
        else set u d')) ∧
      (d.acks = 1 → d.stage = 1 → exec (.dumpDone mtag gen err) s = .next { set u { d' with stage := 2, acks := 1 } with
        mmp := u.mmp ++ [⟨freeTag u.mmp .dump, .dump, u.mmpGen, .write, u.addrPair (rCLKR 0x128) 12, 64,
          [if d.err || err then d.header &&& ~~~(1#512 <<< 63) else d.header], .dump 0⟩] }) ∧
      (d.acks = 1 → d.stage = 2 → ∃ s' : State, exec (.dumpDone mtag gen err) s = .next s' ∧ s'.rst.dump = none ∧
        s'.flag (rCLKR 0x138) 31 = true ∧ s'.flag (rCLKR 0x138) 30 = !(d.err || err) ∧ s'.flag (rCLKR 0x138) 29 = d.trunc ∧
        s'.num (rCLKR 0x138) 24 4 = d.cause.code ∧ s'.num (rCLKR 0x138) 0 16 = u.num (rCLKR 0x138) 0 16 ∧ RegsBut u s' [rCLKR 0x138] ∧
        { s' with regs := u.regs, rst := u.rst } = u))

/-! ## Power (spec/17_power_domains.md) -/

/-- R455, R523 to R525, R530, R531, R536, R551: a quiet block goes IDLE after IDLE_DELAY and leaves IDLE. DROWSE and OFF start
an entry when the block is quiet, and end with ERR 1 when it is not (OFF also while a stream is enabled; out of service it ends
with ERR 3); AUTO_DROWSE starts one after DROWSE_AFTER. An entry is abandoned, with ERR 2, when the block stops being quiet or
an access arrives before PD1 is isolated; once memory has acknowledged everything every domain is isolated and powered down.
(The model reads the rules as log entry 38 says.) -/
def Obligations.PowerEntry : Prop :=
  ∀ (s : State), s.canonical = true →
    (let due := s.flag (rPWRC 0x48) 0 && s.quiet && decide (s.num (rPWRC 0x4C) 0 16 ≤ s.pwr.quietC)
     (s.pwr.mode = .active → due = true → exec .idleEntry s = .next { s.timingBreakAll with pwr := { s.pwr with mode := .idle } }) ∧
     (s.pwr.mode ≠ .active ∨ due = false → exec .idleEntry s = .next s)) ∧
    (s.pwr.mode = .idle → exec .idleExit s = .next { s.timingBreakAll with pwr := { s.pwr with mode := .active, quietC := 0 } }) ∧
    (s.pwr.mode ≠ .idle → exec .idleExit s = .next s) ∧
    (∀ tag : BitVec 13, s.reaches tag pPWRC .pwrc 0 = true → s.flag (rPWRC 0x40) 27 = false →
      (s.quiet = true → Answers (.drowse tag) s ((s.pwrErr 0).entryStart .drowse true)) ∧
      (s.quiet = false → Answers (.drowse tag) s (s.pwrErr 1)) ∧
      (s.flag (rCLKR 0x104) 30 = true → Answers (.off tag) s (s.pwrErr 3)) ∧
      (s.flag (rCLKR 0x104) 30 = false → s.quiet = true → s.anyStreamOn = false → Answers (.off tag) s ((s.pwrErr 0).entryStart .off true)) ∧
      (s.flag (rCLKR 0x104) 30 = false → s.quiet = false ∨ s.anyStreamOn = true → Answers (.off tag) s (s.pwrErr 1))) ∧
    (let due := s.flag (rPWRC 0x48) 1 && s.quiet && decide (s.pwr.quietC ≠ 0) && decide (s.num (rPWRC 0x50) 0 20 * 1000 ≤ (s.time - s.pwr.quietT).toNat)
     (s.pwr.mode = .active ∨ s.pwr.mode = .idle → due = true → exec .autoDrowse s = .next (s.entryStart .drowse false)) ∧
     (due = false ∨ (s.pwr.mode ≠ .active ∧ s.pwr.mode ≠ .idle) → exec .autoDrowse s = .next s)) ∧
    exec .entryAbort s = .next (if s.mustAbort then s.entryAbort.replayIf else s) ∧
    (s.pwr.mode ≠ .entering ∨ s.pwr.flushed = true ∨ s.mustAbort = true → exec .entryFlushDone s = .next s) ∧
    (s.pwr.mode = .entering → s.pwr.flushed = false →
      (s.quiet = true → s.rdp.held = [] → exec .entryAbort s = .next s) ∧
      (s.quiet = false → s.rdp.held = [] → exec .entryAbort s = .next
        { (((if s.pwr.cmd then s.pwrErr 2 else s).bump (rPWRC 0x78)).setErr pPWRC 17).timingBreakAll with pwr := { s.pwr with mode := .active, cmd := false } }) ∧
      (s.quiet = true → s.rdp.held = [] → s.entryWaits = true → exec .entryFlushDone s = .next s) ∧
      (s.quiet = true → s.rdp.held = [] → s.entryWaits = false → ∃ s' : State, exec .entryFlushDone s = .next s' ∧
        s'.pwr = { (s.domains.foldl (State.domOff · (decide (s.pwr.depth = .drowse))) s).pwr with flushed := true } ∧
        s'.rd (rPWRC 0x70) = 0 ∧ s'.alignState = 0 ∧ s'.num (rAUDT 0x204) 30 2 = 0 ∧ s'.aud.going = (s.aud.going && decide (s.num (rAUDT 0x204) 30 2 = 0)) ∧
        { s' with regs := s.regs, pwr := s.pwr, aud := s.aud } = s))

/-- R527 to R530, R532, R533, R537, R538: a PWR_ACK that rises as requested powers its domain up, one that falls as requested
powers it down, and the last one of an entry ends in DROWSE or OFF; one that falls by itself, or does not rise within
ACK_TIMEOUT, is an S5 event, and one that does not fall abandons the entry. A wake cause that is enabled starts the wake; it
ends, waves up and resynchronisation over, in ACTIVE. Cold reset holds the block in its reset state, and its release starts the
power-up. (The model reads the rules as log entries 29, 34 and 38 say.) -/
def Obligations.PowerUp : Prop :=
  ∀ (s : State) (dom : BitVec 5), s.canonical = true →
    let d := dom.toNat
    let x := s.dom d
    let acked := fun (t : State) => if x.reqT = noReq then t else
      t.wr (rPWRC 0x70) (BitVec.ofNat 32 (max (t.rd (rPWRC 0x70)).toNat (min (t.time - x.reqT).toNat 0xFFFFFFFF)))
    (∀ level : Bool, exec (.pwrAck dom level) s = .next (if s.rdpReady then s.pwrAck d level else (s.pwrAck d level).replayIf)) ∧
    (∀ level : Bool, x.ack ≠ level → s.domUsed d = true →
      (s.pwr.coldHeld = true → s.pwrAck d level = s.updDom d (fun x => { x with ack := level })) ∧
      (s.pwr.coldHeld = false → level = true → x.req = true → s.pwrAck d level = (s.ackRise d).waveNext) ∧
      (s.pwr.coldHeld = false → level = false → x.req = false → s.pwrAck d level = s.ackFall d)) ∧
    (s.domUsed d = false ∨ s.pwr.coldHeld = true ∨ x.reqT = noReq ∨ x.req = x.ack → exec (.ackTimeout dom) s = .next s) ∧
    (s.domUsed d = true → s.pwr.coldHeld = false →
      (x.ack = false → x.req = true → s.pwr.fatal = false → s.pwr.mode ≠ .waking → s.rdp.held = [] →
        exec (.pwrAck dom true) s = .next ((acked s).updDom d (fun x => { x with ack := true, reqT := noReq, iso := false, ret := false }))) ∧
      (x.ack = true → x.req = false → s.pwr.mode = .entering → s.pwr.flushed = true → s.rdp.held = [] →
        let u := (acked s).updDom d (fun x => { x with ack := false, reqT := noReq })
        (u.domains.any (fun d => (u.dom d).ack) = true → exec (.pwrAck dom false) s = .next u) ∧
        (u.domains.any (fun d => (u.dom d).ack) = false → s.pwr.want = 0 → exec (.pwrAck dom false) s =
          .next { u.bump (rPWRC 0x74) with pwr := { u.pwr with mode := .down, cmd := false } })) ∧
      (x.ack = true → x.req = true → s.rdp.held = [] → ∃ u : State, exec (.pwrAck dom false) s = .next { u with pwr := { u.pwr with fatal := true } } ∧
        u = ((s.updDom d (fun x => { x with ack := false, reqT := noReq })).intake (ev pPWRC 0x22 5)).stopBlock) ∧
      (∀ level : Bool, x.ack = level → s.rdp.held = [] → exec (.pwrAck dom level) s = .next s) ∧
      (let late := decide (s.num (rPWRC 0x60) 0 20 * 1000 ≤ (s.time - x.reqT).toNat)
       (late = false → exec (.ackTimeout dom) s = .next s) ∧
       (late = true → x.reqT ≠ noReq → x.req = true → x.ack = false → exec (.ackTimeout dom) s =
        .next { ((s.setErr pPWRC 16).intake (ev pPWRC 0x21 5)).updDom d (fun x => { x with reqT := noReq }) with pwr :=
          { (((s.setErr pPWRC 16).intake (ev pPWRC 0x21 5)).updDom d (fun x => { x with reqT := noReq })).pwr with fatal := true } }) ∧
       (late = true → x.reqT ≠ noReq → x.req = false → x.ack = true → exec (.ackTimeout dom) s =
        .next ((s.setErr pPWRC 16).intake (ev pPWRC 0x20 1)).entryUndo))) ∧
    (∀ cause : BitVec 4, exec (.wake cause) s = .next (s.wakeBy cause.toNat) ∧ exec .wakeTimer s = .next (s.wakeBy 4)) ∧
    (s.pwr.mode = .entering → s.pwr.flushed = true → s.pwr.want = 0 → ∀ cause : BitVec 4, s.wakeOk cause.toNat = true →
      exec (.wake cause) s = .next { s with pwr := { s.pwr with want := cause.toNat } }) ∧
    (s.pwr.mode = .waking → s.pwr.wave = 4 → s.resyncing = false → exec .wakeDone s = .next s.awake.replay) ∧
    (s.pwr.mode ≠ .waking ∨ s.pwr.wave ≠ 4 → exec .wakeDone s = .next s) ∧
    (s.pwr.mode = .down →
      (∀ cause ∈ [(1 : BitVec 4), 2, 3], s.wakeOk cause.toNat = true → exec (.wake cause) s = .next (s.wakeStart cause.toNat)) ∧
      (s.flag (rPWRC 0x54) 0 = false → exec (.wake 2) s = .next s) ∧
      (s.flag (rPWRC 0x54) 2 = true → s.rd64 (rPWRC 0x58) ≤ s.time → exec .wakeTimer s = .next (s.wakeStart 4)) ∧
      (s.flag (rPWRC 0x54) 2 = false ∨ s.time < s.rd64 (rPWRC 0x58) → exec .wakeTimer s = .next s)) ∧
    (s.pwr.mode = .waking → s.pwr.wave = 4 → s.resyncing = false → s.rdp.held = [] → ∃ s' : State, exec .wakeDone s = .next s' ∧
      s'.pwr.mode = .active ∧ s'.pwr.doms = s.pwr.doms ∧ s'.keep = { s.keep with bootDue := true } ∧ s'.lhse = { s.lhse with beatT := s.time } ∧
      s'.view = s.time.toNat * 65536 + 3 * s.viewInc ∧ s'.viewHeld = false ∧
      (s.pwr.backOut = false → s'.rd (rPWRC 0x7C) = satAdd (s.rd (rPWRC 0x7C)) 1 ∧ s'.rd (rPWRC 0x6C) = BitVec.ofNat 32 (min (s.time - s.pwr.wakeT).toNat 0xFFFFFFFF)) ∧
      { s' with regs := s.regs, pwr := s.pwr, lhse := s.lhse, keep := s.keep, view := s.view, viewHeld := s.viewHeld } = s) ∧
    (s.pwr.mode = .waking → s.resyncing = true → exec .wakeDone s = .next s) ∧
    (exec (.coldReset true) s = .next { s.coldInit with pwr := { s.coldInit.pwr with coldHeld := true, wave := 0 } } ∧
      (s.pwr.coldHeld = false → exec (.coldReset false) s = .next s) ∧
      (s.pwr.coldHeld = true → exec (.coldReset false) s =
        .next (({ s.coldInit with pwr := { s.coldInit.pwr with wave := 1 } }.waveOn 1).waveNext.replayIf)))

/-! ## Clocks and device time (spec/18_clock_domains.md) -/

/-- R543, R551, R554, R561: the twelve measured clocks are recorded, and a CCLK or HCLK that is off its declared value by more
than 1 % sets PG_ERR.MISMATCH, with one S1 event. ALIGN_REQ starts the check of the alignment, a check without failures locks
it, and a failed one, or a lost coincidence, returns it to ASYNC, is counted and is reported. R555 to R557, R559, R560: an ACLK
edge adds 10 ns to device time, or 9 or 11 while it slews, a pending step, or sets it to a pending TIME.SET that is not behind;
the CCLK view is reloaded, and holds still rather than go back. A pulse of TIME_SYNC clears SYNC_LOST, records the offset and
corrects it, by a step beyond STEP_LIMIT and by slewing otherwise; none within twice SYNC_PERIOD sets SYNC_LOST with an S1
event. (The model reads the rules as log entry 39 says.) -/
def Obligations.ClocksAndTime : Prop :=
  (∀ (s : State), s.canonical = true → s.pwr.coldHeld = false →
    (∀ mhz : List (BitVec 12), mhz.length = 12 →
      let bad := mismatch (mhz.getD 0 0).toNat s.cclkMhz || mismatch (mhz.getD 1 0).toNat (s.num (pageAddr pINTG 0x58) 0 12)
      ∃ s' : State, exec (.clockMeasure mhz) s = .next s' ∧
        (∀ i, i < 12 → s'.rd (rCLKR (0x60 + 4 * i)) = if (2 ≤ i ∧ i ≤ 9) ∧ (s.linkOf (i - 2)).isSome = true then 0 else (mhz.getD i 0).setWidth 32) ∧
        s'.flag (pageAddr pCLKR 0x14) 19 = (s.flag (pageAddr pCLKR 0x14) 19 || bad) ∧
        (bad = false ∨ s.flag (pageAddr pCLKR 0x14) 19 = true → s'.reef = s.reef) ∧
        (bad = true → s.flag (pageAddr pCLKR 0x14) 19 = false → s'.reef = (s.intake (ev pCLKR 0x47 1)).reef) ∧
        { s' with regs := s.regs, reef := s.reef } = s) ∧
    (∀ level : Bool, s.flag (rCLKR 0x50) 29 ≠ level → s.alignAble = true → s.runOn = false → ∃ s' : State, exec (.alignReq level) s = .next s' ∧
      s'.flag (rCLKR 0x50) 29 = level ∧
      (level = true → s'.alignState = if s.alignState = 0 then 1 else s.alignState) ∧
      (level = false → s'.alignState = if s.alignState = 1 ∨ s.alignState = 2 then 0 else s.alignState) ∧
      (level = false → s.alignState = 1 → s'.rd (rCLKR 0x54) = satAdd (s.rd (rCLKR 0x54)) 1 ∧ s'.reef = (s.intake (ev pCLKR 0x45 1)).reef) ∧
      (level = true ∨ s.alignState ≠ 1 → RegsBut s s' [rCLKR 0x50] ∧ s'.reef = s.reef) ∧ { s' with regs := s.regs, reef := s.reef } = s) ∧
    (∀ level : Bool, s.flag (rCLKR 0x50) 29 = level → exec (.alignReq level) s = .next s) ∧
    (∀ level : Bool, s.flag (rCLKR 0x50) 29 ≠ level → let u := s.setBit (rCLKR 0x50) 29 level
      exec (.alignReq level) s = .next (if level then (if s.alignState = 0 ∧ s.alignAble = true then u.setAlign 1 else u)
        else if s.alignState = 1 then u.alignFail 0 else if s.alignState = 2 then u.timingBreakAll.setAlign 0 else u)) ∧
    (∀ mask : BitVec 12, s.alignState = 2 → s.flag (rCLKR 0x50) 29 = true → mask ≠ 0 → exec (.alignLost mask) s =
      .next ((((((s.timingBreakAll.setF (rCLKR 0x50) 0 mask).setAlign 0).setErr pCLKR 17).bump (rCLKR 0x58)).intake (ev pCLKR 0x46 5)).stopBlock)) ∧
    (∀ mask : BitVec 12, s.alignState ≠ 2 ∨ s.flag (rCLKR 0x50) 29 = false ∨ mask = 0 → exec (.alignLost mask) s = .next s) ∧
    (s.alignState = 1 → (∃ s' : State, exec (.alignCheckDone 0) s = .next s' ∧ s'.alignState = 2 ∧ s'.num (rCLKR 0x50) 0 12 = 0 ∧ RegsBut s s' [rCLKR 0x50] ∧
        { s' with regs := s.regs } = s) ∧
      ∀ mask : BitVec 12, mask ≠ 0 → ∃ s' : State, exec (.alignCheckDone mask) s = .next s' ∧ s'.alignState = 0 ∧ s'.num (rCLKR 0x50) 0 12 = mask.toNat ∧
        s'.rd (rCLKR 0x54) = satAdd (s.rd (rCLKR 0x54)) 1 ∧ s'.flag (pageAddr pCLKR 0x14) 16 = true ∧ s'.reef = (s.intake (ev pCLKR 0x45 1)).reef ∧
        RegsBut s s' [rCLKR 0x50, rCLKR 0x54, pageAddr pCLKR 0x14, rREEF 0x7C, pageAddr pREEF 0x14] ∧ { s' with regs := s.regs, reef := s.reef } = s) ∧
    (s.alignState ≠ 1 → ∀ mask, exec (.alignCheckDone mask) s = .next s) ∧
    (∀ mask : BitVec 12, s.alignState = 2 → s.flag (rCLKR 0x50) 29 = true → mask ≠ 0 → s.runOn = false → ∃ u : State, exec (.alignLost mask) s = .next (u.stopBlock) ∧
      u.alignState = 0 ∧ u.num (rCLKR 0x50) 0 12 = mask.toNat ∧ u.rd (rCLKR 0x58) = satAdd (s.rd (rCLKR 0x58)) 1 ∧ u.flag (pageAddr pCLKR 0x14) 17 = true ∧
      u.reef = (s.intake (ev pCLKR 0x46 5)).reef ∧ RegsBut s u [rCLKR 0x50, rCLKR 0x58, pageAddr pCLKR 0x14, rREEF 0x7C, pageAddr pREEF 0x14] ∧ { u with regs := s.regs, reef := s.reef } = s)) ∧
  (∀ (s : State), s.canonical = true → s.pwr.coldHeld = false →
    (let t := s.time + (if s.tsync.slew < 0 then 9 else if 0 < s.tsync.slew then 11 else 10) + s.tsync.step
     let loaded := fun (s' : State) => s'.viewHeld = decide (s'.time.toNat * 65536 + 3 * s.viewInc < s.view) ∧
       s'.view = max s.view (s'.time.toNat * 65536 + 3 * s.viewInc)
     (s.tsync.set = none → ∃ s' : State, exec .deviceTimeTick s = .next s' ∧ s'.time = t ∧ loaded s' ∧
       s'.tsync = { s.tsync with slew := slewStep s.tsync.slew, step := 0 } ∧
       { s' with time := s.time, tsync := s.tsync, view := s.view, viewHeld := s.viewHeld, regs := s.regs, lhse := s.lhse } = s) ∧
     (∀ v : Dword, s.tsync.set = some v → ∃ s' : State, exec .deviceTimeTick s = .next s' ∧ loaded s' ∧ s'.time = (if v < t then t else v) ∧
       s'.tsync.set = none ∧ s'.tsync.step = 0 ∧ s'.tsync.slew = (if v < t then slewStep s.tsync.slew else 0) ∧
       s'.flag (pageAddr pTIME 0x14) 16 = (s.flag (pageAddr pTIME 0x14) 16 || decide (v < t)) ∧
       { s' with time := s.time, tsync := s.tsync, view := s.view, viewHeld := s.viewHeld, regs := s.regs, lhse := s.lhse } = s)) ∧
    (∀ (tag : BitVec 13) (v : Dword), s.reaches tag pTIME .time 0 = true → Answers (.timeSet tag v) s { s with tsync := { s.tsync with set := some v } }) ∧
    (s.flag (rTIME 0x58) 31 = false → exec .timeSync s = .next s ∧ exec .syncLost s = .next s) ∧
    (s.flag (rTIME 0x64) 29 = true → exec .syncLost s = .next s) ∧
    (s.flag (rTIME 0x58) 31 = true → s.tsync.set ≠ none → exec .timeSync s =
      .next { s.setBit (rTIME 0x64) 29 false with tsync := { s.tsync with pulseT := s.time } }) ∧
    (s.flag (rTIME 0x58) 31 = true → s.tsync.set = none →
      let off : Int := (s.rd64 (rTIME 0x50)).toNat - ((s.time.toNat : Int) - 25)
      let limit : Int := s.num (rTIME 0x58) 0 24
      ∃ s' : State, exec .timeSync s = .next s' ∧ s'.tsync.pulseT = s.time ∧ s'.tsync.set = none ∧ s'.flag (rTIME 0x64) 29 = false ∧
        s'.rd (rTIME 0x68) = satAdd (s.rd (rTIME 0x68)) 1 ∧ s'.rd (rTIME 0x60) = sat32 off ∧
        (off ≤ limit → s'.tsync.slew = off ∧ s'.tsync.step = s.tsync.step) ∧ (limit < off → s'.tsync.slew = 0 ∧ s'.tsync.step = BitVec.ofInt 64 off ∧ s'.flag (pageAddr pTIME 0x14) 18 = true) ∧
        s'.flag (rTIME 0x64) 31 = decide (s'.tsync.slew ≠ 0) ∧
        s'.rd64 (rTIME 0x50) = (if s.flag (rTIME 0x58) 30 then s.rd64 (rTIME 0x50) + (s.rd (rTIME 0x5C)).setWidth 64 else s.rd64 (rTIME 0x50)) ∧
        { s' with tsync := s.tsync, regs := s.regs } = s) ∧
    (s.flag (rTIME 0x58) 31 = true → s.flag (rTIME 0x64) 29 = false →
      let late := decide (2 * (s.rd (rTIME 0x5C)).toNat < (s.time - s.tsync.pulseT).toNat)
      (late = false → exec .syncLost s = .next s) ∧
      (late = true → exec .syncLost s = .next (((s.setBit (rTIME 0x64) 29 true).setErr pTIME 17).intake (ev pTIME 0x60 1)))))

/-! ## Keeper, links and trace (spec/19_keeper_firmware.md, spec/20_ports_and_signals.md) -/

/-- R565, R567, R568, R570, R572, R576: a boot with no valid record copy ends in RECOVERY. With no slot PENDING or VERIFIED it
runs the CONFIRMED slot's image if this passes the checks, and otherwise ends in RECOVERY. RESTART, and a trial that loses its
heartbeat or lasts TRIAL_TIME, reset the page and make a boot due. (The model reads the rules as log entries 30 and 40 say.) -/
def Obligations.KeeperBoots : Prop :=
  ∀ (s : State), s.canonical = true →
    (∀ x : KeeperStore, s.keep.bootDue = false ∨ s.powered 20 = false → exec (.keeperBoot x) s = .next s) ∧
    (∀ x : KeeperStore, s.keep.bootDue = true → s.powered 20 = true →
      let u := { s with keep := ⟨false, none, 0, 0, none⟩ }.keepClear
      let u0 := if recOk x.rec0 then u else u.keepEvent 0x83
      let u1 := if recOk x.rec1 then u0 else u0.keepEvent 0x83
      (∀ r : Line, currentRec x.rec0 x.rec1 = some r → exec (.keeperBoot x) s = .next ((u1.setRecord r).bootPending r x)) ∧
      (currentRec x.rec0 x.rec1 = none → exec (.keeperBoot x) s = .next u1.recovery)) ∧
    (s.flag (rKEEP 0x44) 30 = false ∨ s.powered 20 = false ∨ s.keep.bootDue = true → exec .trialTimeout s = .next s) ∧
    (∀ x : KeeperStore, s.keep.bootDue = true → s.powered 20 = true →
      (currentRec x.rec0 x.rec1 = none → ∃ s' : State, exec (.keeperBoot x) s = .next s' ∧ s'.booted = none ∧ s'.flag (rKEEP 0x44) 31 = true ∧
        s'.keep = ⟨false, none, 0, 0, none⟩ ∧ { s' with regs := s.regs, keep := s.keep, reef := s.reef } = s) ∧
      (∀ (r : Line) (c : BitVec 1), currentRec x.rec0 x.rec1 = some r → slotIn r 3 = none → slotIn r 2 = none → slotIn r 4 = some c →
        s.flag (rLHSE 0x50) 28 = false →
        let img := KeeperStore.image x c
        let ok := decide ((keepCheck img (recMinSvn r)).1 = 0)
        ∃ s' : State, exec (.keeperBoot x) s = .next s' ∧ s'.booted = (if ok then some c else none) ∧ s'.flag (rKEEP 0x44) 31 = !ok ∧
          s'.keep = ⟨false, some r, if ok then hSvn (img.getD 0 0) else 0, if ok then s.time else 0, none⟩ ∧
          s'.rd (rKEEP 0x48) = Line.w32 r 0x10 ∧ s'.rd (rKEEP 0x4C) = recMinSvn r ∧
          { s' with regs := s.regs, keep := s.keep, reef := s.reef } = s)) ∧
    (∀ tag : BitVec 13, s.reaches tag pKEEP .keep 0 = true → ∃ u : State, Answers (.restart tag) s u ∧ u.keep = { s.keep with bootDue := true, cmd := none } ∧
      u.booted = none ∧ (∀ key, key / 0x1000 ≠ pKEEP → u.rd key = s.rd key) ∧
      u.fld (pageAddr pKEEP 0x1C) 16 16 = satAdd (s.fld (pageAddr pKEEP 0x1C) 16 16) 1 ∧
      { u with regs := s.regs, keep := s.keep, mmp := s.mmp } = s) ∧
    (s.flag (rKEEP 0x44) 30 = true → s.powered 20 = true → s.keep.bootDue = false →
      let isOver := s.flag (rLHSE 0x50) 27 || decide (s.num (rKEEP 0x54) 0 16 * 1000000 ≤ (s.time - s.keep.jumpT).toNat)
      (isOver = false → exec .trialTimeout s = .next s) ∧ (isOver = true → exec .trialTimeout s = .next s.keepRestart))

/-- R567, R571: KEEP.MBOX_CMD. While BUSY a command sets PG_ERR bit 16 alone; otherwise it is BUSY, and firmware or the ROM in
recovery serves it. LOAD of a slot that is booted, PENDING or CONFIRMED ends with ERR 1 and of a bad source with ERR 2; ACTIVATE
of a slot that is not VERIFIED, or beside a PENDING one, and CONFIRM outside a trial, end with ERR 10; ERASE of the booted or
the CONFIRMED slot with ERR 1. Each otherwise writes the changed record, to the copy that does not hold the current one, and the
acknowledgement of a last record ends the command. (The model reads the rules as log entries 31, 32 and 40 say.) -/
def Obligations.Mailbox : Prop :=
  ∀ (s : State), s.canonical = true →
    let cmd := rKEEP 0x5C
    (∀ (tag : BitVec 13) (slot : BitVec 1), s.reaches tag pKEEP .keep 0 = true →
      let u := ((s.stored cmd 1 (slot.setWidth 32)).setBit cmd 27 true).setF cmd 20 0#4
      let c := fun (op : BitVec 4) => (⟨op, slot, 0, [], 0, 0, 0⟩ : MboxCmd)
      let on := fun (op : BitVec 4) => { u with keep := { s.keep with cmd := some (c op) } }
      (∀ x ∈ [((.load tag slot : Instr), (1 : BitVec 4)), (.activate tag slot, 2), (.confirm tag slot, 3), (.erase tag slot, 4)],
        (s.flag cmd 27 = true → Answers x.1 s (s.setErr pKEEP 16)) ∧
        (s.flag cmd 27 = false → s.flag (rKEEP 0x44) 28 = false → s.flag (rKEEP 0x44) 31 = false → Answers x.1 s u)) ∧
      (∀ r : Line, s.flag cmd 27 = false → s.flag (rKEEP 0x44) 28 = true → s.keep.record = some r →
        let st := recState r slot
        let n := s.num (rKEEP 0x68) 0 18
        let a := s.addrPair (rKEEP 0x60) 6
        let bad := decide (n < 320 ∨ 196864 < n ∨ n % 64 ≠ 0) || !s.isLocal a || !s.isLocal (a + BitVec.ofNat 57 (n - 1))
        (s.booted = some slot ∨ st = 3 ∨ st = 4 → Answers (.load tag slot) s ((on 1).mboxEnd 1)) ∧
        (s.booted ≠ some slot → st ≠ 3 → st ≠ 4 → bad = true → Answers (.load tag slot) s ((on 1).mboxEnd 2)) ∧
        (s.booted ≠ some slot → st ≠ 3 → st ≠ 4 → bad = false → Answers (.load tag slot) s ((on 1).mboxRecord (c 1) (recSet r slot 1 0) 1)) ∧
        (st = 2 → slotIn r 3 = none → Answers (.activate tag slot) s ((on 2).mboxRecord (c 2) (recSet r slot 3 0) 6)) ∧
        (st ≠ 2 ∨ (slotIn r 3).isSome = true → Answers (.activate tag slot) s ((on 2).mboxEnd 10)) ∧
        (s.booted = some slot ∨ st = 4 → Answers (.erase tag slot) s ((on 4).mboxEnd 1)) ∧
        (s.booted ≠ some slot → st ≠ 4 → Answers (.erase tag slot) s ((on 4).mboxRecord (c 4) (recSet r slot 0 0) 6)) ∧
        (∀ b : BitVec 1, s.booted = some b →
          (recState r b ≠ 3 ∨ s.flag (rKEEP 0x44) 30 = false → Answers (.confirm tag slot) s ((on 3).mboxEnd 10)) ∧
          (recState r b = 3 → s.flag (rKEEP 0x44) 30 = true → slotIn r 4 = none → Answers (.confirm tag slot) s
            ((on 3).mboxRecord { c 3 with slot := b } (Line.put (recSet r b 4 (recTries r b)) 0x14 s.keep.svn) 6)) ∧
          (∀ d : BitVec 1, recState r b = 3 → s.flag (rKEEP 0x44) 30 = true → slotIn r 4 = some d → Answers (.confirm tag slot) s
            (({ u with keep := { s.keep with cmd := some { c 3 with step := 7, slot := b, missing := 1 } } }).read (s.slotAddr d) 1 (.mbox 1)))))) ∧
    (∀ (c : MboxCmd) (r : Line) (step : Nat), (s.mboxRecord c r step).mmp = s.mmp ++
      [s.asksWrite (s.keepStore + BitVec.ofNat 57 (0x1000 * ((recSeq (recNext r)).toNat % 2))) 64 [recNext r] (.mbox 0)]) ∧
    (∀ (u : State) (write : Bool) (mtag : BitVec 8) (gen : BitVec 4) (err : Bool) (lines : List Line) (q : MReq) (off : Nat),
      s.gets (!write) mtag gen u q → q.why = .mbox off → write = true ∨ err = true ∨ lines.length * 64 = q.len →
      (u.keep.cmd = none → exec (.mboxCmdDone write mtag gen err lines) s = .next u) ∧
      (∀ c : MboxCmd, u.keep.cmd = some c → exec (.mboxCmdDone write mtag gen err lines) s = .next (u.mboxStep c err off lines))) ∧
    (∀ (u : State) (mtag : BitVec 8) (gen : BitVec 4) (q : MReq) (off : Nat) (c : MboxCmd), u.canonical = true → s.gets false mtag gen u q → q.why = .mbox off →
      u.keep.cmd = some c → c.step = 6 → u.flag (rKEEP 0x6C) 31 = false →
      (∃ s' : State, exec (.mboxCmdDone true mtag gen false []) s = .next s' ∧ s'.flag cmd 27 = false ∧ s'.fld cmd 20 4 = c.code ∧
        s'.rd (rKEEP 0x48) = Line.w32 c.newRec 0x10 ∧ s'.rd (rKEEP 0x4C) = recMinSvn c.newRec ∧
        s'.flag (rKEEP 0x44) 30 = (u.flag (rKEEP 0x44) 30 && decide (c.op ≠ 3)) ∧
        s'.keep = { u.keep with record := some c.newRec, cmd := none, bootDue := u.keep.bootDue || (decide (c.op = 2) && u.flag (rKEEP 0x44) 31) } ∧
        { s' with regs := u.regs, keep := u.keep } = u) ∧
      exec (.mboxCmdDone true mtag gen true []) s = .next (u.mboxEnd (if c.code = 0 then 4 else c.code)))

/-- R601, R602, R604, R614: a link that leaves Active takes every serving port of its die out of service as not responding,
except while PD28 is unpowered; one that becomes Active has all its credits, and the engine resets of its ports count from then.
A trace record leaves its FIFO in order and is counted. (The model reads the rules as log entry 39 says.) -/
def Obligations.LinksAndTrace : Prop :=
  ∀ (s : State) (link : BitVec 2), s.canonical = true →
    let k := link.toNat
    let set := fun (on : Bool) => { s with cw := { s.cw with links := Tbl.set (fun _ => false) s.cw.links k on } }
    (s.linkOn k = false → exec (.linkDown link) s = .next s) ∧
    (s.linkOn k = true → s.powered 28 = false → exec (.linkDown link) s = .next (set false)) ∧
    (s.linkOn k = true → s.powered 28 = true → exec (.linkDown link) s =
      .next (((List.range s.ecpCount).filter (fun n => decide (s.linkOf (n / 16) = some k) && (s.port n).serves)).foldl (fun t n => t.notResponding n 0x4A) (set false))) ∧
    (s.linkOn k = true ∨ (∀ n, n < s.ecpCount → s.linkOf (n / 16) ≠ some k) → exec (.linkActive link) s = .next s) ∧
    (s.linkOn k = false → (∃ n, n < s.ecpCount ∧ s.linkOf (n / 16) = some k) → ∃ s' : State, exec (.linkActive link) s = .next s' ∧ s'.linkOn k = true ∧
      (∀ j, j ≠ k → s'.linkOn j = s.linkOn j) ∧ s'.cw.credits = s.cw.credits.filter (fun x => decide (s.linkOf x.1 ≠ some k)) ∧
      (∀ n, s'.port n = if n < s.ecpCount ∧ s.linkOf (n / 16) = some k ∧ (s.port n).st = .resetting then { s.port n with reqT := some s.time } else s.port n) ∧
      (s.powered 28 = true → ∀ n, n < s.ecpCount → s.linkOf (n / 16) = some k → (s.port n).st = .resetting →
        controlFlit (.engineReset n) ∈ Tbl.get (fun _ => []) s'.cw.down k) ∧
      { s' with cw := s.cw, ports := s.ports } = s) ∧
    (s.powered 31 = false → exec .traceRecordOut s = .next s) ∧
    (s.trace.fifo = [] → exec .traceRecordOut s = .next s) ∧
    (∀ (r : Dword) (rest : List Dword), s.trace.fifo = r :: rest → s.powered 31 = true → ∃ s' : State, exec .traceRecordOut s = .next s' ∧
      s'.trace = { s.trace with fifo := rest } ∧ s'.rd (pageAddr pDBUG 0x48) = satAdd (s.rd (pageAddr pDBUG 0x48)) 1 ∧ RegsBut s s' [pageAddr pDBUG 0x48] ∧
      { s' with trace := s.trace, regs := s.regs } = s)

/-! ## The whole block -/

/-- R38, R41, R42, R77, R163, R235, R239, R268, R428, R461, R510, R571: each command that is a 32-bit write of a register with its
OP and fields is answered 0, with no error, after the effect that a write of that word has. Where nothing refuses the word and the
register's BUSY bit is clear, that is: the word is stored, and the command of its OP starts; while BUSY is set the write sets the
register's busy error alone. -/
def Obligations.RegisterCommands : Prop :=
  (∀ (s : State) (tag : BitVec 13) (p c : BitVec 4) (ctx : BitVec 16) (id func so12 : BitVec 12) (part fmt : BitVec 6) (b : Bool) (k3 tgt word sev : BitVec 3)
      (src port : BitVec 10) (bits v : Word) (so : BitVec 20) (slot : BitVec 1), s.canonical = true →
    ∀ x ∈ [((.create tag p ctx : Instr), pPART p, PageKind.part, p.toNat, 0x78, opWord 1 (0#12 ++ ctx)),
      (.destroy tag p ctx, pPART p, .part, p.toNat, 0x78, opWord 2 (0#12 ++ ctx)),
      (.flush tag p ctx b, pPART p, .part, p.toNat, 0x78, opWord 3 (0#1 ++ ofBool b ++ 0#10 ++ ctx)),
      (.handleInval tag p ctx, pPART p, .part, p.toNat, 0x78, opWord 4 (0#12 ++ ctx)),
      (.streamEnable tag, pFTCH, .ftch, 0, 0x58, 1), (.streamDisable tag, pFTCH, .ftch, 0, 0x58, 0),
      (.fetchAdd tag, pSYNC, .sync, 0, 0x70, opWord 1 0), (.atomMax tag, pSYNC, .sync, 0, 0x70, opWord 2 0), (.compareSwap tag, pSYNC, .sync, 0, 0x70, opWord 3 0),
      (.mirrorEntryEnable tag b so, pSYNC, .sync, 0, 0x64, ofBool b ++ 0#11 ++ so),
      (.register tag id b, pFERY, .fery, 0, 0x58, opWord 1 (0#1 ++ ofBool b ++ 0#14 ++ id)),
      (.replace tag id b, pFERY, .fery, 0, 0x58, opWord 2 (0#1 ++ ofBool b ++ 0#14 ++ id)),
      (.retire tag id, pFERY, .fery, 0, 0x58, opWord 3 (0#16 ++ id)),
      (.setPin tag id b, pFERY, .fery, 0, 0x58, opWord 4 (0#1 ++ ofBool b ++ 0#14 ++ id)),
      (.resume tag c, pSKRY c, .skry, c.toNat, 0x70, opWord 1 0), (.stepThread tag c, pSKRY c, .skry, c.toNat, 0x70, opWord 2 0),
      (.halt tag c, pSKRY c, .skry, c.toNat, 0x70, opWord 3 0),
      (.imemLoad tag c b part, pSKRY c, .skry, c.toNat, 0x4C, opWord 1 (0#1 ++ ofBool b ++ 0#20 ++ part)),
      (.imemInval tag c b part, pSKRY c, .skry, c.toNat, 0x4C, opWord 2 (0#2 ++ ofBool b ++ 0#19 ++ part)),
      (.scalInit tag so12, pSCAL, .scal, 0, 0x48, so12.setWidth 32), (.scalCfg tag k3 fmt, pSCAL, .scal, 0, 0x44, 0#13 ++ k3 ++ 0#10 ++ fmt),
      (.refresh tag func, pAUDT, .audt, 0, 0x48, opWord 1 (0#16 ++ func)), (.fevFlush tag func, pAUDT, .audt, 0, 0x48, opWord 2 (0#16 ++ func)),
      (.flushAll tag, pAUDT, .audt, 0, 0x48, opWord 3 0),
      (.complete tag tgt src, pBCON, .bcon, 0, 0x60 + 4 * tgt.toNat, src.setWidth 32),
      (.swSet tag word bits, pBCON, .bcon, 0, 0x2C0 + 4 * word.toNat, bits), (.swClear tag word bits, pBCON, .bcon, 0, 0x2E0 + 4 * word.toNat, bits),
      (.arm tag, pAUDT, .audt, 0, 0x200, opWord 1 0), (.go tag, pAUDT, .audt, 0, 0x200, opWord 2 0), (.disarm tag, pAUDT, .audt, 0, 0x200, opWord 3 0),
      (.regProg tag part, pAUDT, .audt, 0, 0x210, opWord 1 (0#22 ++ part)), (.regModel tag part, pAUDT, .audt, 0, 0x210, opWord 2 (0#22 ++ part)),
      (.unregProg tag part, pAUDT, .audt, 0, 0x210, opWord 3 (0#22 ++ part)), (.unregModel tag part, pAUDT, .audt, 0, 0x210, opWord 4 (0#22 ++ part)),
      (.reload tag part, pSHOL, .shol, 0, 0x88, opWord 1 (0#22 ++ part)), (.inject tag sev, pREEF, .reef, 0, 0xD0, opWord 1 (0#25 ++ sev)),
      (.heartbeat tag v, pLHSE, .lhse, 0, 0x44, v),
      (.addPort tag port, pCLKR, .clkr, 0, 0x100, opWord 3 (0#18 ++ port)), (.remove tag port, pCLKR, .clkr, 0, 0x100, opWord 4 (0#18 ++ port)),
      (.readmit tag port, pCLKR, .clkr, 0, 0x100, opWord 5 (0#18 ++ port)), (.engineReset tag port, pCLKR, .clkr, 0, 0x100, opWord 6 (0#18 ++ port)),
      (.drowse tag, pPWRC, .pwrc, 0, 0x40, opWord 1 0), (.off tag, pPWRC, .pwrc, 0, 0x40, opWord 2 0),
      (.restart tag, pKEEP, .keep, 0, 0x40, 1), (.load tag slot, pKEEP, .keep, 0, 0x5C, opWord 1 (0#27 ++ slot)),
      (.activate tag slot, pKEEP, .keep, 0, 0x5C, opWord 2 (0#27 ++ slot)), (.confirm tag slot, pKEEP, .keep, 0, 0x5C, opWord 3 (0#27 ++ slot)),
      (.erase tag slot, pKEEP, .keep, 0, 0x5C, opWord 4 (0#27 ++ slot))],
      let (i, page, k, inst, off, w) := x
      s.reaches tag page k inst = true → Answers i s (s.wordWrite page k inst off w) ∧
        (∀ r : RegSpec, k.spec off = some r → s.refuses k inst off r w none = none → w &&& ~~~(r.writable k off) = 0 → cmdMax k off ≠ 0 →
          let op := (w.extractLsb' 28 4).toNat
          (1 ≤ op ∧ op ≤ cmdMax k off →
            (s.flag (s.regKey page k off) 27 = true → s.wordWrite page k inst off w = s.setErr page (cmdBusyErr k off)) ∧
            (s.flag (s.regKey page k off) 27 = false → s.wordWrite page k inst off w = (s.regStore page k inst off r w).command k inst off op w))))

/-- A step takes the command at the front of the queue and answers what it does to the rest of the state. -/
def Obligations.StepRunsFront : Prop :=
  ∀ (s : State) (c : Instr) (rest : List Instr), s.pending = c :: rest → step s = exec c { s with pending := rest }

/-- With no command waiting a step is one CCLK edge (the model's choice, log entry 5): where CCLK runs, the count of CCLKs, each
launched thread's CYCLE and the CCLK view of device time advance, the flits that were going down the links have gone, a thread
whose stall is over runs on, COUNT of a WAITN advances, and the quiet time is counted; nothing else changes but what Landing still
has to write when the block is otherwise quiet (log entry 55). Where CCLK does not run nothing changes. -/
def Obligations.EmptyQueueTick : Prop :=
  ∀ (s : State), s.canonical = true → s.pending = [] →
    (s.clocked = false → step s = .next s) ∧
    (s.clocked = true → ∃ u : State, step s = .next u.quietTick ∧ u.cclk = s.cclk + 1 ∧ u.view = (if s.viewHeld then s.view else s.view + s.viewInc) ∧
      u.cw = { s.cw with down := [] } ∧
      (∀ c t, (s.thread c t).st = .free → u.thread c t = s.thread c t) ∧
      (∀ c t, let th := s.thread c t
        th.st ≠ .free → (u.thread c t).cycle = th.cycle + 1 ∧
        { u.thread c t with cycle := th.cycle, idle := th.idle, progress := th.progress } = th.unstall ∧
        (th.unstall.st ≠ .waiting → ¬ (th.unstall.st = .running ∧ th.progress.extractLsb' 60 4 = 0xB#4) → (u.thread c t).progress = th.progress) ∧
        (th.unstall.st = .waiting → (u.thread c t).count = min (th.count + 1) (2 ^ 48 - 1)) ∧
        (∀ n, th.st = .stalled → th.stall = .line n → th.unstall.st = if n < th.arrived then .running else .stalled) ∧
        (th.st = .stalled → th.stall = .retry → th.unstall = { th with st := .running, stall := .none }) ∧
        (th.st ≠ .stalled → th.stall ≠ .start → th.unstall = th)) ∧
      { u with cclk := s.cclk, cores := s.cores, view := s.view, cw := s.cw } = s ∧
      (u.landClean = true ∨ s.pwr.mode ≠ .active → u.quietTick.pwr = { s.pwr with quietC := u.quietTick.pwr.quietC, quietT := u.quietTick.pwr.quietT } ∧
        { u.quietTick with pwr := s.pwr } = u))

/-- R48, R50, R67, R70, R141, R434, R474, R510, R538, R555: right after cold reset INIT_DONE is 0, every stream is DISABLED,
every port OFFLINE, every function unbound, every partition DISABLED, Reef is in CLEAR with nothing recorded, device time is 0,
no target holds a source, no launch is held, no thread runs, and nothing is outstanding at memory. (The model reads the rules as
log entries 1 and 34 say.) -/
def Obligations.ResetValues : Prop :=
  let s := State.reset
  s.flag (pageAddr pGLBL 0x70) 0 = false ∧ (∀ n, (s.stream n).st = .disabled) ∧ (∀ n, (s.port n).st = .offline) ∧ (∀ f, s.partOf f = none) ∧
    (∀ p, s.partEn p = false ∧ s.num (rPART p 0x74) 0 3 = 0) ∧ s.inFault = false ∧ s.reef.waiting = [] ∧ (∀ page, s.pageFault page = false) ∧ s.time = 0 ∧
    (∀ j, s.holds j = none) ∧ (∀ k, s.entry k = none) ∧ (∀ c t, (s.thread c t).st = .free) ∧ s.mmp = [] ∧ s.fap = [] ∧ s.pwr.mode = .waking ∧
    (∀ n, (s.obj n).value = 0) ∧ (∀ n, s.scaleE n = ScaleE.reset)

/-- The sparse stores of the reset state are canonical. -/
def Obligations.ResetCanonical : Prop :=
  State.reset.canonical = true

/-- Every step keeps the canonical form of the sparse stores, from every state that has it: equal contents stay equal data. -/
def Obligations.StepKeepsCanonical : Prop :=
  ∀ s s' : State, s.canonical = true → step s = .next s' → s'.canonical = true

/-- No step changes the RTL parameters (R617), and a step takes one command from the queue and puts none into it. -/
def Obligations.StepKeepsQueueAndParameters : Prop :=
  ∀ s s' : State, s.canonical = true → step s = .next s' →
    s'.pending = s.pending.tail ∧ s'.ecpCount = s.ecpCount ∧ s'.cwMap = s.cwMap ∧ s'.keepStore = s.keepStore

/-- No command is refused, and none ends in a fault in any state but one that brings another number of lines than the request it
answers asked for. (The model reads the rules as log entries 2 and 4 say.) -/
def Obligations.NoStops : Prop :=
  ∀ (c : Instr) (s : State),
    (∀ r, exec c s ≠ .refused r) ∧
    (exec c s = .fault .illFormed →
      (∃ mhz, c = .clockMeasure mhz ∧ mhz.length ≠ 12) ∨
      ∃ (ls : List Line) (tag : BitVec 8) (gen : BitVec 4) (q : MReq), (s.answer true tag gen).2 = some q ∧ ls.length * 64 ≠ q.len)

/-- R507, R508, R589: an answer that bears a generation tag of before a reset, and one for work that a reset discarded, is
dropped with no effect but that CLKR.LATE_MMP counts it. -/
def Obligations.LateAnswers : Prop :=
  ∀ (s : State) (mtag : BitVec 8) (gen : BitVec 4) (err : Bool) (ls : List Line), s.powered 2 = true → s.pwr.mode ≠ .idle →
    takeReq s.mmp true mtag gen = none → takeReq s.mmp false mtag gen = none → gen ≠ s.mmpGen →
    let dropped : State := s.bump (pageAddr pCLKR 0x148)
    (∀ i ∈ [(.indexListReturn mtag gen err ls : Instr), .reloadDone mtag gen err ls, .fevReadReturn mtag gen err ls, .harbourRecordArrives mtag gen err ls,
        .handleEntryReturn mtag gen err ls], exec i s = .next dropped) ∧
    (∀ i ∈ [(.mapWriteAck mtag gen err : Instr), .recordWriteAck mtag gen err, .auditWriteAck mtag gen err, .msgWriteAck mtag gen err, .parkWriteAck mtag gen err,
        .dumpDone mtag gen err, .mboxCmdDone true mtag gen err []], exec i s = .next dropped)
end

