-- ==== Sys2Proof/Laws/Table.lean ====
section
/-! SUPPORT. Laws of the sparse tables: what a read gives after a write, and that every operation keeps the canonical form. -/
set_option linter.all false
namespace Sys2Proof.Machine

variable {α : Type} [DecidableEq α] {d : Nat → α}

/-- A canonical table above a key is canonical above every lower bound. -/
theorem Tbl.wfFrom_weaken {lo : Option Nat} {k : Nat} {t : Tbl α} (h : Tbl.wfFrom d (some k) t = true)
    (hk : ∀ l, lo = some l → l ≤ k) : Tbl.wfFrom d lo t = true := by
  cases t with
  | nil => rfl
  | cons x t =>
    obtain ⟨k', v⟩ := x
    simp only [Tbl.wfFrom, Bool.and_eq_true, decide_eq_true_eq] at h ⊢
    refine ⟨⟨?_, h.1.2⟩, h.2⟩
    cases lo with
    | none => rfl
    | some l => have := hk l rfl; simp only [decide_eq_true_eq]; omega

/-- A pair put in at its place keeps the canonical form. -/
theorem Tbl.wfFrom_insert {lo : Option Nat} {t : Tbl α} {k : Nat} {v : α} (h : Tbl.wfFrom d lo t = true)
    (hk : ∀ l, lo = some l → l < k) (hv : v ≠ d k) : Tbl.wfFrom d lo (Tbl.insert t k v) = true := by
  induction t generalizing lo with
  | nil =>
    simp only [Tbl.insert, Tbl.wfFrom, Bool.and_eq_true, decide_eq_true_eq, and_true]
    refine ⟨?_, hv⟩
    cases lo with
    | none => rfl
    | some l => simpa using hk l rfl
  | cons x t ih =>
    obtain ⟨k', v'⟩ := x
    simp only [Tbl.wfFrom, Bool.and_eq_true, decide_eq_true_eq] at h
    simp only [Tbl.insert]
    split
    · simp only [Tbl.wfFrom, Bool.and_eq_true, decide_eq_true_eq]
      refine ⟨⟨?_, hv⟩, ⟨by assumption, h.1.2⟩, h.2⟩
      cases lo with
      | none => rfl
      | some l => simpa using hk l rfl
    · split
      · rename_i hkk
        subst hkk
        simp only [Tbl.wfFrom, Bool.and_eq_true, decide_eq_true_eq]
        refine ⟨⟨?_, hv⟩, h.2⟩
        cases lo with
        | none => rfl
        | some l => simpa using hk l rfl
      · simp only [Tbl.wfFrom, Bool.and_eq_true, decide_eq_true_eq]
        refine ⟨h.1, ih h.2 ?_⟩
        intro l hl
        cases hl
        omega

/-- A filtered canonical table is canonical. -/
theorem Tbl.wfFrom_filter {lo : Option Nat} {t : Tbl α} {p : Nat × α → Bool} (h : Tbl.wfFrom d lo t = true) :
    Tbl.wfFrom d lo (List.filter p t) = true := by
  induction t generalizing lo with
  | nil => rfl
  | cons x t ih =>
    obtain ⟨k', v'⟩ := x
    have h' := h
    simp only [Tbl.wfFrom, Bool.and_eq_true, decide_eq_true_eq] at h'
    simp only [List.filter]
    split
    · simp only [Tbl.wfFrom, Bool.and_eq_true, decide_eq_true_eq]
      exact ⟨h'.1, ih h'.2⟩
    · refine Tbl.wfFrom_weaken (ih h'.2) ?_
      intro l hl
      subst hl
      have := h'.1.1
      simp only [decide_eq_true_eq] at this
      omega

/-- A pair taken out keeps the canonical form. -/
theorem Tbl.wfFrom_erase {lo : Option Nat} {t : Tbl α} {k : Nat} (h : Tbl.wfFrom d lo t = true) :
    Tbl.wfFrom d lo (Tbl.erase t k) = true := by
  induction t generalizing lo with
  | nil => rfl
  | cons x t ih =>
    obtain ⟨k', v'⟩ := x
    have h' := h
    simp only [Tbl.wfFrom, Bool.and_eq_true, decide_eq_true_eq] at h'
    simp only [Tbl.erase]
    split
    · refine Tbl.wfFrom_weaken h'.2 ?_
      intro l hl
      subst hl
      have := h'.1.1
      simp only [decide_eq_true_eq] at this
      omega
    · simp only [Tbl.wfFrom, Bool.and_eq_true, decide_eq_true_eq]
      exact ⟨h'.1, ih h'.2⟩

/-- A write keeps the canonical form. -/
theorem Tbl.wf_set {t : Tbl α} {k : Nat} {v : α} (h : Tbl.wf d t = true) : Tbl.wf d (Tbl.set d t k v) = true := by
  unfold Tbl.set
  split
  · exact Tbl.wfFrom_erase h
  · rename_i hv
    exact Tbl.wfFrom_insert h (by intro l hl; cases hl) hv

/-- A filter keeps the canonical form. -/
theorem Tbl.wf_filter {t : Tbl α} {p : Nat × α → Bool} (h : Tbl.wf d t = true) : Tbl.wf d (List.filter p t) = true :=
  Tbl.wfFrom_filter h

/-- A table with changed values keeps the canonical form. -/
theorem Tbl.wfFrom_mapK {lo : Option Nat} {t : Tbl α} {f : Nat → α → α} (h : Tbl.wfFrom d lo t = true) :
    Tbl.wfFrom d lo (Tbl.mapK d f t) = true := by
  induction t generalizing lo with
  | nil => rfl
  | cons x t ih =>
    obtain ⟨k', v'⟩ := x
    have h' := h
    simp only [Tbl.wfFrom, Bool.and_eq_true, decide_eq_true_eq] at h'
    simp only [Tbl.mapK]
    split
    · refine Tbl.wfFrom_weaken (ih h'.2) ?_
      intro l hl
      subst hl
      have := h'.1.1
      simp only [decide_eq_true_eq] at this
      omega
    · simp only [Tbl.wfFrom, Bool.and_eq_true, decide_eq_true_eq]
      exact ⟨⟨h'.1.1, by assumption⟩, ih h'.2⟩

/-- A table with changed values keeps the canonical form. -/
theorem Tbl.wf_mapK {t : Tbl α} {f : Nat → α → α} (h : Tbl.wf d t = true) : Tbl.wf d (Tbl.mapK d f t) = true :=
  Tbl.wfFrom_mapK h

/-- A table with changed values keeps the canonical form. -/
theorem Tbl.wf_remap {t : Tbl α} {f : α → α} (h : Tbl.wf d t = true) : Tbl.wf d (Tbl.remap d f t) = true :=
  Tbl.wfFrom_mapK h

/-- Nothing is listed below the bound of a canonical table. -/
theorem Tbl.get_below {t : Tbl α} {l k : Nat} (h : Tbl.wfFrom d (some l) t = true) (hk : k ≤ l) : Tbl.get d t k = d k := by
  induction t generalizing l with
  | nil => rfl
  | cons x t ih =>
    obtain ⟨k', v'⟩ := x
    simp only [Tbl.wfFrom, Bool.and_eq_true, decide_eq_true_eq] at h
    have hne : ¬k = k' := by omega
    simp only [Tbl.get, if_neg hne]
    exact ih h.2 (by omega)

omit [DecidableEq α] in
/-- A read after a pair was put in. -/
theorem Tbl.get_insert {t : Tbl α} {k k' : Nat} {v : α} :
    Tbl.get d (Tbl.insert t k v) k' = if k' = k then v else Tbl.get d t k' := by
  induction t with
  | nil => simp only [Tbl.insert, Tbl.get]
  | cons x t ih =>
    obtain ⟨j, w⟩ := x
    simp only [Tbl.insert]
    split
    · simp only [Tbl.get]
    · split
      · rename_i hj
        subst hj
        simp only [Tbl.get]
        split <;> rfl
      · rename_i hj
        simp only [Tbl.get, ih]
        by_cases h1 : k' = j
        · simp [h1]
          intro h2; exact absurd h2.symm hj
        · simp [h1]

/-- A read after a pair was taken out of a canonical table. -/
theorem Tbl.get_erase {lo : Option Nat} {t : Tbl α} {k k' : Nat} (h : Tbl.wfFrom d lo t = true) :
    Tbl.get d (Tbl.erase t k) k' = if k' = k then d k else Tbl.get d t k' := by
  induction t generalizing lo with
  | nil =>
    simp only [Tbl.erase, Tbl.get]
    split
    · rename_i h1; rw [h1]
    · rfl
  | cons x t ih =>
    obtain ⟨j, w⟩ := x
    simp only [Tbl.wfFrom, Bool.and_eq_true, decide_eq_true_eq] at h
    simp only [Tbl.erase]
    split
    · rename_i hj
      subst hj
      by_cases h1 : k' = k
      · subst h1
        simp only [if_true]
        exact Tbl.get_below h.2 (Nat.le_refl _)
      · simp only [Tbl.get, if_neg h1]
    · rename_i hj
      simp only [Tbl.get, ih h.2]
      by_cases h1 : k' = j
      · have : ¬k' = k := by omega
        rw [if_pos h1, if_neg this, if_pos h1]
      · rw [if_neg h1, if_neg h1]

/-- A read gives what was written, and every other key what it gave before. -/
theorem Tbl.get_set {t : Tbl α} {k k' : Nat} {v : α} (h : Tbl.wf d t = true) :
    Tbl.get d (Tbl.set d t k v) k' = if k' = k then v else Tbl.get d t k' := by
  unfold Tbl.set
  split
  · rename_i hv
    rw [Tbl.get_erase h, hv]
  · exact Tbl.get_insert

end Sys2Proof.Machine
end

