-- ==== Sys2Proof/Laws/State.lean ====
section
/-! SUPPORT. The fields of a state after each of the basic updates: one lemma per field and update, so that no proof unfolds a
record update; and what a read gives after a write of the same store. -/
set_option linter.all false
namespace Sys2Proof.Machine

variable (s : State)

/-! ## wr -/

@[simp] theorem State.wr_pending (key : Nat) (v : Word) : (s.wr key v).pending = s.pending := rfl
@[simp] theorem State.wr_freeCtr (key : Nat) (v : Word) : (s.wr key v).freeCtr = s.freeCtr := rfl
@[simp] theorem State.wr_cclk (key : Nat) (v : Word) : (s.wr key v).cclk = s.cclk := rfl
@[simp] theorem State.wr_ecpCount (key : Nat) (v : Word) : (s.wr key v).ecpCount = s.ecpCount := rfl
@[simp] theorem State.wr_cwMap (key : Nat) (v : Word) : (s.wr key v).cwMap = s.cwMap := rfl
@[simp] theorem State.wr_keepStore (key : Nat) (v : Word) : (s.wr key v).keepStore = s.keepStore := rfl
@[simp] theorem State.wr_rdp (key : Nat) (v : Word) : (s.wr key v).rdp = s.rdp := rfl
@[simp] theorem State.wr_fpmA (key : Nat) (v : Word) : (s.wr key v).fpmA = s.fpmA := rfl
@[simp] theorem State.wr_fpmB (key : Nat) (v : Word) : (s.wr key v).fpmB = s.fpmB := rfl
@[simp] theorem State.wr_pmapA (key : Nat) (v : Word) : (s.wr key v).pmapA = s.pmapA := rfl
@[simp] theorem State.wr_pmapB (key : Nat) (v : Word) : (s.wr key v).pmapB = s.pmapB := rfl
@[simp] theorem State.wr_streams (key : Nat) (v : Word) : (s.wr key v).streams = s.streams := rfl
@[simp] theorem State.wr_entries (key : Nat) (v : Word) : (s.wr key v).entries = s.entries := rfl
@[simp] theorem State.wr_fetch (key : Nat) (v : Word) : (s.wr key v).fetch = s.fetch := rfl
@[simp] theorem State.wr_ferry (key : Nat) (v : Word) : (s.wr key v).ferry = s.ferry := rfl
@[simp] theorem State.wr_harb (key : Nat) (v : Word) : (s.wr key v).harb = s.harb := rfl
@[simp] theorem State.wr_cores (key : Nat) (v : Word) : (s.wr key v).cores = s.cores := rfl
@[simp] theorem State.wr_disp (key : Nat) (v : Word) : (s.wr key v).disp = s.disp := rfl
@[simp] theorem State.wr_ports (key : Nat) (v : Word) : (s.wr key v).ports = s.ports := rfl
@[simp] theorem State.wr_scales (key : Nat) (v : Word) : (s.wr key v).scales = s.scales := rfl
@[simp] theorem State.wr_lhse (key : Nat) (v : Word) : (s.wr key v).lhse = s.lhse := rfl
@[simp] theorem State.wr_trace (key : Nat) (v : Word) : (s.wr key v).trace = s.trace := rfl
@[simp] theorem State.wr_progT (key : Nat) (v : Word) : (s.wr key v).progT = s.progT := rfl
@[simp] theorem State.wr_sync (key : Nat) (v : Word) : (s.wr key v).sync = s.sync := rfl
@[simp] theorem State.wr_land (key : Nat) (v : Word) : (s.wr key v).land = s.land := rfl
@[simp] theorem State.wr_shoal (key : Nat) (v : Word) : (s.wr key v).shoal = s.shoal := rfl
@[simp] theorem State.wr_aud (key : Nat) (v : Word) : (s.wr key v).aud = s.aud := rfl
@[simp] theorem State.wr_reef (key : Nat) (v : Word) : (s.wr key v).reef = s.reef := rfl
@[simp] theorem State.wr_mmp (key : Nat) (v : Word) : (s.wr key v).mmp = s.mmp := rfl
@[simp] theorem State.wr_fap (key : Nat) (v : Word) : (s.wr key v).fap = s.fap := rfl
@[simp] theorem State.wr_mmpGen (key : Nat) (v : Word) : (s.wr key v).mmpGen = s.mmpGen := rfl
@[simp] theorem State.wr_fapGen (key : Nat) (v : Word) : (s.wr key v).fapGen = s.fapGen := rfl
@[simp] theorem State.wr_rst (key : Nat) (v : Word) : (s.wr key v).rst = s.rst := rfl
@[simp] theorem State.wr_time (key : Nat) (v : Word) : (s.wr key v).time = s.time := rfl
@[simp] theorem State.wr_tsync (key : Nat) (v : Word) : (s.wr key v).tsync = s.tsync := rfl
@[simp] theorem State.wr_view (key : Nat) (v : Word) : (s.wr key v).view = s.view := rfl
@[simp] theorem State.wr_viewHeld (key : Nat) (v : Word) : (s.wr key v).viewHeld = s.viewHeld := rfl
@[simp] theorem State.wr_pwr (key : Nat) (v : Word) : (s.wr key v).pwr = s.pwr := rfl
@[simp] theorem State.wr_bcon (key : Nat) (v : Word) : (s.wr key v).bcon = s.bcon := rfl
@[simp] theorem State.wr_cw (key : Nat) (v : Word) : (s.wr key v).cw = s.cw := rfl
@[simp] theorem State.wr_keep (key : Nat) (v : Word) : (s.wr key v).keep = s.keep := rfl
@[simp] theorem State.wr_test (key : Nat) (v : Word) : (s.wr key v).test = s.test := rfl

/-! ## setF -/

@[simp] theorem State.setF_pending {w : Nat} (key lo : Nat) (v : BitVec w) : (s.setF key lo v).pending = s.pending := rfl
@[simp] theorem State.setF_freeCtr {w : Nat} (key lo : Nat) (v : BitVec w) : (s.setF key lo v).freeCtr = s.freeCtr := rfl
@[simp] theorem State.setF_cclk {w : Nat} (key lo : Nat) (v : BitVec w) : (s.setF key lo v).cclk = s.cclk := rfl
@[simp] theorem State.setF_ecpCount {w : Nat} (key lo : Nat) (v : BitVec w) : (s.setF key lo v).ecpCount = s.ecpCount := rfl
@[simp] theorem State.setF_cwMap {w : Nat} (key lo : Nat) (v : BitVec w) : (s.setF key lo v).cwMap = s.cwMap := rfl
@[simp] theorem State.setF_keepStore {w : Nat} (key lo : Nat) (v : BitVec w) : (s.setF key lo v).keepStore = s.keepStore := rfl
@[simp] theorem State.setF_rdp {w : Nat} (key lo : Nat) (v : BitVec w) : (s.setF key lo v).rdp = s.rdp := rfl
@[simp] theorem State.setF_fpmA {w : Nat} (key lo : Nat) (v : BitVec w) : (s.setF key lo v).fpmA = s.fpmA := rfl
@[simp] theorem State.setF_fpmB {w : Nat} (key lo : Nat) (v : BitVec w) : (s.setF key lo v).fpmB = s.fpmB := rfl
@[simp] theorem State.setF_pmapA {w : Nat} (key lo : Nat) (v : BitVec w) : (s.setF key lo v).pmapA = s.pmapA := rfl
@[simp] theorem State.setF_pmapB {w : Nat} (key lo : Nat) (v : BitVec w) : (s.setF key lo v).pmapB = s.pmapB := rfl
@[simp] theorem State.setF_streams {w : Nat} (key lo : Nat) (v : BitVec w) : (s.setF key lo v).streams = s.streams := rfl
@[simp] theorem State.setF_entries {w : Nat} (key lo : Nat) (v : BitVec w) : (s.setF key lo v).entries = s.entries := rfl
@[simp] theorem State.setF_fetch {w : Nat} (key lo : Nat) (v : BitVec w) : (s.setF key lo v).fetch = s.fetch := rfl
@[simp] theorem State.setF_ferry {w : Nat} (key lo : Nat) (v : BitVec w) : (s.setF key lo v).ferry = s.ferry := rfl
@[simp] theorem State.setF_harb {w : Nat} (key lo : Nat) (v : BitVec w) : (s.setF key lo v).harb = s.harb := rfl
@[simp] theorem State.setF_cores {w : Nat} (key lo : Nat) (v : BitVec w) : (s.setF key lo v).cores = s.cores := rfl
@[simp] theorem State.setF_disp {w : Nat} (key lo : Nat) (v : BitVec w) : (s.setF key lo v).disp = s.disp := rfl
@[simp] theorem State.setF_ports {w : Nat} (key lo : Nat) (v : BitVec w) : (s.setF key lo v).ports = s.ports := rfl
@[simp] theorem State.setF_scales {w : Nat} (key lo : Nat) (v : BitVec w) : (s.setF key lo v).scales = s.scales := rfl
@[simp] theorem State.setF_lhse {w : Nat} (key lo : Nat) (v : BitVec w) : (s.setF key lo v).lhse = s.lhse := rfl
@[simp] theorem State.setF_trace {w : Nat} (key lo : Nat) (v : BitVec w) : (s.setF key lo v).trace = s.trace := rfl
@[simp] theorem State.setF_progT {w : Nat} (key lo : Nat) (v : BitVec w) : (s.setF key lo v).progT = s.progT := rfl
@[simp] theorem State.setF_sync {w : Nat} (key lo : Nat) (v : BitVec w) : (s.setF key lo v).sync = s.sync := rfl
@[simp] theorem State.setF_land {w : Nat} (key lo : Nat) (v : BitVec w) : (s.setF key lo v).land = s.land := rfl
@[simp] theorem State.setF_shoal {w : Nat} (key lo : Nat) (v : BitVec w) : (s.setF key lo v).shoal = s.shoal := rfl
@[simp] theorem State.setF_aud {w : Nat} (key lo : Nat) (v : BitVec w) : (s.setF key lo v).aud = s.aud := rfl
@[simp] theorem State.setF_reef {w : Nat} (key lo : Nat) (v : BitVec w) : (s.setF key lo v).reef = s.reef := rfl
@[simp] theorem State.setF_mmp {w : Nat} (key lo : Nat) (v : BitVec w) : (s.setF key lo v).mmp = s.mmp := rfl
@[simp] theorem State.setF_fap {w : Nat} (key lo : Nat) (v : BitVec w) : (s.setF key lo v).fap = s.fap := rfl
@[simp] theorem State.setF_mmpGen {w : Nat} (key lo : Nat) (v : BitVec w) : (s.setF key lo v).mmpGen = s.mmpGen := rfl
@[simp] theorem State.setF_fapGen {w : Nat} (key lo : Nat) (v : BitVec w) : (s.setF key lo v).fapGen = s.fapGen := rfl
@[simp] theorem State.setF_rst {w : Nat} (key lo : Nat) (v : BitVec w) : (s.setF key lo v).rst = s.rst := rfl
@[simp] theorem State.setF_time {w : Nat} (key lo : Nat) (v : BitVec w) : (s.setF key lo v).time = s.time := rfl
@[simp] theorem State.setF_tsync {w : Nat} (key lo : Nat) (v : BitVec w) : (s.setF key lo v).tsync = s.tsync := rfl
@[simp] theorem State.setF_view {w : Nat} (key lo : Nat) (v : BitVec w) : (s.setF key lo v).view = s.view := rfl
@[simp] theorem State.setF_viewHeld {w : Nat} (key lo : Nat) (v : BitVec w) : (s.setF key lo v).viewHeld = s.viewHeld := rfl
@[simp] theorem State.setF_pwr {w : Nat} (key lo : Nat) (v : BitVec w) : (s.setF key lo v).pwr = s.pwr := rfl
@[simp] theorem State.setF_bcon {w : Nat} (key lo : Nat) (v : BitVec w) : (s.setF key lo v).bcon = s.bcon := rfl
@[simp] theorem State.setF_cw {w : Nat} (key lo : Nat) (v : BitVec w) : (s.setF key lo v).cw = s.cw := rfl
@[simp] theorem State.setF_keep {w : Nat} (key lo : Nat) (v : BitVec w) : (s.setF key lo v).keep = s.keep := rfl
@[simp] theorem State.setF_test {w : Nat} (key lo : Nat) (v : BitVec w) : (s.setF key lo v).test = s.test := rfl

/-! ## setBit -/

@[simp] theorem State.setBit_pending (key i : Nat) (b : Bool) : (s.setBit key i b).pending = s.pending := rfl
@[simp] theorem State.setBit_freeCtr (key i : Nat) (b : Bool) : (s.setBit key i b).freeCtr = s.freeCtr := rfl
@[simp] theorem State.setBit_cclk (key i : Nat) (b : Bool) : (s.setBit key i b).cclk = s.cclk := rfl
@[simp] theorem State.setBit_ecpCount (key i : Nat) (b : Bool) : (s.setBit key i b).ecpCount = s.ecpCount := rfl
@[simp] theorem State.setBit_cwMap (key i : Nat) (b : Bool) : (s.setBit key i b).cwMap = s.cwMap := rfl
@[simp] theorem State.setBit_keepStore (key i : Nat) (b : Bool) : (s.setBit key i b).keepStore = s.keepStore := rfl
@[simp] theorem State.setBit_rdp (key i : Nat) (b : Bool) : (s.setBit key i b).rdp = s.rdp := rfl
@[simp] theorem State.setBit_fpmA (key i : Nat) (b : Bool) : (s.setBit key i b).fpmA = s.fpmA := rfl
@[simp] theorem State.setBit_fpmB (key i : Nat) (b : Bool) : (s.setBit key i b).fpmB = s.fpmB := rfl
@[simp] theorem State.setBit_pmapA (key i : Nat) (b : Bool) : (s.setBit key i b).pmapA = s.pmapA := rfl
@[simp] theorem State.setBit_pmapB (key i : Nat) (b : Bool) : (s.setBit key i b).pmapB = s.pmapB := rfl
@[simp] theorem State.setBit_streams (key i : Nat) (b : Bool) : (s.setBit key i b).streams = s.streams := rfl
@[simp] theorem State.setBit_entries (key i : Nat) (b : Bool) : (s.setBit key i b).entries = s.entries := rfl
@[simp] theorem State.setBit_fetch (key i : Nat) (b : Bool) : (s.setBit key i b).fetch = s.fetch := rfl
@[simp] theorem State.setBit_ferry (key i : Nat) (b : Bool) : (s.setBit key i b).ferry = s.ferry := rfl
@[simp] theorem State.setBit_harb (key i : Nat) (b : Bool) : (s.setBit key i b).harb = s.harb := rfl
@[simp] theorem State.setBit_cores (key i : Nat) (b : Bool) : (s.setBit key i b).cores = s.cores := rfl
@[simp] theorem State.setBit_disp (key i : Nat) (b : Bool) : (s.setBit key i b).disp = s.disp := rfl
@[simp] theorem State.setBit_ports (key i : Nat) (b : Bool) : (s.setBit key i b).ports = s.ports := rfl
@[simp] theorem State.setBit_scales (key i : Nat) (b : Bool) : (s.setBit key i b).scales = s.scales := rfl
@[simp] theorem State.setBit_lhse (key i : Nat) (b : Bool) : (s.setBit key i b).lhse = s.lhse := rfl
@[simp] theorem State.setBit_trace (key i : Nat) (b : Bool) : (s.setBit key i b).trace = s.trace := rfl
@[simp] theorem State.setBit_progT (key i : Nat) (b : Bool) : (s.setBit key i b).progT = s.progT := rfl
@[simp] theorem State.setBit_sync (key i : Nat) (b : Bool) : (s.setBit key i b).sync = s.sync := rfl
@[simp] theorem State.setBit_land (key i : Nat) (b : Bool) : (s.setBit key i b).land = s.land := rfl
@[simp] theorem State.setBit_shoal (key i : Nat) (b : Bool) : (s.setBit key i b).shoal = s.shoal := rfl
@[simp] theorem State.setBit_aud (key i : Nat) (b : Bool) : (s.setBit key i b).aud = s.aud := rfl
@[simp] theorem State.setBit_reef (key i : Nat) (b : Bool) : (s.setBit key i b).reef = s.reef := rfl
@[simp] theorem State.setBit_mmp (key i : Nat) (b : Bool) : (s.setBit key i b).mmp = s.mmp := rfl
@[simp] theorem State.setBit_fap (key i : Nat) (b : Bool) : (s.setBit key i b).fap = s.fap := rfl
@[simp] theorem State.setBit_mmpGen (key i : Nat) (b : Bool) : (s.setBit key i b).mmpGen = s.mmpGen := rfl
@[simp] theorem State.setBit_fapGen (key i : Nat) (b : Bool) : (s.setBit key i b).fapGen = s.fapGen := rfl
@[simp] theorem State.setBit_rst (key i : Nat) (b : Bool) : (s.setBit key i b).rst = s.rst := rfl
@[simp] theorem State.setBit_time (key i : Nat) (b : Bool) : (s.setBit key i b).time = s.time := rfl
@[simp] theorem State.setBit_tsync (key i : Nat) (b : Bool) : (s.setBit key i b).tsync = s.tsync := rfl
@[simp] theorem State.setBit_view (key i : Nat) (b : Bool) : (s.setBit key i b).view = s.view := rfl
@[simp] theorem State.setBit_viewHeld (key i : Nat) (b : Bool) : (s.setBit key i b).viewHeld = s.viewHeld := rfl
@[simp] theorem State.setBit_pwr (key i : Nat) (b : Bool) : (s.setBit key i b).pwr = s.pwr := rfl
@[simp] theorem State.setBit_bcon (key i : Nat) (b : Bool) : (s.setBit key i b).bcon = s.bcon := rfl
@[simp] theorem State.setBit_cw (key i : Nat) (b : Bool) : (s.setBit key i b).cw = s.cw := rfl
@[simp] theorem State.setBit_keep (key i : Nat) (b : Bool) : (s.setBit key i b).keep = s.keep := rfl
@[simp] theorem State.setBit_test (key i : Nat) (b : Bool) : (s.setBit key i b).test = s.test := rfl

/-! ## setErr -/

@[simp] theorem State.setErr_pending (page i : Nat) : (s.setErr page i).pending = s.pending := rfl
@[simp] theorem State.setErr_freeCtr (page i : Nat) : (s.setErr page i).freeCtr = s.freeCtr := rfl
@[simp] theorem State.setErr_cclk (page i : Nat) : (s.setErr page i).cclk = s.cclk := rfl
@[simp] theorem State.setErr_ecpCount (page i : Nat) : (s.setErr page i).ecpCount = s.ecpCount := rfl
@[simp] theorem State.setErr_cwMap (page i : Nat) : (s.setErr page i).cwMap = s.cwMap := rfl
@[simp] theorem State.setErr_keepStore (page i : Nat) : (s.setErr page i).keepStore = s.keepStore := rfl
@[simp] theorem State.setErr_rdp (page i : Nat) : (s.setErr page i).rdp = s.rdp := rfl
@[simp] theorem State.setErr_fpmA (page i : Nat) : (s.setErr page i).fpmA = s.fpmA := rfl
@[simp] theorem State.setErr_fpmB (page i : Nat) : (s.setErr page i).fpmB = s.fpmB := rfl
@[simp] theorem State.setErr_pmapA (page i : Nat) : (s.setErr page i).pmapA = s.pmapA := rfl
@[simp] theorem State.setErr_pmapB (page i : Nat) : (s.setErr page i).pmapB = s.pmapB := rfl
@[simp] theorem State.setErr_streams (page i : Nat) : (s.setErr page i).streams = s.streams := rfl
@[simp] theorem State.setErr_entries (page i : Nat) : (s.setErr page i).entries = s.entries := rfl
@[simp] theorem State.setErr_fetch (page i : Nat) : (s.setErr page i).fetch = s.fetch := rfl
@[simp] theorem State.setErr_ferry (page i : Nat) : (s.setErr page i).ferry = s.ferry := rfl
@[simp] theorem State.setErr_harb (page i : Nat) : (s.setErr page i).harb = s.harb := rfl
@[simp] theorem State.setErr_cores (page i : Nat) : (s.setErr page i).cores = s.cores := rfl
@[simp] theorem State.setErr_disp (page i : Nat) : (s.setErr page i).disp = s.disp := rfl
@[simp] theorem State.setErr_ports (page i : Nat) : (s.setErr page i).ports = s.ports := rfl
@[simp] theorem State.setErr_scales (page i : Nat) : (s.setErr page i).scales = s.scales := rfl
@[simp] theorem State.setErr_lhse (page i : Nat) : (s.setErr page i).lhse = s.lhse := rfl
@[simp] theorem State.setErr_trace (page i : Nat) : (s.setErr page i).trace = s.trace := rfl
@[simp] theorem State.setErr_progT (page i : Nat) : (s.setErr page i).progT = s.progT := rfl
@[simp] theorem State.setErr_sync (page i : Nat) : (s.setErr page i).sync = s.sync := rfl
@[simp] theorem State.setErr_land (page i : Nat) : (s.setErr page i).land = s.land := rfl
@[simp] theorem State.setErr_shoal (page i : Nat) : (s.setErr page i).shoal = s.shoal := rfl
@[simp] theorem State.setErr_aud (page i : Nat) : (s.setErr page i).aud = s.aud := rfl
@[simp] theorem State.setErr_reef (page i : Nat) : (s.setErr page i).reef = s.reef := rfl
@[simp] theorem State.setErr_mmp (page i : Nat) : (s.setErr page i).mmp = s.mmp := rfl
@[simp] theorem State.setErr_fap (page i : Nat) : (s.setErr page i).fap = s.fap := rfl
@[simp] theorem State.setErr_mmpGen (page i : Nat) : (s.setErr page i).mmpGen = s.mmpGen := rfl
@[simp] theorem State.setErr_fapGen (page i : Nat) : (s.setErr page i).fapGen = s.fapGen := rfl
@[simp] theorem State.setErr_rst (page i : Nat) : (s.setErr page i).rst = s.rst := rfl
@[simp] theorem State.setErr_time (page i : Nat) : (s.setErr page i).time = s.time := rfl
@[simp] theorem State.setErr_tsync (page i : Nat) : (s.setErr page i).tsync = s.tsync := rfl
@[simp] theorem State.setErr_view (page i : Nat) : (s.setErr page i).view = s.view := rfl
@[simp] theorem State.setErr_viewHeld (page i : Nat) : (s.setErr page i).viewHeld = s.viewHeld := rfl
@[simp] theorem State.setErr_pwr (page i : Nat) : (s.setErr page i).pwr = s.pwr := rfl
@[simp] theorem State.setErr_bcon (page i : Nat) : (s.setErr page i).bcon = s.bcon := rfl
@[simp] theorem State.setErr_cw (page i : Nat) : (s.setErr page i).cw = s.cw := rfl
@[simp] theorem State.setErr_keep (page i : Nat) : (s.setErr page i).keep = s.keep := rfl
@[simp] theorem State.setErr_test (page i : Nat) : (s.setErr page i).test = s.test := rfl

/-! ## bump -/

@[simp] theorem State.bump_pending (key n : Nat) : (s.bump key n).pending = s.pending := rfl
@[simp] theorem State.bump_freeCtr (key n : Nat) : (s.bump key n).freeCtr = s.freeCtr := rfl
@[simp] theorem State.bump_cclk (key n : Nat) : (s.bump key n).cclk = s.cclk := rfl
@[simp] theorem State.bump_ecpCount (key n : Nat) : (s.bump key n).ecpCount = s.ecpCount := rfl
@[simp] theorem State.bump_cwMap (key n : Nat) : (s.bump key n).cwMap = s.cwMap := rfl
@[simp] theorem State.bump_keepStore (key n : Nat) : (s.bump key n).keepStore = s.keepStore := rfl
@[simp] theorem State.bump_rdp (key n : Nat) : (s.bump key n).rdp = s.rdp := rfl
@[simp] theorem State.bump_fpmA (key n : Nat) : (s.bump key n).fpmA = s.fpmA := rfl
@[simp] theorem State.bump_fpmB (key n : Nat) : (s.bump key n).fpmB = s.fpmB := rfl
@[simp] theorem State.bump_pmapA (key n : Nat) : (s.bump key n).pmapA = s.pmapA := rfl
@[simp] theorem State.bump_pmapB (key n : Nat) : (s.bump key n).pmapB = s.pmapB := rfl
@[simp] theorem State.bump_streams (key n : Nat) : (s.bump key n).streams = s.streams := rfl
@[simp] theorem State.bump_entries (key n : Nat) : (s.bump key n).entries = s.entries := rfl
@[simp] theorem State.bump_fetch (key n : Nat) : (s.bump key n).fetch = s.fetch := rfl
@[simp] theorem State.bump_ferry (key n : Nat) : (s.bump key n).ferry = s.ferry := rfl
@[simp] theorem State.bump_harb (key n : Nat) : (s.bump key n).harb = s.harb := rfl
@[simp] theorem State.bump_cores (key n : Nat) : (s.bump key n).cores = s.cores := rfl
@[simp] theorem State.bump_disp (key n : Nat) : (s.bump key n).disp = s.disp := rfl
@[simp] theorem State.bump_ports (key n : Nat) : (s.bump key n).ports = s.ports := rfl
@[simp] theorem State.bump_scales (key n : Nat) : (s.bump key n).scales = s.scales := rfl
@[simp] theorem State.bump_lhse (key n : Nat) : (s.bump key n).lhse = s.lhse := rfl
@[simp] theorem State.bump_trace (key n : Nat) : (s.bump key n).trace = s.trace := rfl
@[simp] theorem State.bump_progT (key n : Nat) : (s.bump key n).progT = s.progT := rfl
@[simp] theorem State.bump_sync (key n : Nat) : (s.bump key n).sync = s.sync := rfl
@[simp] theorem State.bump_land (key n : Nat) : (s.bump key n).land = s.land := rfl
@[simp] theorem State.bump_shoal (key n : Nat) : (s.bump key n).shoal = s.shoal := rfl
@[simp] theorem State.bump_aud (key n : Nat) : (s.bump key n).aud = s.aud := rfl
@[simp] theorem State.bump_reef (key n : Nat) : (s.bump key n).reef = s.reef := rfl
@[simp] theorem State.bump_mmp (key n : Nat) : (s.bump key n).mmp = s.mmp := rfl
@[simp] theorem State.bump_fap (key n : Nat) : (s.bump key n).fap = s.fap := rfl
@[simp] theorem State.bump_mmpGen (key n : Nat) : (s.bump key n).mmpGen = s.mmpGen := rfl
@[simp] theorem State.bump_fapGen (key n : Nat) : (s.bump key n).fapGen = s.fapGen := rfl
@[simp] theorem State.bump_rst (key n : Nat) : (s.bump key n).rst = s.rst := rfl
@[simp] theorem State.bump_time (key n : Nat) : (s.bump key n).time = s.time := rfl
@[simp] theorem State.bump_tsync (key n : Nat) : (s.bump key n).tsync = s.tsync := rfl
@[simp] theorem State.bump_view (key n : Nat) : (s.bump key n).view = s.view := rfl
@[simp] theorem State.bump_viewHeld (key n : Nat) : (s.bump key n).viewHeld = s.viewHeld := rfl
@[simp] theorem State.bump_pwr (key n : Nat) : (s.bump key n).pwr = s.pwr := rfl
@[simp] theorem State.bump_bcon (key n : Nat) : (s.bump key n).bcon = s.bcon := rfl
@[simp] theorem State.bump_cw (key n : Nat) : (s.bump key n).cw = s.cw := rfl
@[simp] theorem State.bump_keep (key n : Nat) : (s.bump key n).keep = s.keep := rfl
@[simp] theorem State.bump_test (key n : Nat) : (s.bump key n).test = s.test := rfl

/-! ## bumpF -/

@[simp] theorem State.bumpF_pending (key lo w : Nat) : (s.bumpF key lo w).pending = s.pending := rfl
@[simp] theorem State.bumpF_freeCtr (key lo w : Nat) : (s.bumpF key lo w).freeCtr = s.freeCtr := rfl
@[simp] theorem State.bumpF_cclk (key lo w : Nat) : (s.bumpF key lo w).cclk = s.cclk := rfl
@[simp] theorem State.bumpF_ecpCount (key lo w : Nat) : (s.bumpF key lo w).ecpCount = s.ecpCount := rfl
@[simp] theorem State.bumpF_cwMap (key lo w : Nat) : (s.bumpF key lo w).cwMap = s.cwMap := rfl
@[simp] theorem State.bumpF_keepStore (key lo w : Nat) : (s.bumpF key lo w).keepStore = s.keepStore := rfl
@[simp] theorem State.bumpF_rdp (key lo w : Nat) : (s.bumpF key lo w).rdp = s.rdp := rfl
@[simp] theorem State.bumpF_fpmA (key lo w : Nat) : (s.bumpF key lo w).fpmA = s.fpmA := rfl
@[simp] theorem State.bumpF_fpmB (key lo w : Nat) : (s.bumpF key lo w).fpmB = s.fpmB := rfl
@[simp] theorem State.bumpF_pmapA (key lo w : Nat) : (s.bumpF key lo w).pmapA = s.pmapA := rfl
@[simp] theorem State.bumpF_pmapB (key lo w : Nat) : (s.bumpF key lo w).pmapB = s.pmapB := rfl
@[simp] theorem State.bumpF_streams (key lo w : Nat) : (s.bumpF key lo w).streams = s.streams := rfl
@[simp] theorem State.bumpF_entries (key lo w : Nat) : (s.bumpF key lo w).entries = s.entries := rfl
@[simp] theorem State.bumpF_fetch (key lo w : Nat) : (s.bumpF key lo w).fetch = s.fetch := rfl
@[simp] theorem State.bumpF_ferry (key lo w : Nat) : (s.bumpF key lo w).ferry = s.ferry := rfl
@[simp] theorem State.bumpF_harb (key lo w : Nat) : (s.bumpF key lo w).harb = s.harb := rfl
@[simp] theorem State.bumpF_cores (key lo w : Nat) : (s.bumpF key lo w).cores = s.cores := rfl
@[simp] theorem State.bumpF_disp (key lo w : Nat) : (s.bumpF key lo w).disp = s.disp := rfl
@[simp] theorem State.bumpF_ports (key lo w : Nat) : (s.bumpF key lo w).ports = s.ports := rfl
@[simp] theorem State.bumpF_scales (key lo w : Nat) : (s.bumpF key lo w).scales = s.scales := rfl
@[simp] theorem State.bumpF_lhse (key lo w : Nat) : (s.bumpF key lo w).lhse = s.lhse := rfl
@[simp] theorem State.bumpF_trace (key lo w : Nat) : (s.bumpF key lo w).trace = s.trace := rfl
@[simp] theorem State.bumpF_progT (key lo w : Nat) : (s.bumpF key lo w).progT = s.progT := rfl
@[simp] theorem State.bumpF_sync (key lo w : Nat) : (s.bumpF key lo w).sync = s.sync := rfl
@[simp] theorem State.bumpF_land (key lo w : Nat) : (s.bumpF key lo w).land = s.land := rfl
@[simp] theorem State.bumpF_shoal (key lo w : Nat) : (s.bumpF key lo w).shoal = s.shoal := rfl
@[simp] theorem State.bumpF_aud (key lo w : Nat) : (s.bumpF key lo w).aud = s.aud := rfl
@[simp] theorem State.bumpF_reef (key lo w : Nat) : (s.bumpF key lo w).reef = s.reef := rfl
@[simp] theorem State.bumpF_mmp (key lo w : Nat) : (s.bumpF key lo w).mmp = s.mmp := rfl
@[simp] theorem State.bumpF_fap (key lo w : Nat) : (s.bumpF key lo w).fap = s.fap := rfl
@[simp] theorem State.bumpF_mmpGen (key lo w : Nat) : (s.bumpF key lo w).mmpGen = s.mmpGen := rfl
@[simp] theorem State.bumpF_fapGen (key lo w : Nat) : (s.bumpF key lo w).fapGen = s.fapGen := rfl
@[simp] theorem State.bumpF_rst (key lo w : Nat) : (s.bumpF key lo w).rst = s.rst := rfl
@[simp] theorem State.bumpF_time (key lo w : Nat) : (s.bumpF key lo w).time = s.time := rfl
@[simp] theorem State.bumpF_tsync (key lo w : Nat) : (s.bumpF key lo w).tsync = s.tsync := rfl
@[simp] theorem State.bumpF_view (key lo w : Nat) : (s.bumpF key lo w).view = s.view := rfl
@[simp] theorem State.bumpF_viewHeld (key lo w : Nat) : (s.bumpF key lo w).viewHeld = s.viewHeld := rfl
@[simp] theorem State.bumpF_pwr (key lo w : Nat) : (s.bumpF key lo w).pwr = s.pwr := rfl
@[simp] theorem State.bumpF_bcon (key lo w : Nat) : (s.bumpF key lo w).bcon = s.bcon := rfl
@[simp] theorem State.bumpF_cw (key lo w : Nat) : (s.bumpF key lo w).cw = s.cw := rfl
@[simp] theorem State.bumpF_keep (key lo w : Nat) : (s.bumpF key lo w).keep = s.keep := rfl
@[simp] theorem State.bumpF_test (key lo w : Nat) : (s.bumpF key lo w).test = s.test := rfl

/-! ## wr64 -/

@[simp] theorem State.wr64_pending (key : Nat) (v : Dword) : (s.wr64 key v).pending = s.pending := rfl
@[simp] theorem State.wr64_freeCtr (key : Nat) (v : Dword) : (s.wr64 key v).freeCtr = s.freeCtr := rfl
@[simp] theorem State.wr64_cclk (key : Nat) (v : Dword) : (s.wr64 key v).cclk = s.cclk := rfl
@[simp] theorem State.wr64_ecpCount (key : Nat) (v : Dword) : (s.wr64 key v).ecpCount = s.ecpCount := rfl
@[simp] theorem State.wr64_cwMap (key : Nat) (v : Dword) : (s.wr64 key v).cwMap = s.cwMap := rfl
@[simp] theorem State.wr64_keepStore (key : Nat) (v : Dword) : (s.wr64 key v).keepStore = s.keepStore := rfl
@[simp] theorem State.wr64_rdp (key : Nat) (v : Dword) : (s.wr64 key v).rdp = s.rdp := rfl
@[simp] theorem State.wr64_fpmA (key : Nat) (v : Dword) : (s.wr64 key v).fpmA = s.fpmA := rfl
@[simp] theorem State.wr64_fpmB (key : Nat) (v : Dword) : (s.wr64 key v).fpmB = s.fpmB := rfl
@[simp] theorem State.wr64_pmapA (key : Nat) (v : Dword) : (s.wr64 key v).pmapA = s.pmapA := rfl
@[simp] theorem State.wr64_pmapB (key : Nat) (v : Dword) : (s.wr64 key v).pmapB = s.pmapB := rfl
@[simp] theorem State.wr64_streams (key : Nat) (v : Dword) : (s.wr64 key v).streams = s.streams := rfl
@[simp] theorem State.wr64_entries (key : Nat) (v : Dword) : (s.wr64 key v).entries = s.entries := rfl
@[simp] theorem State.wr64_fetch (key : Nat) (v : Dword) : (s.wr64 key v).fetch = s.fetch := rfl
@[simp] theorem State.wr64_ferry (key : Nat) (v : Dword) : (s.wr64 key v).ferry = s.ferry := rfl
@[simp] theorem State.wr64_harb (key : Nat) (v : Dword) : (s.wr64 key v).harb = s.harb := rfl
@[simp] theorem State.wr64_cores (key : Nat) (v : Dword) : (s.wr64 key v).cores = s.cores := rfl
@[simp] theorem State.wr64_disp (key : Nat) (v : Dword) : (s.wr64 key v).disp = s.disp := rfl
@[simp] theorem State.wr64_ports (key : Nat) (v : Dword) : (s.wr64 key v).ports = s.ports := rfl
@[simp] theorem State.wr64_scales (key : Nat) (v : Dword) : (s.wr64 key v).scales = s.scales := rfl
@[simp] theorem State.wr64_lhse (key : Nat) (v : Dword) : (s.wr64 key v).lhse = s.lhse := rfl
@[simp] theorem State.wr64_trace (key : Nat) (v : Dword) : (s.wr64 key v).trace = s.trace := rfl
@[simp] theorem State.wr64_progT (key : Nat) (v : Dword) : (s.wr64 key v).progT = s.progT := rfl
@[simp] theorem State.wr64_sync (key : Nat) (v : Dword) : (s.wr64 key v).sync = s.sync := rfl
@[simp] theorem State.wr64_land (key : Nat) (v : Dword) : (s.wr64 key v).land = s.land := rfl
@[simp] theorem State.wr64_shoal (key : Nat) (v : Dword) : (s.wr64 key v).shoal = s.shoal := rfl
@[simp] theorem State.wr64_aud (key : Nat) (v : Dword) : (s.wr64 key v).aud = s.aud := rfl
@[simp] theorem State.wr64_reef (key : Nat) (v : Dword) : (s.wr64 key v).reef = s.reef := rfl
@[simp] theorem State.wr64_mmp (key : Nat) (v : Dword) : (s.wr64 key v).mmp = s.mmp := rfl
@[simp] theorem State.wr64_fap (key : Nat) (v : Dword) : (s.wr64 key v).fap = s.fap := rfl
@[simp] theorem State.wr64_mmpGen (key : Nat) (v : Dword) : (s.wr64 key v).mmpGen = s.mmpGen := rfl
@[simp] theorem State.wr64_fapGen (key : Nat) (v : Dword) : (s.wr64 key v).fapGen = s.fapGen := rfl
@[simp] theorem State.wr64_rst (key : Nat) (v : Dword) : (s.wr64 key v).rst = s.rst := rfl
@[simp] theorem State.wr64_time (key : Nat) (v : Dword) : (s.wr64 key v).time = s.time := rfl
@[simp] theorem State.wr64_tsync (key : Nat) (v : Dword) : (s.wr64 key v).tsync = s.tsync := rfl
@[simp] theorem State.wr64_view (key : Nat) (v : Dword) : (s.wr64 key v).view = s.view := rfl
@[simp] theorem State.wr64_viewHeld (key : Nat) (v : Dword) : (s.wr64 key v).viewHeld = s.viewHeld := rfl
@[simp] theorem State.wr64_pwr (key : Nat) (v : Dword) : (s.wr64 key v).pwr = s.pwr := rfl
@[simp] theorem State.wr64_bcon (key : Nat) (v : Dword) : (s.wr64 key v).bcon = s.bcon := rfl
@[simp] theorem State.wr64_cw (key : Nat) (v : Dword) : (s.wr64 key v).cw = s.cw := rfl
@[simp] theorem State.wr64_keep (key : Nat) (v : Dword) : (s.wr64 key v).keep = s.keep := rfl
@[simp] theorem State.wr64_test (key : Nat) (v : Dword) : (s.wr64 key v).test = s.test := rfl

/-! ## setStream -/

@[simp] theorem State.setStream_pending (n : BitVec 14) (v : StreamE) : (s.setStream n v).pending = s.pending := rfl
@[simp] theorem State.setStream_freeCtr (n : BitVec 14) (v : StreamE) : (s.setStream n v).freeCtr = s.freeCtr := rfl
@[simp] theorem State.setStream_cclk (n : BitVec 14) (v : StreamE) : (s.setStream n v).cclk = s.cclk := rfl
@[simp] theorem State.setStream_ecpCount (n : BitVec 14) (v : StreamE) : (s.setStream n v).ecpCount = s.ecpCount := rfl
@[simp] theorem State.setStream_cwMap (n : BitVec 14) (v : StreamE) : (s.setStream n v).cwMap = s.cwMap := rfl
@[simp] theorem State.setStream_keepStore (n : BitVec 14) (v : StreamE) : (s.setStream n v).keepStore = s.keepStore := rfl
@[simp] theorem State.setStream_regs (n : BitVec 14) (v : StreamE) : (s.setStream n v).regs = s.regs := rfl
@[simp] theorem State.setStream_rdp (n : BitVec 14) (v : StreamE) : (s.setStream n v).rdp = s.rdp := rfl
@[simp] theorem State.setStream_fpmA (n : BitVec 14) (v : StreamE) : (s.setStream n v).fpmA = s.fpmA := rfl
@[simp] theorem State.setStream_fpmB (n : BitVec 14) (v : StreamE) : (s.setStream n v).fpmB = s.fpmB := rfl
@[simp] theorem State.setStream_pmapA (n : BitVec 14) (v : StreamE) : (s.setStream n v).pmapA = s.pmapA := rfl
@[simp] theorem State.setStream_pmapB (n : BitVec 14) (v : StreamE) : (s.setStream n v).pmapB = s.pmapB := rfl
@[simp] theorem State.setStream_entries (n : BitVec 14) (v : StreamE) : (s.setStream n v).entries = s.entries := rfl
@[simp] theorem State.setStream_fetch (n : BitVec 14) (v : StreamE) : (s.setStream n v).fetch = s.fetch := rfl
@[simp] theorem State.setStream_ferry (n : BitVec 14) (v : StreamE) : (s.setStream n v).ferry = s.ferry := rfl
@[simp] theorem State.setStream_harb (n : BitVec 14) (v : StreamE) : (s.setStream n v).harb = s.harb := rfl
@[simp] theorem State.setStream_cores (n : BitVec 14) (v : StreamE) : (s.setStream n v).cores = s.cores := rfl
@[simp] theorem State.setStream_disp (n : BitVec 14) (v : StreamE) : (s.setStream n v).disp = s.disp := rfl
@[simp] theorem State.setStream_ports (n : BitVec 14) (v : StreamE) : (s.setStream n v).ports = s.ports := rfl
@[simp] theorem State.setStream_scales (n : BitVec 14) (v : StreamE) : (s.setStream n v).scales = s.scales := rfl
@[simp] theorem State.setStream_lhse (n : BitVec 14) (v : StreamE) : (s.setStream n v).lhse = s.lhse := rfl
@[simp] theorem State.setStream_trace (n : BitVec 14) (v : StreamE) : (s.setStream n v).trace = s.trace := rfl
@[simp] theorem State.setStream_progT (n : BitVec 14) (v : StreamE) : (s.setStream n v).progT = s.progT := rfl
@[simp] theorem State.setStream_sync (n : BitVec 14) (v : StreamE) : (s.setStream n v).sync = s.sync := rfl
@[simp] theorem State.setStream_land (n : BitVec 14) (v : StreamE) : (s.setStream n v).land = s.land := rfl
@[simp] theorem State.setStream_shoal (n : BitVec 14) (v : StreamE) : (s.setStream n v).shoal = s.shoal := rfl
@[simp] theorem State.setStream_aud (n : BitVec 14) (v : StreamE) : (s.setStream n v).aud = s.aud := rfl
@[simp] theorem State.setStream_reef (n : BitVec 14) (v : StreamE) : (s.setStream n v).reef = s.reef := rfl
@[simp] theorem State.setStream_mmp (n : BitVec 14) (v : StreamE) : (s.setStream n v).mmp = s.mmp := rfl
@[simp] theorem State.setStream_fap (n : BitVec 14) (v : StreamE) : (s.setStream n v).fap = s.fap := rfl
@[simp] theorem State.setStream_mmpGen (n : BitVec 14) (v : StreamE) : (s.setStream n v).mmpGen = s.mmpGen := rfl
@[simp] theorem State.setStream_fapGen (n : BitVec 14) (v : StreamE) : (s.setStream n v).fapGen = s.fapGen := rfl
@[simp] theorem State.setStream_rst (n : BitVec 14) (v : StreamE) : (s.setStream n v).rst = s.rst := rfl
@[simp] theorem State.setStream_time (n : BitVec 14) (v : StreamE) : (s.setStream n v).time = s.time := rfl
@[simp] theorem State.setStream_tsync (n : BitVec 14) (v : StreamE) : (s.setStream n v).tsync = s.tsync := rfl
@[simp] theorem State.setStream_view (n : BitVec 14) (v : StreamE) : (s.setStream n v).view = s.view := rfl
@[simp] theorem State.setStream_viewHeld (n : BitVec 14) (v : StreamE) : (s.setStream n v).viewHeld = s.viewHeld := rfl
@[simp] theorem State.setStream_pwr (n : BitVec 14) (v : StreamE) : (s.setStream n v).pwr = s.pwr := rfl
@[simp] theorem State.setStream_bcon (n : BitVec 14) (v : StreamE) : (s.setStream n v).bcon = s.bcon := rfl
@[simp] theorem State.setStream_cw (n : BitVec 14) (v : StreamE) : (s.setStream n v).cw = s.cw := rfl
@[simp] theorem State.setStream_keep (n : BitVec 14) (v : StreamE) : (s.setStream n v).keep = s.keep := rfl
@[simp] theorem State.setStream_test (n : BitVec 14) (v : StreamE) : (s.setStream n v).test = s.test := rfl

/-! ## updStream -/

@[simp] theorem State.updStream_pending (n : BitVec 14) (f : StreamE → StreamE) : (s.updStream n f).pending = s.pending := rfl
@[simp] theorem State.updStream_freeCtr (n : BitVec 14) (f : StreamE → StreamE) : (s.updStream n f).freeCtr = s.freeCtr := rfl
@[simp] theorem State.updStream_cclk (n : BitVec 14) (f : StreamE → StreamE) : (s.updStream n f).cclk = s.cclk := rfl
@[simp] theorem State.updStream_ecpCount (n : BitVec 14) (f : StreamE → StreamE) : (s.updStream n f).ecpCount = s.ecpCount := rfl
@[simp] theorem State.updStream_cwMap (n : BitVec 14) (f : StreamE → StreamE) : (s.updStream n f).cwMap = s.cwMap := rfl
@[simp] theorem State.updStream_keepStore (n : BitVec 14) (f : StreamE → StreamE) : (s.updStream n f).keepStore = s.keepStore := rfl
@[simp] theorem State.updStream_regs (n : BitVec 14) (f : StreamE → StreamE) : (s.updStream n f).regs = s.regs := rfl
@[simp] theorem State.updStream_rdp (n : BitVec 14) (f : StreamE → StreamE) : (s.updStream n f).rdp = s.rdp := rfl
@[simp] theorem State.updStream_fpmA (n : BitVec 14) (f : StreamE → StreamE) : (s.updStream n f).fpmA = s.fpmA := rfl
@[simp] theorem State.updStream_fpmB (n : BitVec 14) (f : StreamE → StreamE) : (s.updStream n f).fpmB = s.fpmB := rfl
@[simp] theorem State.updStream_pmapA (n : BitVec 14) (f : StreamE → StreamE) : (s.updStream n f).pmapA = s.pmapA := rfl
@[simp] theorem State.updStream_pmapB (n : BitVec 14) (f : StreamE → StreamE) : (s.updStream n f).pmapB = s.pmapB := rfl
@[simp] theorem State.updStream_entries (n : BitVec 14) (f : StreamE → StreamE) : (s.updStream n f).entries = s.entries := rfl
@[simp] theorem State.updStream_fetch (n : BitVec 14) (f : StreamE → StreamE) : (s.updStream n f).fetch = s.fetch := rfl
@[simp] theorem State.updStream_ferry (n : BitVec 14) (f : StreamE → StreamE) : (s.updStream n f).ferry = s.ferry := rfl
@[simp] theorem State.updStream_harb (n : BitVec 14) (f : StreamE → StreamE) : (s.updStream n f).harb = s.harb := rfl
@[simp] theorem State.updStream_cores (n : BitVec 14) (f : StreamE → StreamE) : (s.updStream n f).cores = s.cores := rfl
@[simp] theorem State.updStream_disp (n : BitVec 14) (f : StreamE → StreamE) : (s.updStream n f).disp = s.disp := rfl
@[simp] theorem State.updStream_ports (n : BitVec 14) (f : StreamE → StreamE) : (s.updStream n f).ports = s.ports := rfl
@[simp] theorem State.updStream_scales (n : BitVec 14) (f : StreamE → StreamE) : (s.updStream n f).scales = s.scales := rfl
@[simp] theorem State.updStream_lhse (n : BitVec 14) (f : StreamE → StreamE) : (s.updStream n f).lhse = s.lhse := rfl
@[simp] theorem State.updStream_trace (n : BitVec 14) (f : StreamE → StreamE) : (s.updStream n f).trace = s.trace := rfl
@[simp] theorem State.updStream_progT (n : BitVec 14) (f : StreamE → StreamE) : (s.updStream n f).progT = s.progT := rfl
@[simp] theorem State.updStream_sync (n : BitVec 14) (f : StreamE → StreamE) : (s.updStream n f).sync = s.sync := rfl
@[simp] theorem State.updStream_land (n : BitVec 14) (f : StreamE → StreamE) : (s.updStream n f).land = s.land := rfl
@[simp] theorem State.updStream_shoal (n : BitVec 14) (f : StreamE → StreamE) : (s.updStream n f).shoal = s.shoal := rfl
@[simp] theorem State.updStream_aud (n : BitVec 14) (f : StreamE → StreamE) : (s.updStream n f).aud = s.aud := rfl
@[simp] theorem State.updStream_reef (n : BitVec 14) (f : StreamE → StreamE) : (s.updStream n f).reef = s.reef := rfl
@[simp] theorem State.updStream_mmp (n : BitVec 14) (f : StreamE → StreamE) : (s.updStream n f).mmp = s.mmp := rfl
@[simp] theorem State.updStream_fap (n : BitVec 14) (f : StreamE → StreamE) : (s.updStream n f).fap = s.fap := rfl
@[simp] theorem State.updStream_mmpGen (n : BitVec 14) (f : StreamE → StreamE) : (s.updStream n f).mmpGen = s.mmpGen := rfl
@[simp] theorem State.updStream_fapGen (n : BitVec 14) (f : StreamE → StreamE) : (s.updStream n f).fapGen = s.fapGen := rfl
@[simp] theorem State.updStream_rst (n : BitVec 14) (f : StreamE → StreamE) : (s.updStream n f).rst = s.rst := rfl
@[simp] theorem State.updStream_time (n : BitVec 14) (f : StreamE → StreamE) : (s.updStream n f).time = s.time := rfl
@[simp] theorem State.updStream_tsync (n : BitVec 14) (f : StreamE → StreamE) : (s.updStream n f).tsync = s.tsync := rfl
@[simp] theorem State.updStream_view (n : BitVec 14) (f : StreamE → StreamE) : (s.updStream n f).view = s.view := rfl
@[simp] theorem State.updStream_viewHeld (n : BitVec 14) (f : StreamE → StreamE) : (s.updStream n f).viewHeld = s.viewHeld := rfl
@[simp] theorem State.updStream_pwr (n : BitVec 14) (f : StreamE → StreamE) : (s.updStream n f).pwr = s.pwr := rfl
@[simp] theorem State.updStream_bcon (n : BitVec 14) (f : StreamE → StreamE) : (s.updStream n f).bcon = s.bcon := rfl
@[simp] theorem State.updStream_cw (n : BitVec 14) (f : StreamE → StreamE) : (s.updStream n f).cw = s.cw := rfl
@[simp] theorem State.updStream_keep (n : BitVec 14) (f : StreamE → StreamE) : (s.updStream n f).keep = s.keep := rfl
@[simp] theorem State.updStream_test (n : BitVec 14) (f : StreamE → StreamE) : (s.updStream n f).test = s.test := rfl

/-! ## setEntry -/

@[simp] theorem State.setEntry_pending (k : EKey) (v : Option Entry) : (s.setEntry k v).pending = s.pending := rfl
@[simp] theorem State.setEntry_freeCtr (k : EKey) (v : Option Entry) : (s.setEntry k v).freeCtr = s.freeCtr := rfl
@[simp] theorem State.setEntry_cclk (k : EKey) (v : Option Entry) : (s.setEntry k v).cclk = s.cclk := rfl
@[simp] theorem State.setEntry_ecpCount (k : EKey) (v : Option Entry) : (s.setEntry k v).ecpCount = s.ecpCount := rfl
@[simp] theorem State.setEntry_cwMap (k : EKey) (v : Option Entry) : (s.setEntry k v).cwMap = s.cwMap := rfl
@[simp] theorem State.setEntry_keepStore (k : EKey) (v : Option Entry) : (s.setEntry k v).keepStore = s.keepStore := rfl
@[simp] theorem State.setEntry_regs (k : EKey) (v : Option Entry) : (s.setEntry k v).regs = s.regs := rfl
@[simp] theorem State.setEntry_rdp (k : EKey) (v : Option Entry) : (s.setEntry k v).rdp = s.rdp := rfl
@[simp] theorem State.setEntry_fpmA (k : EKey) (v : Option Entry) : (s.setEntry k v).fpmA = s.fpmA := rfl
@[simp] theorem State.setEntry_fpmB (k : EKey) (v : Option Entry) : (s.setEntry k v).fpmB = s.fpmB := rfl
@[simp] theorem State.setEntry_pmapA (k : EKey) (v : Option Entry) : (s.setEntry k v).pmapA = s.pmapA := rfl
@[simp] theorem State.setEntry_pmapB (k : EKey) (v : Option Entry) : (s.setEntry k v).pmapB = s.pmapB := rfl
@[simp] theorem State.setEntry_streams (k : EKey) (v : Option Entry) : (s.setEntry k v).streams = s.streams := rfl
@[simp] theorem State.setEntry_fetch (k : EKey) (v : Option Entry) : (s.setEntry k v).fetch = s.fetch := rfl
@[simp] theorem State.setEntry_ferry (k : EKey) (v : Option Entry) : (s.setEntry k v).ferry = s.ferry := rfl
@[simp] theorem State.setEntry_harb (k : EKey) (v : Option Entry) : (s.setEntry k v).harb = s.harb := rfl
@[simp] theorem State.setEntry_cores (k : EKey) (v : Option Entry) : (s.setEntry k v).cores = s.cores := rfl
@[simp] theorem State.setEntry_disp (k : EKey) (v : Option Entry) : (s.setEntry k v).disp = s.disp := rfl
@[simp] theorem State.setEntry_ports (k : EKey) (v : Option Entry) : (s.setEntry k v).ports = s.ports := rfl
@[simp] theorem State.setEntry_scales (k : EKey) (v : Option Entry) : (s.setEntry k v).scales = s.scales := rfl
@[simp] theorem State.setEntry_lhse (k : EKey) (v : Option Entry) : (s.setEntry k v).lhse = s.lhse := rfl
@[simp] theorem State.setEntry_trace (k : EKey) (v : Option Entry) : (s.setEntry k v).trace = s.trace := rfl
@[simp] theorem State.setEntry_progT (k : EKey) (v : Option Entry) : (s.setEntry k v).progT = s.progT := rfl
@[simp] theorem State.setEntry_sync (k : EKey) (v : Option Entry) : (s.setEntry k v).sync = s.sync := rfl
@[simp] theorem State.setEntry_land (k : EKey) (v : Option Entry) : (s.setEntry k v).land = s.land := rfl
@[simp] theorem State.setEntry_shoal (k : EKey) (v : Option Entry) : (s.setEntry k v).shoal = s.shoal := rfl
@[simp] theorem State.setEntry_aud (k : EKey) (v : Option Entry) : (s.setEntry k v).aud = s.aud := rfl
@[simp] theorem State.setEntry_reef (k : EKey) (v : Option Entry) : (s.setEntry k v).reef = s.reef := rfl
@[simp] theorem State.setEntry_mmp (k : EKey) (v : Option Entry) : (s.setEntry k v).mmp = s.mmp := rfl
@[simp] theorem State.setEntry_fap (k : EKey) (v : Option Entry) : (s.setEntry k v).fap = s.fap := rfl
@[simp] theorem State.setEntry_mmpGen (k : EKey) (v : Option Entry) : (s.setEntry k v).mmpGen = s.mmpGen := rfl
@[simp] theorem State.setEntry_fapGen (k : EKey) (v : Option Entry) : (s.setEntry k v).fapGen = s.fapGen := rfl
@[simp] theorem State.setEntry_rst (k : EKey) (v : Option Entry) : (s.setEntry k v).rst = s.rst := rfl
@[simp] theorem State.setEntry_time (k : EKey) (v : Option Entry) : (s.setEntry k v).time = s.time := rfl
@[simp] theorem State.setEntry_tsync (k : EKey) (v : Option Entry) : (s.setEntry k v).tsync = s.tsync := rfl
@[simp] theorem State.setEntry_view (k : EKey) (v : Option Entry) : (s.setEntry k v).view = s.view := rfl
@[simp] theorem State.setEntry_viewHeld (k : EKey) (v : Option Entry) : (s.setEntry k v).viewHeld = s.viewHeld := rfl
@[simp] theorem State.setEntry_pwr (k : EKey) (v : Option Entry) : (s.setEntry k v).pwr = s.pwr := rfl
@[simp] theorem State.setEntry_bcon (k : EKey) (v : Option Entry) : (s.setEntry k v).bcon = s.bcon := rfl
@[simp] theorem State.setEntry_cw (k : EKey) (v : Option Entry) : (s.setEntry k v).cw = s.cw := rfl
@[simp] theorem State.setEntry_keep (k : EKey) (v : Option Entry) : (s.setEntry k v).keep = s.keep := rfl
@[simp] theorem State.setEntry_test (k : EKey) (v : Option Entry) : (s.setEntry k v).test = s.test := rfl

/-! ## setSlot -/

@[simp] theorem State.setSlot_pending (k : Nat) (v : Slot) : (s.setSlot k v).pending = s.pending := rfl
@[simp] theorem State.setSlot_freeCtr (k : Nat) (v : Slot) : (s.setSlot k v).freeCtr = s.freeCtr := rfl
@[simp] theorem State.setSlot_cclk (k : Nat) (v : Slot) : (s.setSlot k v).cclk = s.cclk := rfl
@[simp] theorem State.setSlot_ecpCount (k : Nat) (v : Slot) : (s.setSlot k v).ecpCount = s.ecpCount := rfl
@[simp] theorem State.setSlot_cwMap (k : Nat) (v : Slot) : (s.setSlot k v).cwMap = s.cwMap := rfl
@[simp] theorem State.setSlot_keepStore (k : Nat) (v : Slot) : (s.setSlot k v).keepStore = s.keepStore := rfl
@[simp] theorem State.setSlot_regs (k : Nat) (v : Slot) : (s.setSlot k v).regs = s.regs := rfl
@[simp] theorem State.setSlot_rdp (k : Nat) (v : Slot) : (s.setSlot k v).rdp = s.rdp := rfl
@[simp] theorem State.setSlot_fpmA (k : Nat) (v : Slot) : (s.setSlot k v).fpmA = s.fpmA := rfl
@[simp] theorem State.setSlot_fpmB (k : Nat) (v : Slot) : (s.setSlot k v).fpmB = s.fpmB := rfl
@[simp] theorem State.setSlot_pmapA (k : Nat) (v : Slot) : (s.setSlot k v).pmapA = s.pmapA := rfl
@[simp] theorem State.setSlot_pmapB (k : Nat) (v : Slot) : (s.setSlot k v).pmapB = s.pmapB := rfl
@[simp] theorem State.setSlot_streams (k : Nat) (v : Slot) : (s.setSlot k v).streams = s.streams := rfl
@[simp] theorem State.setSlot_entries (k : Nat) (v : Slot) : (s.setSlot k v).entries = s.entries := rfl
@[simp] theorem State.setSlot_fetch (k : Nat) (v : Slot) : (s.setSlot k v).fetch = s.fetch := rfl
@[simp] theorem State.setSlot_ferry (k : Nat) (v : Slot) : (s.setSlot k v).ferry = s.ferry := rfl
@[simp] theorem State.setSlot_cores (k : Nat) (v : Slot) : (s.setSlot k v).cores = s.cores := rfl
@[simp] theorem State.setSlot_disp (k : Nat) (v : Slot) : (s.setSlot k v).disp = s.disp := rfl
@[simp] theorem State.setSlot_ports (k : Nat) (v : Slot) : (s.setSlot k v).ports = s.ports := rfl
@[simp] theorem State.setSlot_scales (k : Nat) (v : Slot) : (s.setSlot k v).scales = s.scales := rfl
@[simp] theorem State.setSlot_lhse (k : Nat) (v : Slot) : (s.setSlot k v).lhse = s.lhse := rfl
@[simp] theorem State.setSlot_trace (k : Nat) (v : Slot) : (s.setSlot k v).trace = s.trace := rfl
@[simp] theorem State.setSlot_progT (k : Nat) (v : Slot) : (s.setSlot k v).progT = s.progT := rfl
@[simp] theorem State.setSlot_sync (k : Nat) (v : Slot) : (s.setSlot k v).sync = s.sync := rfl
@[simp] theorem State.setSlot_land (k : Nat) (v : Slot) : (s.setSlot k v).land = s.land := rfl
@[simp] theorem State.setSlot_shoal (k : Nat) (v : Slot) : (s.setSlot k v).shoal = s.shoal := rfl
@[simp] theorem State.setSlot_aud (k : Nat) (v : Slot) : (s.setSlot k v).aud = s.aud := rfl
@[simp] theorem State.setSlot_reef (k : Nat) (v : Slot) : (s.setSlot k v).reef = s.reef := rfl
@[simp] theorem State.setSlot_mmp (k : Nat) (v : Slot) : (s.setSlot k v).mmp = s.mmp := rfl
@[simp] theorem State.setSlot_fap (k : Nat) (v : Slot) : (s.setSlot k v).fap = s.fap := rfl
@[simp] theorem State.setSlot_mmpGen (k : Nat) (v : Slot) : (s.setSlot k v).mmpGen = s.mmpGen := rfl
@[simp] theorem State.setSlot_fapGen (k : Nat) (v : Slot) : (s.setSlot k v).fapGen = s.fapGen := rfl
@[simp] theorem State.setSlot_rst (k : Nat) (v : Slot) : (s.setSlot k v).rst = s.rst := rfl
@[simp] theorem State.setSlot_time (k : Nat) (v : Slot) : (s.setSlot k v).time = s.time := rfl
@[simp] theorem State.setSlot_tsync (k : Nat) (v : Slot) : (s.setSlot k v).tsync = s.tsync := rfl
@[simp] theorem State.setSlot_view (k : Nat) (v : Slot) : (s.setSlot k v).view = s.view := rfl
@[simp] theorem State.setSlot_viewHeld (k : Nat) (v : Slot) : (s.setSlot k v).viewHeld = s.viewHeld := rfl
@[simp] theorem State.setSlot_pwr (k : Nat) (v : Slot) : (s.setSlot k v).pwr = s.pwr := rfl
@[simp] theorem State.setSlot_bcon (k : Nat) (v : Slot) : (s.setSlot k v).bcon = s.bcon := rfl
@[simp] theorem State.setSlot_cw (k : Nat) (v : Slot) : (s.setSlot k v).cw = s.cw := rfl
@[simp] theorem State.setSlot_keep (k : Nat) (v : Slot) : (s.setSlot k v).keep = s.keep := rfl
@[simp] theorem State.setSlot_test (k : Nat) (v : Slot) : (s.setSlot k v).test = s.test := rfl

/-! ## setFpm -/

@[simp] theorem State.setFpm_pending (f : Nat) (v : BitVec 16) : (s.setFpm f v).pending = s.pending := rfl
@[simp] theorem State.setFpm_freeCtr (f : Nat) (v : BitVec 16) : (s.setFpm f v).freeCtr = s.freeCtr := rfl
@[simp] theorem State.setFpm_cclk (f : Nat) (v : BitVec 16) : (s.setFpm f v).cclk = s.cclk := rfl
@[simp] theorem State.setFpm_ecpCount (f : Nat) (v : BitVec 16) : (s.setFpm f v).ecpCount = s.ecpCount := rfl
@[simp] theorem State.setFpm_cwMap (f : Nat) (v : BitVec 16) : (s.setFpm f v).cwMap = s.cwMap := rfl
@[simp] theorem State.setFpm_keepStore (f : Nat) (v : BitVec 16) : (s.setFpm f v).keepStore = s.keepStore := rfl
@[simp] theorem State.setFpm_regs (f : Nat) (v : BitVec 16) : (s.setFpm f v).regs = s.regs := rfl
@[simp] theorem State.setFpm_rdp (f : Nat) (v : BitVec 16) : (s.setFpm f v).rdp = s.rdp := rfl
@[simp] theorem State.setFpm_pmapA (f : Nat) (v : BitVec 16) : (s.setFpm f v).pmapA = s.pmapA := rfl
@[simp] theorem State.setFpm_pmapB (f : Nat) (v : BitVec 16) : (s.setFpm f v).pmapB = s.pmapB := rfl
@[simp] theorem State.setFpm_streams (f : Nat) (v : BitVec 16) : (s.setFpm f v).streams = s.streams := rfl
@[simp] theorem State.setFpm_entries (f : Nat) (v : BitVec 16) : (s.setFpm f v).entries = s.entries := rfl
@[simp] theorem State.setFpm_fetch (f : Nat) (v : BitVec 16) : (s.setFpm f v).fetch = s.fetch := rfl
@[simp] theorem State.setFpm_ferry (f : Nat) (v : BitVec 16) : (s.setFpm f v).ferry = s.ferry := rfl
@[simp] theorem State.setFpm_harb (f : Nat) (v : BitVec 16) : (s.setFpm f v).harb = s.harb := rfl
@[simp] theorem State.setFpm_cores (f : Nat) (v : BitVec 16) : (s.setFpm f v).cores = s.cores := rfl
@[simp] theorem State.setFpm_disp (f : Nat) (v : BitVec 16) : (s.setFpm f v).disp = s.disp := rfl
@[simp] theorem State.setFpm_ports (f : Nat) (v : BitVec 16) : (s.setFpm f v).ports = s.ports := rfl
@[simp] theorem State.setFpm_scales (f : Nat) (v : BitVec 16) : (s.setFpm f v).scales = s.scales := rfl
@[simp] theorem State.setFpm_lhse (f : Nat) (v : BitVec 16) : (s.setFpm f v).lhse = s.lhse := rfl
@[simp] theorem State.setFpm_trace (f : Nat) (v : BitVec 16) : (s.setFpm f v).trace = s.trace := rfl
@[simp] theorem State.setFpm_progT (f : Nat) (v : BitVec 16) : (s.setFpm f v).progT = s.progT := rfl
@[simp] theorem State.setFpm_sync (f : Nat) (v : BitVec 16) : (s.setFpm f v).sync = s.sync := rfl
@[simp] theorem State.setFpm_land (f : Nat) (v : BitVec 16) : (s.setFpm f v).land = s.land := rfl
@[simp] theorem State.setFpm_shoal (f : Nat) (v : BitVec 16) : (s.setFpm f v).shoal = s.shoal := rfl
@[simp] theorem State.setFpm_aud (f : Nat) (v : BitVec 16) : (s.setFpm f v).aud = s.aud := rfl
@[simp] theorem State.setFpm_mmp (f : Nat) (v : BitVec 16) : (s.setFpm f v).mmp = s.mmp := rfl
@[simp] theorem State.setFpm_fap (f : Nat) (v : BitVec 16) : (s.setFpm f v).fap = s.fap := rfl
@[simp] theorem State.setFpm_mmpGen (f : Nat) (v : BitVec 16) : (s.setFpm f v).mmpGen = s.mmpGen := rfl
@[simp] theorem State.setFpm_fapGen (f : Nat) (v : BitVec 16) : (s.setFpm f v).fapGen = s.fapGen := rfl
@[simp] theorem State.setFpm_rst (f : Nat) (v : BitVec 16) : (s.setFpm f v).rst = s.rst := rfl
@[simp] theorem State.setFpm_time (f : Nat) (v : BitVec 16) : (s.setFpm f v).time = s.time := rfl
@[simp] theorem State.setFpm_tsync (f : Nat) (v : BitVec 16) : (s.setFpm f v).tsync = s.tsync := rfl
@[simp] theorem State.setFpm_view (f : Nat) (v : BitVec 16) : (s.setFpm f v).view = s.view := rfl
@[simp] theorem State.setFpm_viewHeld (f : Nat) (v : BitVec 16) : (s.setFpm f v).viewHeld = s.viewHeld := rfl
@[simp] theorem State.setFpm_pwr (f : Nat) (v : BitVec 16) : (s.setFpm f v).pwr = s.pwr := rfl
@[simp] theorem State.setFpm_bcon (f : Nat) (v : BitVec 16) : (s.setFpm f v).bcon = s.bcon := rfl
@[simp] theorem State.setFpm_cw (f : Nat) (v : BitVec 16) : (s.setFpm f v).cw = s.cw := rfl
@[simp] theorem State.setFpm_keep (f : Nat) (v : BitVec 16) : (s.setFpm f v).keep = s.keep := rfl
@[simp] theorem State.setFpm_test (f : Nat) (v : BitVec 16) : (s.setFpm f v).test = s.test := rfl

/-! ## setPmap -/

@[simp] theorem State.setPmap_pending (p : BitVec 4) (v : BitVec 256) : (s.setPmap p v).pending = s.pending := rfl
@[simp] theorem State.setPmap_freeCtr (p : BitVec 4) (v : BitVec 256) : (s.setPmap p v).freeCtr = s.freeCtr := rfl
@[simp] theorem State.setPmap_cclk (p : BitVec 4) (v : BitVec 256) : (s.setPmap p v).cclk = s.cclk := rfl
@[simp] theorem State.setPmap_ecpCount (p : BitVec 4) (v : BitVec 256) : (s.setPmap p v).ecpCount = s.ecpCount := rfl
@[simp] theorem State.setPmap_cwMap (p : BitVec 4) (v : BitVec 256) : (s.setPmap p v).cwMap = s.cwMap := rfl
@[simp] theorem State.setPmap_keepStore (p : BitVec 4) (v : BitVec 256) : (s.setPmap p v).keepStore = s.keepStore := rfl
@[simp] theorem State.setPmap_regs (p : BitVec 4) (v : BitVec 256) : (s.setPmap p v).regs = s.regs := rfl
@[simp] theorem State.setPmap_rdp (p : BitVec 4) (v : BitVec 256) : (s.setPmap p v).rdp = s.rdp := rfl
@[simp] theorem State.setPmap_fpmA (p : BitVec 4) (v : BitVec 256) : (s.setPmap p v).fpmA = s.fpmA := rfl
@[simp] theorem State.setPmap_fpmB (p : BitVec 4) (v : BitVec 256) : (s.setPmap p v).fpmB = s.fpmB := rfl
@[simp] theorem State.setPmap_streams (p : BitVec 4) (v : BitVec 256) : (s.setPmap p v).streams = s.streams := rfl
@[simp] theorem State.setPmap_entries (p : BitVec 4) (v : BitVec 256) : (s.setPmap p v).entries = s.entries := rfl
@[simp] theorem State.setPmap_fetch (p : BitVec 4) (v : BitVec 256) : (s.setPmap p v).fetch = s.fetch := rfl
@[simp] theorem State.setPmap_ferry (p : BitVec 4) (v : BitVec 256) : (s.setPmap p v).ferry = s.ferry := rfl
@[simp] theorem State.setPmap_harb (p : BitVec 4) (v : BitVec 256) : (s.setPmap p v).harb = s.harb := rfl
@[simp] theorem State.setPmap_cores (p : BitVec 4) (v : BitVec 256) : (s.setPmap p v).cores = s.cores := rfl
@[simp] theorem State.setPmap_disp (p : BitVec 4) (v : BitVec 256) : (s.setPmap p v).disp = s.disp := rfl
@[simp] theorem State.setPmap_ports (p : BitVec 4) (v : BitVec 256) : (s.setPmap p v).ports = s.ports := rfl
@[simp] theorem State.setPmap_scales (p : BitVec 4) (v : BitVec 256) : (s.setPmap p v).scales = s.scales := rfl
@[simp] theorem State.setPmap_lhse (p : BitVec 4) (v : BitVec 256) : (s.setPmap p v).lhse = s.lhse := rfl
@[simp] theorem State.setPmap_trace (p : BitVec 4) (v : BitVec 256) : (s.setPmap p v).trace = s.trace := rfl
@[simp] theorem State.setPmap_progT (p : BitVec 4) (v : BitVec 256) : (s.setPmap p v).progT = s.progT := rfl
@[simp] theorem State.setPmap_sync (p : BitVec 4) (v : BitVec 256) : (s.setPmap p v).sync = s.sync := rfl
@[simp] theorem State.setPmap_land (p : BitVec 4) (v : BitVec 256) : (s.setPmap p v).land = s.land := rfl
@[simp] theorem State.setPmap_shoal (p : BitVec 4) (v : BitVec 256) : (s.setPmap p v).shoal = s.shoal := rfl
@[simp] theorem State.setPmap_aud (p : BitVec 4) (v : BitVec 256) : (s.setPmap p v).aud = s.aud := rfl
@[simp] theorem State.setPmap_mmp (p : BitVec 4) (v : BitVec 256) : (s.setPmap p v).mmp = s.mmp := rfl
@[simp] theorem State.setPmap_fap (p : BitVec 4) (v : BitVec 256) : (s.setPmap p v).fap = s.fap := rfl
@[simp] theorem State.setPmap_mmpGen (p : BitVec 4) (v : BitVec 256) : (s.setPmap p v).mmpGen = s.mmpGen := rfl
@[simp] theorem State.setPmap_fapGen (p : BitVec 4) (v : BitVec 256) : (s.setPmap p v).fapGen = s.fapGen := rfl
@[simp] theorem State.setPmap_rst (p : BitVec 4) (v : BitVec 256) : (s.setPmap p v).rst = s.rst := rfl
@[simp] theorem State.setPmap_time (p : BitVec 4) (v : BitVec 256) : (s.setPmap p v).time = s.time := rfl
@[simp] theorem State.setPmap_tsync (p : BitVec 4) (v : BitVec 256) : (s.setPmap p v).tsync = s.tsync := rfl
@[simp] theorem State.setPmap_view (p : BitVec 4) (v : BitVec 256) : (s.setPmap p v).view = s.view := rfl
@[simp] theorem State.setPmap_viewHeld (p : BitVec 4) (v : BitVec 256) : (s.setPmap p v).viewHeld = s.viewHeld := rfl
@[simp] theorem State.setPmap_pwr (p : BitVec 4) (v : BitVec 256) : (s.setPmap p v).pwr = s.pwr := rfl
@[simp] theorem State.setPmap_bcon (p : BitVec 4) (v : BitVec 256) : (s.setPmap p v).bcon = s.bcon := rfl
@[simp] theorem State.setPmap_cw (p : BitVec 4) (v : BitVec 256) : (s.setPmap p v).cw = s.cw := rfl
@[simp] theorem State.setPmap_keep (p : BitVec 4) (v : BitVec 256) : (s.setPmap p v).keep = s.keep := rfl
@[simp] theorem State.setPmap_test (p : BitVec 4) (v : BitVec 256) : (s.setPmap p v).test = s.test := rfl

/-! ## used -/

@[simp] theorem State.used_pending : (s.used).pending = s.pending := rfl
@[simp] theorem State.used_cclk : (s.used).cclk = s.cclk := rfl
@[simp] theorem State.used_ecpCount : (s.used).ecpCount = s.ecpCount := rfl
@[simp] theorem State.used_cwMap : (s.used).cwMap = s.cwMap := rfl
@[simp] theorem State.used_keepStore : (s.used).keepStore = s.keepStore := rfl
@[simp] theorem State.used_regs : (s.used).regs = s.regs := rfl
@[simp] theorem State.used_rdp : (s.used).rdp = s.rdp := rfl
@[simp] theorem State.used_fpmA : (s.used).fpmA = s.fpmA := rfl
@[simp] theorem State.used_fpmB : (s.used).fpmB = s.fpmB := rfl
@[simp] theorem State.used_pmapA : (s.used).pmapA = s.pmapA := rfl
@[simp] theorem State.used_pmapB : (s.used).pmapB = s.pmapB := rfl
@[simp] theorem State.used_streams : (s.used).streams = s.streams := rfl
@[simp] theorem State.used_entries : (s.used).entries = s.entries := rfl
@[simp] theorem State.used_fetch : (s.used).fetch = s.fetch := rfl
@[simp] theorem State.used_ferry : (s.used).ferry = s.ferry := rfl
@[simp] theorem State.used_harb : (s.used).harb = s.harb := rfl
@[simp] theorem State.used_cores : (s.used).cores = s.cores := rfl
@[simp] theorem State.used_disp : (s.used).disp = s.disp := rfl
@[simp] theorem State.used_ports : (s.used).ports = s.ports := rfl
@[simp] theorem State.used_scales : (s.used).scales = s.scales := rfl
@[simp] theorem State.used_lhse : (s.used).lhse = s.lhse := rfl
@[simp] theorem State.used_trace : (s.used).trace = s.trace := rfl
@[simp] theorem State.used_progT : (s.used).progT = s.progT := rfl
@[simp] theorem State.used_sync : (s.used).sync = s.sync := rfl
@[simp] theorem State.used_land : (s.used).land = s.land := rfl
@[simp] theorem State.used_shoal : (s.used).shoal = s.shoal := rfl
@[simp] theorem State.used_aud : (s.used).aud = s.aud := rfl
@[simp] theorem State.used_reef : (s.used).reef = s.reef := rfl
@[simp] theorem State.used_mmp : (s.used).mmp = s.mmp := rfl
@[simp] theorem State.used_fap : (s.used).fap = s.fap := rfl
@[simp] theorem State.used_mmpGen : (s.used).mmpGen = s.mmpGen := rfl
@[simp] theorem State.used_fapGen : (s.used).fapGen = s.fapGen := rfl
@[simp] theorem State.used_rst : (s.used).rst = s.rst := rfl
@[simp] theorem State.used_time : (s.used).time = s.time := rfl
@[simp] theorem State.used_tsync : (s.used).tsync = s.tsync := rfl
@[simp] theorem State.used_view : (s.used).view = s.view := rfl
@[simp] theorem State.used_viewHeld : (s.used).viewHeld = s.viewHeld := rfl
@[simp] theorem State.used_pwr : (s.used).pwr = s.pwr := rfl
@[simp] theorem State.used_bcon : (s.used).bcon = s.bcon := rfl
@[simp] theorem State.used_cw : (s.used).cw = s.cw := rfl
@[simp] theorem State.used_keep : (s.used).keep = s.keep := rfl
@[simp] theorem State.used_test : (s.used).test = s.test := rfl

/-! ## usedBy -/

@[simp] theorem State.usedBy_pending (n : Nat) : (s.usedBy n).pending = s.pending := rfl
@[simp] theorem State.usedBy_cclk (n : Nat) : (s.usedBy n).cclk = s.cclk := rfl
@[simp] theorem State.usedBy_ecpCount (n : Nat) : (s.usedBy n).ecpCount = s.ecpCount := rfl
@[simp] theorem State.usedBy_cwMap (n : Nat) : (s.usedBy n).cwMap = s.cwMap := rfl
@[simp] theorem State.usedBy_keepStore (n : Nat) : (s.usedBy n).keepStore = s.keepStore := rfl
@[simp] theorem State.usedBy_regs (n : Nat) : (s.usedBy n).regs = s.regs := rfl
@[simp] theorem State.usedBy_rdp (n : Nat) : (s.usedBy n).rdp = s.rdp := rfl
@[simp] theorem State.usedBy_fpmA (n : Nat) : (s.usedBy n).fpmA = s.fpmA := rfl
@[simp] theorem State.usedBy_fpmB (n : Nat) : (s.usedBy n).fpmB = s.fpmB := rfl
@[simp] theorem State.usedBy_pmapA (n : Nat) : (s.usedBy n).pmapA = s.pmapA := rfl
@[simp] theorem State.usedBy_pmapB (n : Nat) : (s.usedBy n).pmapB = s.pmapB := rfl
@[simp] theorem State.usedBy_streams (n : Nat) : (s.usedBy n).streams = s.streams := rfl
@[simp] theorem State.usedBy_entries (n : Nat) : (s.usedBy n).entries = s.entries := rfl
@[simp] theorem State.usedBy_fetch (n : Nat) : (s.usedBy n).fetch = s.fetch := rfl
@[simp] theorem State.usedBy_ferry (n : Nat) : (s.usedBy n).ferry = s.ferry := rfl
@[simp] theorem State.usedBy_harb (n : Nat) : (s.usedBy n).harb = s.harb := rfl
@[simp] theorem State.usedBy_cores (n : Nat) : (s.usedBy n).cores = s.cores := rfl
@[simp] theorem State.usedBy_disp (n : Nat) : (s.usedBy n).disp = s.disp := rfl
@[simp] theorem State.usedBy_ports (n : Nat) : (s.usedBy n).ports = s.ports := rfl
@[simp] theorem State.usedBy_scales (n : Nat) : (s.usedBy n).scales = s.scales := rfl
@[simp] theorem State.usedBy_lhse (n : Nat) : (s.usedBy n).lhse = s.lhse := rfl
@[simp] theorem State.usedBy_trace (n : Nat) : (s.usedBy n).trace = s.trace := rfl
@[simp] theorem State.usedBy_progT (n : Nat) : (s.usedBy n).progT = s.progT := rfl
@[simp] theorem State.usedBy_sync (n : Nat) : (s.usedBy n).sync = s.sync := rfl
@[simp] theorem State.usedBy_land (n : Nat) : (s.usedBy n).land = s.land := rfl
@[simp] theorem State.usedBy_shoal (n : Nat) : (s.usedBy n).shoal = s.shoal := rfl
@[simp] theorem State.usedBy_aud (n : Nat) : (s.usedBy n).aud = s.aud := rfl
@[simp] theorem State.usedBy_reef (n : Nat) : (s.usedBy n).reef = s.reef := rfl
@[simp] theorem State.usedBy_mmp (n : Nat) : (s.usedBy n).mmp = s.mmp := rfl
@[simp] theorem State.usedBy_fap (n : Nat) : (s.usedBy n).fap = s.fap := rfl
@[simp] theorem State.usedBy_mmpGen (n : Nat) : (s.usedBy n).mmpGen = s.mmpGen := rfl
@[simp] theorem State.usedBy_fapGen (n : Nat) : (s.usedBy n).fapGen = s.fapGen := rfl
@[simp] theorem State.usedBy_rst (n : Nat) : (s.usedBy n).rst = s.rst := rfl
@[simp] theorem State.usedBy_time (n : Nat) : (s.usedBy n).time = s.time := rfl
@[simp] theorem State.usedBy_tsync (n : Nat) : (s.usedBy n).tsync = s.tsync := rfl
@[simp] theorem State.usedBy_view (n : Nat) : (s.usedBy n).view = s.view := rfl
@[simp] theorem State.usedBy_viewHeld (n : Nat) : (s.usedBy n).viewHeld = s.viewHeld := rfl
@[simp] theorem State.usedBy_pwr (n : Nat) : (s.usedBy n).pwr = s.pwr := rfl
@[simp] theorem State.usedBy_bcon (n : Nat) : (s.usedBy n).bcon = s.bcon := rfl
@[simp] theorem State.usedBy_cw (n : Nat) : (s.usedBy n).cw = s.cw := rfl
@[simp] theorem State.usedBy_keep (n : Nat) : (s.usedBy n).keep = s.keep := rfl
@[simp] theorem State.usedBy_test (n : Nat) : (s.usedBy n).test = s.test := rfl

/-! ## progress -/

@[simp] theorem State.progress_pending (p : BitVec 4) : (s.progress p).pending = s.pending := rfl
@[simp] theorem State.progress_freeCtr (p : BitVec 4) : (s.progress p).freeCtr = s.freeCtr := rfl
@[simp] theorem State.progress_cclk (p : BitVec 4) : (s.progress p).cclk = s.cclk := rfl
@[simp] theorem State.progress_ecpCount (p : BitVec 4) : (s.progress p).ecpCount = s.ecpCount := rfl
@[simp] theorem State.progress_cwMap (p : BitVec 4) : (s.progress p).cwMap = s.cwMap := rfl
@[simp] theorem State.progress_keepStore (p : BitVec 4) : (s.progress p).keepStore = s.keepStore := rfl
@[simp] theorem State.progress_regs (p : BitVec 4) : (s.progress p).regs = s.regs := rfl
@[simp] theorem State.progress_rdp (p : BitVec 4) : (s.progress p).rdp = s.rdp := rfl
@[simp] theorem State.progress_fpmA (p : BitVec 4) : (s.progress p).fpmA = s.fpmA := rfl
@[simp] theorem State.progress_fpmB (p : BitVec 4) : (s.progress p).fpmB = s.fpmB := rfl
@[simp] theorem State.progress_pmapA (p : BitVec 4) : (s.progress p).pmapA = s.pmapA := rfl
@[simp] theorem State.progress_pmapB (p : BitVec 4) : (s.progress p).pmapB = s.pmapB := rfl
@[simp] theorem State.progress_streams (p : BitVec 4) : (s.progress p).streams = s.streams := rfl
@[simp] theorem State.progress_entries (p : BitVec 4) : (s.progress p).entries = s.entries := rfl
@[simp] theorem State.progress_fetch (p : BitVec 4) : (s.progress p).fetch = s.fetch := rfl
@[simp] theorem State.progress_ferry (p : BitVec 4) : (s.progress p).ferry = s.ferry := rfl
@[simp] theorem State.progress_harb (p : BitVec 4) : (s.progress p).harb = s.harb := rfl
@[simp] theorem State.progress_cores (p : BitVec 4) : (s.progress p).cores = s.cores := rfl
@[simp] theorem State.progress_disp (p : BitVec 4) : (s.progress p).disp = s.disp := rfl
@[simp] theorem State.progress_ports (p : BitVec 4) : (s.progress p).ports = s.ports := rfl
@[simp] theorem State.progress_scales (p : BitVec 4) : (s.progress p).scales = s.scales := rfl
@[simp] theorem State.progress_lhse (p : BitVec 4) : (s.progress p).lhse = s.lhse := rfl
@[simp] theorem State.progress_trace (p : BitVec 4) : (s.progress p).trace = s.trace := rfl
@[simp] theorem State.progress_sync (p : BitVec 4) : (s.progress p).sync = s.sync := rfl
@[simp] theorem State.progress_land (p : BitVec 4) : (s.progress p).land = s.land := rfl
@[simp] theorem State.progress_shoal (p : BitVec 4) : (s.progress p).shoal = s.shoal := rfl
@[simp] theorem State.progress_aud (p : BitVec 4) : (s.progress p).aud = s.aud := rfl
@[simp] theorem State.progress_reef (p : BitVec 4) : (s.progress p).reef = s.reef := rfl
@[simp] theorem State.progress_mmp (p : BitVec 4) : (s.progress p).mmp = s.mmp := rfl
@[simp] theorem State.progress_fap (p : BitVec 4) : (s.progress p).fap = s.fap := rfl
@[simp] theorem State.progress_mmpGen (p : BitVec 4) : (s.progress p).mmpGen = s.mmpGen := rfl
@[simp] theorem State.progress_fapGen (p : BitVec 4) : (s.progress p).fapGen = s.fapGen := rfl
@[simp] theorem State.progress_rst (p : BitVec 4) : (s.progress p).rst = s.rst := rfl
@[simp] theorem State.progress_time (p : BitVec 4) : (s.progress p).time = s.time := rfl
@[simp] theorem State.progress_tsync (p : BitVec 4) : (s.progress p).tsync = s.tsync := rfl
@[simp] theorem State.progress_view (p : BitVec 4) : (s.progress p).view = s.view := rfl
@[simp] theorem State.progress_viewHeld (p : BitVec 4) : (s.progress p).viewHeld = s.viewHeld := rfl
@[simp] theorem State.progress_pwr (p : BitVec 4) : (s.progress p).pwr = s.pwr := rfl
@[simp] theorem State.progress_bcon (p : BitVec 4) : (s.progress p).bcon = s.bcon := rfl
@[simp] theorem State.progress_cw (p : BitVec 4) : (s.progress p).cw = s.cw := rfl
@[simp] theorem State.progress_keep (p : BitVec 4) : (s.progress p).keep = s.keep := rfl
@[simp] theorem State.progress_test (p : BitVec 4) : (s.progress p).test = s.test := rfl

/-! ## setCore -/

@[simp] theorem State.setCore_pending (k : BitVec 4) (c : Core) : (s.setCore k c).pending = s.pending := rfl
@[simp] theorem State.setCore_freeCtr (k : BitVec 4) (c : Core) : (s.setCore k c).freeCtr = s.freeCtr := rfl
@[simp] theorem State.setCore_cclk (k : BitVec 4) (c : Core) : (s.setCore k c).cclk = s.cclk := rfl
@[simp] theorem State.setCore_ecpCount (k : BitVec 4) (c : Core) : (s.setCore k c).ecpCount = s.ecpCount := rfl
@[simp] theorem State.setCore_cwMap (k : BitVec 4) (c : Core) : (s.setCore k c).cwMap = s.cwMap := rfl
@[simp] theorem State.setCore_keepStore (k : BitVec 4) (c : Core) : (s.setCore k c).keepStore = s.keepStore := rfl
@[simp] theorem State.setCore_regs (k : BitVec 4) (c : Core) : (s.setCore k c).regs = s.regs := rfl
@[simp] theorem State.setCore_rdp (k : BitVec 4) (c : Core) : (s.setCore k c).rdp = s.rdp := rfl
@[simp] theorem State.setCore_fpmA (k : BitVec 4) (c : Core) : (s.setCore k c).fpmA = s.fpmA := rfl
@[simp] theorem State.setCore_fpmB (k : BitVec 4) (c : Core) : (s.setCore k c).fpmB = s.fpmB := rfl
@[simp] theorem State.setCore_pmapA (k : BitVec 4) (c : Core) : (s.setCore k c).pmapA = s.pmapA := rfl
@[simp] theorem State.setCore_pmapB (k : BitVec 4) (c : Core) : (s.setCore k c).pmapB = s.pmapB := rfl
@[simp] theorem State.setCore_streams (k : BitVec 4) (c : Core) : (s.setCore k c).streams = s.streams := rfl
@[simp] theorem State.setCore_entries (k : BitVec 4) (c : Core) : (s.setCore k c).entries = s.entries := rfl
@[simp] theorem State.setCore_fetch (k : BitVec 4) (c : Core) : (s.setCore k c).fetch = s.fetch := rfl
@[simp] theorem State.setCore_ferry (k : BitVec 4) (c : Core) : (s.setCore k c).ferry = s.ferry := rfl
@[simp] theorem State.setCore_harb (k : BitVec 4) (c : Core) : (s.setCore k c).harb = s.harb := rfl
@[simp] theorem State.setCore_disp (k : BitVec 4) (c : Core) : (s.setCore k c).disp = s.disp := rfl
@[simp] theorem State.setCore_ports (k : BitVec 4) (c : Core) : (s.setCore k c).ports = s.ports := rfl
@[simp] theorem State.setCore_scales (k : BitVec 4) (c : Core) : (s.setCore k c).scales = s.scales := rfl
@[simp] theorem State.setCore_lhse (k : BitVec 4) (c : Core) : (s.setCore k c).lhse = s.lhse := rfl
@[simp] theorem State.setCore_trace (k : BitVec 4) (c : Core) : (s.setCore k c).trace = s.trace := rfl
@[simp] theorem State.setCore_progT (k : BitVec 4) (c : Core) : (s.setCore k c).progT = s.progT := rfl
@[simp] theorem State.setCore_sync (k : BitVec 4) (c : Core) : (s.setCore k c).sync = s.sync := rfl
@[simp] theorem State.setCore_land (k : BitVec 4) (c : Core) : (s.setCore k c).land = s.land := rfl
@[simp] theorem State.setCore_shoal (k : BitVec 4) (c : Core) : (s.setCore k c).shoal = s.shoal := rfl
@[simp] theorem State.setCore_aud (k : BitVec 4) (c : Core) : (s.setCore k c).aud = s.aud := rfl
@[simp] theorem State.setCore_reef (k : BitVec 4) (c : Core) : (s.setCore k c).reef = s.reef := rfl
@[simp] theorem State.setCore_mmp (k : BitVec 4) (c : Core) : (s.setCore k c).mmp = s.mmp := rfl
@[simp] theorem State.setCore_fap (k : BitVec 4) (c : Core) : (s.setCore k c).fap = s.fap := rfl
@[simp] theorem State.setCore_mmpGen (k : BitVec 4) (c : Core) : (s.setCore k c).mmpGen = s.mmpGen := rfl
@[simp] theorem State.setCore_fapGen (k : BitVec 4) (c : Core) : (s.setCore k c).fapGen = s.fapGen := rfl
@[simp] theorem State.setCore_rst (k : BitVec 4) (c : Core) : (s.setCore k c).rst = s.rst := rfl
@[simp] theorem State.setCore_time (k : BitVec 4) (c : Core) : (s.setCore k c).time = s.time := rfl
@[simp] theorem State.setCore_tsync (k : BitVec 4) (c : Core) : (s.setCore k c).tsync = s.tsync := rfl
@[simp] theorem State.setCore_view (k : BitVec 4) (c : Core) : (s.setCore k c).view = s.view := rfl
@[simp] theorem State.setCore_viewHeld (k : BitVec 4) (c : Core) : (s.setCore k c).viewHeld = s.viewHeld := rfl
@[simp] theorem State.setCore_pwr (k : BitVec 4) (c : Core) : (s.setCore k c).pwr = s.pwr := rfl
@[simp] theorem State.setCore_bcon (k : BitVec 4) (c : Core) : (s.setCore k c).bcon = s.bcon := rfl
@[simp] theorem State.setCore_cw (k : BitVec 4) (c : Core) : (s.setCore k c).cw = s.cw := rfl
@[simp] theorem State.setCore_keep (k : BitVec 4) (c : Core) : (s.setCore k c).keep = s.keep := rfl
@[simp] theorem State.setCore_test (k : BitVec 4) (c : Core) : (s.setCore k c).test = s.test := rfl

/-! ## setThread -/

@[simp] theorem State.setThread_pending (k : BitVec 4) (t : BitVec 3) (th : Thread) : (s.setThread k t th).pending = s.pending := rfl
@[simp] theorem State.setThread_freeCtr (k : BitVec 4) (t : BitVec 3) (th : Thread) : (s.setThread k t th).freeCtr = s.freeCtr := rfl
@[simp] theorem State.setThread_cclk (k : BitVec 4) (t : BitVec 3) (th : Thread) : (s.setThread k t th).cclk = s.cclk := rfl
@[simp] theorem State.setThread_ecpCount (k : BitVec 4) (t : BitVec 3) (th : Thread) : (s.setThread k t th).ecpCount = s.ecpCount := rfl
@[simp] theorem State.setThread_cwMap (k : BitVec 4) (t : BitVec 3) (th : Thread) : (s.setThread k t th).cwMap = s.cwMap := rfl
@[simp] theorem State.setThread_keepStore (k : BitVec 4) (t : BitVec 3) (th : Thread) : (s.setThread k t th).keepStore = s.keepStore := rfl
@[simp] theorem State.setThread_regs (k : BitVec 4) (t : BitVec 3) (th : Thread) : (s.setThread k t th).regs = s.regs := rfl
@[simp] theorem State.setThread_rdp (k : BitVec 4) (t : BitVec 3) (th : Thread) : (s.setThread k t th).rdp = s.rdp := rfl
@[simp] theorem State.setThread_fpmA (k : BitVec 4) (t : BitVec 3) (th : Thread) : (s.setThread k t th).fpmA = s.fpmA := rfl
@[simp] theorem State.setThread_fpmB (k : BitVec 4) (t : BitVec 3) (th : Thread) : (s.setThread k t th).fpmB = s.fpmB := rfl
@[simp] theorem State.setThread_pmapA (k : BitVec 4) (t : BitVec 3) (th : Thread) : (s.setThread k t th).pmapA = s.pmapA := rfl
@[simp] theorem State.setThread_pmapB (k : BitVec 4) (t : BitVec 3) (th : Thread) : (s.setThread k t th).pmapB = s.pmapB := rfl
@[simp] theorem State.setThread_streams (k : BitVec 4) (t : BitVec 3) (th : Thread) : (s.setThread k t th).streams = s.streams := rfl
@[simp] theorem State.setThread_entries (k : BitVec 4) (t : BitVec 3) (th : Thread) : (s.setThread k t th).entries = s.entries := rfl
@[simp] theorem State.setThread_fetch (k : BitVec 4) (t : BitVec 3) (th : Thread) : (s.setThread k t th).fetch = s.fetch := rfl
@[simp] theorem State.setThread_ferry (k : BitVec 4) (t : BitVec 3) (th : Thread) : (s.setThread k t th).ferry = s.ferry := rfl
@[simp] theorem State.setThread_harb (k : BitVec 4) (t : BitVec 3) (th : Thread) : (s.setThread k t th).harb = s.harb := rfl
@[simp] theorem State.setThread_disp (k : BitVec 4) (t : BitVec 3) (th : Thread) : (s.setThread k t th).disp = s.disp := rfl
@[simp] theorem State.setThread_ports (k : BitVec 4) (t : BitVec 3) (th : Thread) : (s.setThread k t th).ports = s.ports := rfl
@[simp] theorem State.setThread_scales (k : BitVec 4) (t : BitVec 3) (th : Thread) : (s.setThread k t th).scales = s.scales := rfl
@[simp] theorem State.setThread_lhse (k : BitVec 4) (t : BitVec 3) (th : Thread) : (s.setThread k t th).lhse = s.lhse := rfl
@[simp] theorem State.setThread_trace (k : BitVec 4) (t : BitVec 3) (th : Thread) : (s.setThread k t th).trace = s.trace := rfl
@[simp] theorem State.setThread_progT (k : BitVec 4) (t : BitVec 3) (th : Thread) : (s.setThread k t th).progT = s.progT := rfl
@[simp] theorem State.setThread_sync (k : BitVec 4) (t : BitVec 3) (th : Thread) : (s.setThread k t th).sync = s.sync := rfl
@[simp] theorem State.setThread_land (k : BitVec 4) (t : BitVec 3) (th : Thread) : (s.setThread k t th).land = s.land := rfl
@[simp] theorem State.setThread_shoal (k : BitVec 4) (t : BitVec 3) (th : Thread) : (s.setThread k t th).shoal = s.shoal := rfl
@[simp] theorem State.setThread_aud (k : BitVec 4) (t : BitVec 3) (th : Thread) : (s.setThread k t th).aud = s.aud := rfl
@[simp] theorem State.setThread_reef (k : BitVec 4) (t : BitVec 3) (th : Thread) : (s.setThread k t th).reef = s.reef := rfl
@[simp] theorem State.setThread_mmp (k : BitVec 4) (t : BitVec 3) (th : Thread) : (s.setThread k t th).mmp = s.mmp := rfl
@[simp] theorem State.setThread_fap (k : BitVec 4) (t : BitVec 3) (th : Thread) : (s.setThread k t th).fap = s.fap := rfl
@[simp] theorem State.setThread_mmpGen (k : BitVec 4) (t : BitVec 3) (th : Thread) : (s.setThread k t th).mmpGen = s.mmpGen := rfl
@[simp] theorem State.setThread_fapGen (k : BitVec 4) (t : BitVec 3) (th : Thread) : (s.setThread k t th).fapGen = s.fapGen := rfl
@[simp] theorem State.setThread_rst (k : BitVec 4) (t : BitVec 3) (th : Thread) : (s.setThread k t th).rst = s.rst := rfl
@[simp] theorem State.setThread_time (k : BitVec 4) (t : BitVec 3) (th : Thread) : (s.setThread k t th).time = s.time := rfl
@[simp] theorem State.setThread_tsync (k : BitVec 4) (t : BitVec 3) (th : Thread) : (s.setThread k t th).tsync = s.tsync := rfl
@[simp] theorem State.setThread_view (k : BitVec 4) (t : BitVec 3) (th : Thread) : (s.setThread k t th).view = s.view := rfl
@[simp] theorem State.setThread_viewHeld (k : BitVec 4) (t : BitVec 3) (th : Thread) : (s.setThread k t th).viewHeld = s.viewHeld := rfl
@[simp] theorem State.setThread_pwr (k : BitVec 4) (t : BitVec 3) (th : Thread) : (s.setThread k t th).pwr = s.pwr := rfl
@[simp] theorem State.setThread_bcon (k : BitVec 4) (t : BitVec 3) (th : Thread) : (s.setThread k t th).bcon = s.bcon := rfl
@[simp] theorem State.setThread_cw (k : BitVec 4) (t : BitVec 3) (th : Thread) : (s.setThread k t th).cw = s.cw := rfl
@[simp] theorem State.setThread_keep (k : BitVec 4) (t : BitVec 3) (th : Thread) : (s.setThread k t th).keep = s.keep := rfl
@[simp] theorem State.setThread_test (k : BitVec 4) (t : BitVec 3) (th : Thread) : (s.setThread k t th).test = s.test := rfl

/-! ## setReg -/

@[simp] theorem State.setReg_pending (k : BitVec 4) (t : BitVec 3) (n : Nat) (v : Dword) : (s.setReg k t n v).pending = s.pending := rfl
@[simp] theorem State.setReg_freeCtr (k : BitVec 4) (t : BitVec 3) (n : Nat) (v : Dword) : (s.setReg k t n v).freeCtr = s.freeCtr := rfl
@[simp] theorem State.setReg_cclk (k : BitVec 4) (t : BitVec 3) (n : Nat) (v : Dword) : (s.setReg k t n v).cclk = s.cclk := rfl
@[simp] theorem State.setReg_ecpCount (k : BitVec 4) (t : BitVec 3) (n : Nat) (v : Dword) : (s.setReg k t n v).ecpCount = s.ecpCount := rfl
@[simp] theorem State.setReg_cwMap (k : BitVec 4) (t : BitVec 3) (n : Nat) (v : Dword) : (s.setReg k t n v).cwMap = s.cwMap := rfl
@[simp] theorem State.setReg_keepStore (k : BitVec 4) (t : BitVec 3) (n : Nat) (v : Dword) : (s.setReg k t n v).keepStore = s.keepStore := rfl
@[simp] theorem State.setReg_regs (k : BitVec 4) (t : BitVec 3) (n : Nat) (v : Dword) : (s.setReg k t n v).regs = s.regs := rfl
@[simp] theorem State.setReg_rdp (k : BitVec 4) (t : BitVec 3) (n : Nat) (v : Dword) : (s.setReg k t n v).rdp = s.rdp := rfl
@[simp] theorem State.setReg_fpmA (k : BitVec 4) (t : BitVec 3) (n : Nat) (v : Dword) : (s.setReg k t n v).fpmA = s.fpmA := rfl
@[simp] theorem State.setReg_fpmB (k : BitVec 4) (t : BitVec 3) (n : Nat) (v : Dword) : (s.setReg k t n v).fpmB = s.fpmB := rfl
@[simp] theorem State.setReg_pmapA (k : BitVec 4) (t : BitVec 3) (n : Nat) (v : Dword) : (s.setReg k t n v).pmapA = s.pmapA := rfl
@[simp] theorem State.setReg_pmapB (k : BitVec 4) (t : BitVec 3) (n : Nat) (v : Dword) : (s.setReg k t n v).pmapB = s.pmapB := rfl
@[simp] theorem State.setReg_streams (k : BitVec 4) (t : BitVec 3) (n : Nat) (v : Dword) : (s.setReg k t n v).streams = s.streams := rfl
@[simp] theorem State.setReg_entries (k : BitVec 4) (t : BitVec 3) (n : Nat) (v : Dword) : (s.setReg k t n v).entries = s.entries := rfl
@[simp] theorem State.setReg_fetch (k : BitVec 4) (t : BitVec 3) (n : Nat) (v : Dword) : (s.setReg k t n v).fetch = s.fetch := rfl
@[simp] theorem State.setReg_ferry (k : BitVec 4) (t : BitVec 3) (n : Nat) (v : Dword) : (s.setReg k t n v).ferry = s.ferry := rfl
@[simp] theorem State.setReg_harb (k : BitVec 4) (t : BitVec 3) (n : Nat) (v : Dword) : (s.setReg k t n v).harb = s.harb := rfl
@[simp] theorem State.setReg_disp (k : BitVec 4) (t : BitVec 3) (n : Nat) (v : Dword) : (s.setReg k t n v).disp = s.disp := rfl
@[simp] theorem State.setReg_ports (k : BitVec 4) (t : BitVec 3) (n : Nat) (v : Dword) : (s.setReg k t n v).ports = s.ports := rfl
@[simp] theorem State.setReg_scales (k : BitVec 4) (t : BitVec 3) (n : Nat) (v : Dword) : (s.setReg k t n v).scales = s.scales := rfl
@[simp] theorem State.setReg_lhse (k : BitVec 4) (t : BitVec 3) (n : Nat) (v : Dword) : (s.setReg k t n v).lhse = s.lhse := rfl
@[simp] theorem State.setReg_trace (k : BitVec 4) (t : BitVec 3) (n : Nat) (v : Dword) : (s.setReg k t n v).trace = s.trace := rfl
@[simp] theorem State.setReg_progT (k : BitVec 4) (t : BitVec 3) (n : Nat) (v : Dword) : (s.setReg k t n v).progT = s.progT := rfl
@[simp] theorem State.setReg_sync (k : BitVec 4) (t : BitVec 3) (n : Nat) (v : Dword) : (s.setReg k t n v).sync = s.sync := rfl
@[simp] theorem State.setReg_land (k : BitVec 4) (t : BitVec 3) (n : Nat) (v : Dword) : (s.setReg k t n v).land = s.land := rfl
@[simp] theorem State.setReg_shoal (k : BitVec 4) (t : BitVec 3) (n : Nat) (v : Dword) : (s.setReg k t n v).shoal = s.shoal := rfl
@[simp] theorem State.setReg_aud (k : BitVec 4) (t : BitVec 3) (n : Nat) (v : Dword) : (s.setReg k t n v).aud = s.aud := rfl
@[simp] theorem State.setReg_reef (k : BitVec 4) (t : BitVec 3) (n : Nat) (v : Dword) : (s.setReg k t n v).reef = s.reef := rfl
@[simp] theorem State.setReg_mmp (k : BitVec 4) (t : BitVec 3) (n : Nat) (v : Dword) : (s.setReg k t n v).mmp = s.mmp := rfl
@[simp] theorem State.setReg_fap (k : BitVec 4) (t : BitVec 3) (n : Nat) (v : Dword) : (s.setReg k t n v).fap = s.fap := rfl
@[simp] theorem State.setReg_mmpGen (k : BitVec 4) (t : BitVec 3) (n : Nat) (v : Dword) : (s.setReg k t n v).mmpGen = s.mmpGen := rfl
@[simp] theorem State.setReg_fapGen (k : BitVec 4) (t : BitVec 3) (n : Nat) (v : Dword) : (s.setReg k t n v).fapGen = s.fapGen := rfl
@[simp] theorem State.setReg_rst (k : BitVec 4) (t : BitVec 3) (n : Nat) (v : Dword) : (s.setReg k t n v).rst = s.rst := rfl
@[simp] theorem State.setReg_time (k : BitVec 4) (t : BitVec 3) (n : Nat) (v : Dword) : (s.setReg k t n v).time = s.time := rfl
@[simp] theorem State.setReg_tsync (k : BitVec 4) (t : BitVec 3) (n : Nat) (v : Dword) : (s.setReg k t n v).tsync = s.tsync := rfl
@[simp] theorem State.setReg_view (k : BitVec 4) (t : BitVec 3) (n : Nat) (v : Dword) : (s.setReg k t n v).view = s.view := rfl
@[simp] theorem State.setReg_viewHeld (k : BitVec 4) (t : BitVec 3) (n : Nat) (v : Dword) : (s.setReg k t n v).viewHeld = s.viewHeld := rfl
@[simp] theorem State.setReg_pwr (k : BitVec 4) (t : BitVec 3) (n : Nat) (v : Dword) : (s.setReg k t n v).pwr = s.pwr := rfl
@[simp] theorem State.setReg_bcon (k : BitVec 4) (t : BitVec 3) (n : Nat) (v : Dword) : (s.setReg k t n v).bcon = s.bcon := rfl
@[simp] theorem State.setReg_cw (k : BitVec 4) (t : BitVec 3) (n : Nat) (v : Dword) : (s.setReg k t n v).cw = s.cw := rfl
@[simp] theorem State.setReg_keep (k : BitVec 4) (t : BitVec 3) (n : Nat) (v : Dword) : (s.setReg k t n v).keep = s.keep := rfl
@[simp] theorem State.setReg_test (k : BitVec 4) (t : BitVec 3) (n : Nat) (v : Dword) : (s.setReg k t n v).test = s.test := rfl

/-! ## setPort -/

@[simp] theorem State.setPort_pending (n : Nat) (p : Port) : (s.setPort n p).pending = s.pending := rfl
@[simp] theorem State.setPort_freeCtr (n : Nat) (p : Port) : (s.setPort n p).freeCtr = s.freeCtr := rfl
@[simp] theorem State.setPort_cclk (n : Nat) (p : Port) : (s.setPort n p).cclk = s.cclk := rfl
@[simp] theorem State.setPort_ecpCount (n : Nat) (p : Port) : (s.setPort n p).ecpCount = s.ecpCount := rfl
@[simp] theorem State.setPort_cwMap (n : Nat) (p : Port) : (s.setPort n p).cwMap = s.cwMap := rfl
@[simp] theorem State.setPort_keepStore (n : Nat) (p : Port) : (s.setPort n p).keepStore = s.keepStore := rfl
@[simp] theorem State.setPort_regs (n : Nat) (p : Port) : (s.setPort n p).regs = s.regs := rfl
@[simp] theorem State.setPort_rdp (n : Nat) (p : Port) : (s.setPort n p).rdp = s.rdp := rfl
@[simp] theorem State.setPort_fpmA (n : Nat) (p : Port) : (s.setPort n p).fpmA = s.fpmA := rfl
@[simp] theorem State.setPort_fpmB (n : Nat) (p : Port) : (s.setPort n p).fpmB = s.fpmB := rfl
@[simp] theorem State.setPort_pmapA (n : Nat) (p : Port) : (s.setPort n p).pmapA = s.pmapA := rfl
@[simp] theorem State.setPort_pmapB (n : Nat) (p : Port) : (s.setPort n p).pmapB = s.pmapB := rfl
@[simp] theorem State.setPort_streams (n : Nat) (p : Port) : (s.setPort n p).streams = s.streams := rfl
@[simp] theorem State.setPort_entries (n : Nat) (p : Port) : (s.setPort n p).entries = s.entries := rfl
@[simp] theorem State.setPort_fetch (n : Nat) (p : Port) : (s.setPort n p).fetch = s.fetch := rfl
@[simp] theorem State.setPort_ferry (n : Nat) (p : Port) : (s.setPort n p).ferry = s.ferry := rfl
@[simp] theorem State.setPort_harb (n : Nat) (p : Port) : (s.setPort n p).harb = s.harb := rfl
@[simp] theorem State.setPort_cores (n : Nat) (p : Port) : (s.setPort n p).cores = s.cores := rfl
@[simp] theorem State.setPort_disp (n : Nat) (p : Port) : (s.setPort n p).disp = s.disp := rfl
@[simp] theorem State.setPort_scales (n : Nat) (p : Port) : (s.setPort n p).scales = s.scales := rfl
@[simp] theorem State.setPort_lhse (n : Nat) (p : Port) : (s.setPort n p).lhse = s.lhse := rfl
@[simp] theorem State.setPort_trace (n : Nat) (p : Port) : (s.setPort n p).trace = s.trace := rfl
@[simp] theorem State.setPort_progT (n : Nat) (p : Port) : (s.setPort n p).progT = s.progT := rfl
@[simp] theorem State.setPort_sync (n : Nat) (p : Port) : (s.setPort n p).sync = s.sync := rfl
@[simp] theorem State.setPort_land (n : Nat) (p : Port) : (s.setPort n p).land = s.land := rfl
@[simp] theorem State.setPort_shoal (n : Nat) (p : Port) : (s.setPort n p).shoal = s.shoal := rfl
@[simp] theorem State.setPort_aud (n : Nat) (p : Port) : (s.setPort n p).aud = s.aud := rfl
@[simp] theorem State.setPort_reef (n : Nat) (p : Port) : (s.setPort n p).reef = s.reef := rfl
@[simp] theorem State.setPort_mmp (n : Nat) (p : Port) : (s.setPort n p).mmp = s.mmp := rfl
@[simp] theorem State.setPort_fap (n : Nat) (p : Port) : (s.setPort n p).fap = s.fap := rfl
@[simp] theorem State.setPort_mmpGen (n : Nat) (p : Port) : (s.setPort n p).mmpGen = s.mmpGen := rfl
@[simp] theorem State.setPort_fapGen (n : Nat) (p : Port) : (s.setPort n p).fapGen = s.fapGen := rfl
@[simp] theorem State.setPort_rst (n : Nat) (p : Port) : (s.setPort n p).rst = s.rst := rfl
@[simp] theorem State.setPort_time (n : Nat) (p : Port) : (s.setPort n p).time = s.time := rfl
@[simp] theorem State.setPort_tsync (n : Nat) (p : Port) : (s.setPort n p).tsync = s.tsync := rfl
@[simp] theorem State.setPort_view (n : Nat) (p : Port) : (s.setPort n p).view = s.view := rfl
@[simp] theorem State.setPort_viewHeld (n : Nat) (p : Port) : (s.setPort n p).viewHeld = s.viewHeld := rfl
@[simp] theorem State.setPort_pwr (n : Nat) (p : Port) : (s.setPort n p).pwr = s.pwr := rfl
@[simp] theorem State.setPort_bcon (n : Nat) (p : Port) : (s.setPort n p).bcon = s.bcon := rfl
@[simp] theorem State.setPort_cw (n : Nat) (p : Port) : (s.setPort n p).cw = s.cw := rfl
@[simp] theorem State.setPort_keep (n : Nat) (p : Port) : (s.setPort n p).keep = s.keep := rfl
@[simp] theorem State.setPort_test (n : Nat) (p : Port) : (s.setPort n p).test = s.test := rfl

/-! ## answerRdp -/

@[simp] theorem State.answerRdp_pending (d : Dword) (e : BitVec 3) : (s.answerRdp d e).pending = s.pending := rfl
@[simp] theorem State.answerRdp_freeCtr (d : Dword) (e : BitVec 3) : (s.answerRdp d e).freeCtr = s.freeCtr := rfl
@[simp] theorem State.answerRdp_cclk (d : Dword) (e : BitVec 3) : (s.answerRdp d e).cclk = s.cclk := rfl
@[simp] theorem State.answerRdp_ecpCount (d : Dword) (e : BitVec 3) : (s.answerRdp d e).ecpCount = s.ecpCount := rfl
@[simp] theorem State.answerRdp_cwMap (d : Dword) (e : BitVec 3) : (s.answerRdp d e).cwMap = s.cwMap := rfl
@[simp] theorem State.answerRdp_keepStore (d : Dword) (e : BitVec 3) : (s.answerRdp d e).keepStore = s.keepStore := rfl
@[simp] theorem State.answerRdp_regs (d : Dword) (e : BitVec 3) : (s.answerRdp d e).regs = s.regs := rfl
@[simp] theorem State.answerRdp_fpmA (d : Dword) (e : BitVec 3) : (s.answerRdp d e).fpmA = s.fpmA := rfl
@[simp] theorem State.answerRdp_fpmB (d : Dword) (e : BitVec 3) : (s.answerRdp d e).fpmB = s.fpmB := rfl
@[simp] theorem State.answerRdp_pmapA (d : Dword) (e : BitVec 3) : (s.answerRdp d e).pmapA = s.pmapA := rfl
@[simp] theorem State.answerRdp_pmapB (d : Dword) (e : BitVec 3) : (s.answerRdp d e).pmapB = s.pmapB := rfl
@[simp] theorem State.answerRdp_streams (d : Dword) (e : BitVec 3) : (s.answerRdp d e).streams = s.streams := rfl
@[simp] theorem State.answerRdp_entries (d : Dword) (e : BitVec 3) : (s.answerRdp d e).entries = s.entries := rfl
@[simp] theorem State.answerRdp_fetch (d : Dword) (e : BitVec 3) : (s.answerRdp d e).fetch = s.fetch := rfl
@[simp] theorem State.answerRdp_ferry (d : Dword) (e : BitVec 3) : (s.answerRdp d e).ferry = s.ferry := rfl
@[simp] theorem State.answerRdp_harb (d : Dword) (e : BitVec 3) : (s.answerRdp d e).harb = s.harb := rfl
@[simp] theorem State.answerRdp_cores (d : Dword) (e : BitVec 3) : (s.answerRdp d e).cores = s.cores := rfl
@[simp] theorem State.answerRdp_disp (d : Dword) (e : BitVec 3) : (s.answerRdp d e).disp = s.disp := rfl
@[simp] theorem State.answerRdp_ports (d : Dword) (e : BitVec 3) : (s.answerRdp d e).ports = s.ports := rfl
@[simp] theorem State.answerRdp_scales (d : Dword) (e : BitVec 3) : (s.answerRdp d e).scales = s.scales := rfl
@[simp] theorem State.answerRdp_lhse (d : Dword) (e : BitVec 3) : (s.answerRdp d e).lhse = s.lhse := rfl
@[simp] theorem State.answerRdp_trace (d : Dword) (e : BitVec 3) : (s.answerRdp d e).trace = s.trace := rfl
@[simp] theorem State.answerRdp_progT (d : Dword) (e : BitVec 3) : (s.answerRdp d e).progT = s.progT := rfl
@[simp] theorem State.answerRdp_sync (d : Dword) (e : BitVec 3) : (s.answerRdp d e).sync = s.sync := rfl
@[simp] theorem State.answerRdp_land (d : Dword) (e : BitVec 3) : (s.answerRdp d e).land = s.land := rfl
@[simp] theorem State.answerRdp_shoal (d : Dword) (e : BitVec 3) : (s.answerRdp d e).shoal = s.shoal := rfl
@[simp] theorem State.answerRdp_aud (d : Dword) (e : BitVec 3) : (s.answerRdp d e).aud = s.aud := rfl
@[simp] theorem State.answerRdp_reef (d : Dword) (e : BitVec 3) : (s.answerRdp d e).reef = s.reef := rfl
@[simp] theorem State.answerRdp_mmp (d : Dword) (e : BitVec 3) : (s.answerRdp d e).mmp = s.mmp := rfl
@[simp] theorem State.answerRdp_fap (d : Dword) (e : BitVec 3) : (s.answerRdp d e).fap = s.fap := rfl
@[simp] theorem State.answerRdp_mmpGen (d : Dword) (e : BitVec 3) : (s.answerRdp d e).mmpGen = s.mmpGen := rfl
@[simp] theorem State.answerRdp_fapGen (d : Dword) (e : BitVec 3) : (s.answerRdp d e).fapGen = s.fapGen := rfl
@[simp] theorem State.answerRdp_rst (d : Dword) (e : BitVec 3) : (s.answerRdp d e).rst = s.rst := rfl
@[simp] theorem State.answerRdp_time (d : Dword) (e : BitVec 3) : (s.answerRdp d e).time = s.time := rfl
@[simp] theorem State.answerRdp_tsync (d : Dword) (e : BitVec 3) : (s.answerRdp d e).tsync = s.tsync := rfl
@[simp] theorem State.answerRdp_view (d : Dword) (e : BitVec 3) : (s.answerRdp d e).view = s.view := rfl
@[simp] theorem State.answerRdp_viewHeld (d : Dword) (e : BitVec 3) : (s.answerRdp d e).viewHeld = s.viewHeld := rfl
@[simp] theorem State.answerRdp_pwr (d : Dword) (e : BitVec 3) : (s.answerRdp d e).pwr = s.pwr := rfl
@[simp] theorem State.answerRdp_bcon (d : Dword) (e : BitVec 3) : (s.answerRdp d e).bcon = s.bcon := rfl
@[simp] theorem State.answerRdp_cw (d : Dword) (e : BitVec 3) : (s.answerRdp d e).cw = s.cw := rfl
@[simp] theorem State.answerRdp_keep (d : Dword) (e : BitVec 3) : (s.answerRdp d e).keep = s.keep := rfl
@[simp] theorem State.answerRdp_test (d : Dword) (e : BitVec 3) : (s.answerRdp d e).test = s.test := rfl

/-! ## Reads after writes -/

variable {s}

/-- A register word after a write of a register. -/
theorem State.rd_wr (h : Tbl.wf regReset s.regs = true) (key key' : Nat) (v : Word) :
    (s.wr key v).rd key' = if key' = key then v else s.rd key' := Tbl.get_set h

/-- A stream after a write of a stream. -/
theorem State.stream_setStream (h : Tbl.wf (fun _ => StreamE.reset) s.streams = true) (n n' : BitVec 14) (v : StreamE) :
    (s.setStream n v).stream n' = if n' = n then v else s.stream n' := by
  simp only [State.stream, State.setStream, Tbl.get_set h, ← BitVec.toNat_eq]

/-- A slot after a write of a slot. -/
theorem State.slot_setSlot (h : Tbl.wf (fun _ => Slot.reset) s.harb.slots = true) (k k' : Nat) (v : Slot) :
    (s.setSlot k v).slot k' = if k' = k then v else s.slot k' := Tbl.get_set h

/-- A port after a write of a port. -/
theorem State.port_setPort (h : Tbl.wf (fun _ => Port.reset) s.ports = true) (n n' : Nat) (p : Port) :
    (s.setPort n p).port n' = if n' = n then p else s.port n' := Tbl.get_set h

/-- A core after a write of a core. -/
theorem State.core_setCore (h : Tbl.wf (fun _ => Core.reset) s.cores = true) (k k' : BitVec 4) (c : Core) :
    (s.setCore k c).core k' = if k' = k then c else s.core k' := by
  simp only [State.core, State.setCore, Tbl.get_set h, ← BitVec.toNat_eq]

/-- Two names of entries with one place are equal. -/
theorem EKey.idx_inj {a b : EKey} (h : a.idx = b.idx) : a = b := by
  obtain ⟨n, q⟩ := a
  obtain ⟨n', q'⟩ := b
  have := q.isLt
  have := q'.isLt
  simp only [EKey.idx] at h
  have h1 : n.toNat = n'.toNat := by omega
  have h2 : q.toNat = q'.toNat := by omega
  simp [BitVec.toNat_eq, h1, h2]

/-- An entry after a write of an entry. -/
theorem State.entry_setEntry (h : Tbl.wf (fun _ => none) s.entries = true) (k k' : EKey) (v : Option Entry) :
    (s.setEntry k v).entry k' = if k' = k then v else s.entry k' := by
  simp only [State.entry, State.setEntry, Tbl.get_set h]
  by_cases hk : k' = k
  · simp [hk]
  · have : ¬k'.idx = k.idx := fun h => hk (EKey.idx_inj h)
    simp [hk, this]

/-- A field of a word after a field has been put into it. -/
theorem getLsbD_putBits {n w : Nat} (x : BitVec n) (lo : Nat) (v : BitVec w) (i : Nat) :
    (putBits x lo v).getLsbD i = (decide (i < n) && (if lo ≤ i ∧ i < lo + w then v.getLsbD (i - lo) else x.getLsbD i)) := by
  unfold putBits
  simp only [BitVec.getLsbD_or, BitVec.getLsbD_and, BitVec.getLsbD_not, BitVec.getLsbD_shiftLeft, BitVec.getLsbD_setWidth,
    BitVec.getLsbD_allOnes]
  by_cases h1 : i < n <;> by_cases h2 : lo ≤ i <;> by_cases h3 : i < lo + w <;> simp [h1, h2, h3] <;> grind

end Sys2Proof.Machine
end

