-- ==== Sys2Proof/Laws/Access.lean ====
section
/-! SUPPORT. What a privileged write of a register does once it is admitted (Machine/Rdp.lean): it is the write of one word. -/
set_option linter.all false
namespace Sys2Proof.Machine

variable {s : State} {tag : BitVec 13} {slot inst : Nat} {k : PageKind}

/-- The high word of a pair. -/
theorem word_hi (v : Word) : (v ++ 0#32).extractLsb' 32 32 = v := by
  apply BitVec.eq_of_getLsbD_eq
  intro i hi
  simp only [BitVec.getLsbD_extractLsb', BitVec.getLsbD_append, hi, decide_true, Bool.true_and]
  rw [if_neg (by omega)]
  simp

/-- The low word of a pair. -/
theorem word_lo (v : Word) : (0#32 ++ v).extractLsb' 0 32 = v := by
  apply BitVec.eq_of_getLsbD_eq
  intro i hi
  simp only [BitVec.getLsbD_extractLsb', BitVec.getLsbD_append, hi, decide_true, Bool.true_and]
  rw [if_pos (by omega)]
  simp

/-- The slots that hold pages are the first 256. -/
theorem slot_lt (h : pageAt slot = some (k, inst)) : slot < 256 := by
  refine Nat.lt_of_not_le fun hn => ?_
  have : pageAt slot = none := by
    unfold pageAt
    split <;> first | omega | skip
    repeat' split
    all_goals first | omega | rfl
  simp [this] at h

/-- The region of a register of a page. -/
theorem regionOf_page (h : pageAt slot = some (k, inst)) {off : Nat} (ho : off < 0x1000) :
    regionOf (pageAddr slot off) = .page slot k inst off := by
  have := slot_lt h
  unfold regionOf pageAddr
  have h1 : slot * 0x1000 + off < 0x100000 := by omega
  have h2 : (slot * 0x1000 + off) / 0x1000 = slot := by omega
  have h3 : (slot * 0x1000 + off) % 0x1000 = off := by omega
  simp only [h1, if_true, h2, h3, h]

/-- A 32-bit privileged write of a register takes effect as the write of its word. -/
theorem State.access_write32 (h : s.reaches tag slot k inst = true) {off : Nat} (ho : off < 0x1000) (h4 : off % 4 = 0)
    (ht : k = .time → off < 0x40 ∨ 0x58 ≤ off) (v : Word) :
    s.access (write32 tag (pageAddr slot off) v) = (s.wordWrite slot k inst off v).answerRdp 0 0 := by
  simp only [State.reaches, Bool.and_eq_true, decide_eq_true_eq, Bool.not_eq_true', Bool.or_eq_true] at h
  obtain ⟨⟨⟨⟨⟨⟨⟨h1, h2⟩, h3⟩, h5⟩, h6⟩, h7⟩, h8⟩, h9⟩ := h
  have hs := slot_lt h5
  have hr := regionOf_page h5 ho
  have ha : (BitVec.ofNat 26 (pageAddr slot off)).toNat = pageAddr slot off := by
    simp only [BitVec.toNat_ofNat, pageAddr]
    omega
  obtain ⟨x, hx⟩ : ∃ x, x = write32 tag (pageAddr slot off) v := ⟨_, rfl⟩
  rw [← hx]
  have x1 : x.write = true := by rw [hx]; unfold write32; split <;> rfl
  have x2 : x.tag = tag := by rw [hx]; unfold write32; split <;> rfl
  have x3 : x.addr.toNat = pageAddr slot off := by rw [hx]; unfold write32; split <;> exact ha
  have x4 : x.region = .page slot k inst off := by unfold Access.region; rw [x3, hr]
  have hmod : pageAddr slot off % 8 = off % 8 := by unfold pageAddr; omega
  have x5 : x.width = some 4 := by
    unfold Access.width
    rw [x3, hx]
    unfold write32
    by_cases h : pageAddr slot off % 8 = 4
    · simp [h]
    · have : pageAddr slot off % 8 = 0 := by omega
      simp [this]
  have x6 : x.word = v := by
    unfold Access.word
    rw [x3, hx]
    unfold write32
    by_cases h : pageAddr slot off % 8 = 4
    · simp only [h, if_true]
      exact word_hi v
    · simp only [h, if_false]
      exact word_lo v
  have hpriv : x.priv = true := by unfold Access.priv bit; rw [x2]; exact h3
  have hadm : s.admits x = true := by
    unfold State.admits
    simp only [x4, hpriv, Bool.true_or]
  have hw : x.widthOk = true := by
    unfold Access.widthOk
    simp only [x4, x5]
    by_cases hk : k = .time
    · have := ht hk
      simp only [hk, decide_true, Bool.true_and]
      simp
      omega
    · simp [hk]
  have habs : s.absentWrite x = false := by
    unfold State.absentWrite
    rw [x4]
    cases k <;> try rfl
    simp only [x1, Bool.true_and, decide_eq_false_iff_not]
    simp at h6
    omega
  have href : s.refusal x = none := by
    unfold State.refusal
    simp [x4, habs, h2, hadm, hw]
  have hid : s.idleExit = s := by
    unfold State.idleExit
    simp [h1]
  have hrdy : s.rdpReady = true := by
    unfold State.rdpReady
    simp [h1]
  unfold State.access
  simp only [hrdy, h9, Bool.not_true, Bool.false_eq_true, or_self, if_false, hid, href]
  unfold State.perform
  simp only [x1, if_true, x4]
  unfold State.pageWrite
  have : ¬(k = .time ∧ off = 0x48) := by
    rintro ⟨hk, ho⟩
    have := ht hk
    omega
  rw [if_neg this, x5, x6]
  simp

/-- The write of the word of a functional register whose page is served. -/
theorem State.wordWrite_eq (h : s.reaches tag slot k inst = true) {off : Nat} (ho : 0x40 ≤ off) {r : RegSpec} (hr : k.spec off = some r)
    (v : Word) : s.wordWrite slot k inst off v = s.regWrite slot k inst off r v := by
  simp only [State.reaches, Bool.and_eq_true, decide_eq_true_eq, Bool.not_eq_true', Bool.or_eq_true] at h
  unfold State.wordWrite
  rw [if_neg (by omega), h.1.2, h.1.1.2, hr]
  simp

end Sys2Proof.Machine
end

