-- ==== Sys2Proof/Laws/Kept.lean ====
section
/-! SUPPORT. What no command changes: the queue, the RTL parameters, and the canonical form of the sparse stores. The predicate and
the laws by which Sys2Proof/Laws/Keeps.lean shows it for every function of the model. -/
set_option linter.all false
namespace Sys2Proof.Machine

/-- The queue and the RTL parameters of a state. -/
abbrev Q4 := List Instr × Nat × BitVec 16 × Addr

/-- The parts of a state: its queue and RTL parameters are the given ones and its sparse stores are canonical. -/
structure K5 (q : Q4) (pending : List Instr) (ecpCount : Nat) (cwMap : BitVec 16) (keepStore : Addr)
    (regs : Tbl Word) (fpmA : Tbl (BitVec 16)) (fpmB : Tbl (BitVec 16)) (pmapA : Tbl (BitVec 256)) (pmapB : Tbl (BitVec 256)) (streams : Tbl StreamE) (entries : Tbl (Option Entry)) (cores : Tbl Core) (ports : Tbl Port) (scales : Tbl ScaleE) (progT : Tbl Dword) (slots : Tbl Slot) (objs : Tbl SyncObj) (watches : Tbl Watch) (mirrors : Tbl Mirror) : Prop where
  pend : pending = q.1
  ecp : ecpCount = q.2.1
  cwm : cwMap = q.2.2.1
  store : keepStore = q.2.2.2
  wregs : Tbl.wf regReset regs = true
  wfpmA : Tbl.wf (fun _ => 0#16) fpmA = true
  wfpmB : Tbl.wf (fun _ => 0#16) fpmB = true
  wpmapA : Tbl.wf (fun _ => 0#256) pmapA = true
  wpmapB : Tbl.wf (fun _ => 0#256) pmapB = true
  wstreams : Tbl.wf (fun _ => StreamE.reset) streams = true
  wentries : Tbl.wf (fun _ => none) entries = true
  wcores : coresOk cores = true
  wports : Tbl.wf (fun _ => Port.reset) ports = true
  wscales : Tbl.wf (fun _ => ScaleE.reset) scales = true
  wprogT : Tbl.wf (fun _ => 0) progT = true
  wslots : Tbl.wf (fun _ => Slot.reset) slots = true
  wobjs : Tbl.wf (fun _ => SyncObj.reset) objs = true
  wwatches : Tbl.wf (fun _ => ⟨none, false⟩) watches = true
  wmirrors : Tbl.wf (fun _ => ⟨false, false, false⟩) mirrors = true

/-- `K5` of a state. -/
structure Kept (q : Q4) (s : State) : Prop where
  k5 : K5 q s.pending s.ecpCount s.cwMap s.keepStore s.regs s.fpmA s.fpmB s.pmapA s.pmapB s.streams s.entries s.cores s.ports s.scales s.progT s.harb.slots s.sync.objs s.sync.watches s.sync.mirrors

/-- `Kept` of the outcome of a command, if there is a next state. -/
inductive KeptO (q : Q4) : Host.Outcome State Fault Refusal → Prop where
  | next {s : State} (h : Kept q s) : KeptO q (.next s)
  | fault {r : Fault} : KeptO q (.fault r)
  | refused {r : Refusal} : KeptO q (.refused r)

/-- `Kept` of a state that may be absent. -/
inductive KeptP (q : Q4) : Option State → Prop where
  | some {s : State} (h : Kept q s) : KeptP q (some s)
  | none : KeptP q none

variable {q : Q4}

/-- Stores that are canonical if those of a kept state are. -/
theorem K5.step {s : State}
    {regs : Tbl Word} {fpmA : Tbl (BitVec 16)} {fpmB : Tbl (BitVec 16)} {pmapA : Tbl (BitVec 256)} {pmapB : Tbl (BitVec 256)} {streams : Tbl StreamE} {entries : Tbl (Option Entry)} {cores : Tbl Core} {ports : Tbl Port} {scales : Tbl ScaleE} {progT : Tbl Dword} {slots : Tbl Slot} {objs : Tbl SyncObj} {watches : Tbl Watch} {mirrors : Tbl Mirror}
    (hregs : Tbl.wf regReset s.regs = true → Tbl.wf regReset regs = true)
    (hfpmA : Tbl.wf (fun _ => 0#16) s.fpmA = true → Tbl.wf (fun _ => 0#16) fpmA = true)
    (hfpmB : Tbl.wf (fun _ => 0#16) s.fpmB = true → Tbl.wf (fun _ => 0#16) fpmB = true)
    (hpmapA : Tbl.wf (fun _ => 0#256) s.pmapA = true → Tbl.wf (fun _ => 0#256) pmapA = true)
    (hpmapB : Tbl.wf (fun _ => 0#256) s.pmapB = true → Tbl.wf (fun _ => 0#256) pmapB = true)
    (hstreams : Tbl.wf (fun _ => StreamE.reset) s.streams = true → Tbl.wf (fun _ => StreamE.reset) streams = true)
    (hentries : Tbl.wf (fun _ => none) s.entries = true → Tbl.wf (fun _ => none) entries = true)
    (hcores : coresOk s.cores = true → coresOk cores = true)
    (hports : Tbl.wf (fun _ => Port.reset) s.ports = true → Tbl.wf (fun _ => Port.reset) ports = true)
    (hscales : Tbl.wf (fun _ => ScaleE.reset) s.scales = true → Tbl.wf (fun _ => ScaleE.reset) scales = true)
    (hprogT : Tbl.wf (fun _ => 0) s.progT = true → Tbl.wf (fun _ => 0) progT = true)
    (hslots : Tbl.wf (fun _ => Slot.reset) s.harb.slots = true → Tbl.wf (fun _ => Slot.reset) slots = true)
    (hobjs : Tbl.wf (fun _ => SyncObj.reset) s.sync.objs = true → Tbl.wf (fun _ => SyncObj.reset) objs = true)
    (hwatches : Tbl.wf (fun _ => ⟨none, false⟩) s.sync.watches = true → Tbl.wf (fun _ => ⟨none, false⟩) watches = true)
    (hmirrors : Tbl.wf (fun _ => ⟨false, false, false⟩) s.sync.mirrors = true → Tbl.wf (fun _ => ⟨false, false, false⟩) mirrors = true)
    (h : Kept q s) :
    K5 q s.pending s.ecpCount s.cwMap s.keepStore regs fpmA fpmB pmapA pmapB streams entries cores ports scales progT slots objs watches mirrors :=
  ⟨h.k5.pend, h.k5.ecp, h.k5.cwm, h.k5.store, hregs h.k5.wregs, hfpmA h.k5.wfpmA, hfpmB h.k5.wfpmB, hpmapA h.k5.wpmapA, hpmapB h.k5.wpmapB, hstreams h.k5.wstreams, hentries h.k5.wentries, hcores h.k5.wcores, hports h.k5.wports, hscales h.k5.wscales, hprogT h.k5.wprogT, hslots h.k5.wslots, hobjs h.k5.wobjs, hwatches h.k5.wwatches, hmirrors h.k5.wmirrors⟩

/-- A state written out is kept if its parts are. -/
theorem Kept.mk_iff {pending : List Instr} {freeCtr : Nat} {cclk : Nat} {ecpCount : Nat} {cwMap : BitVec 16} {keepStore : Addr} {regs : Tbl Word} {rdp : Rdp} {fpmA : Tbl (BitVec 16)} {fpmB : Tbl (BitVec 16)} {pmapA : Tbl (BitVec 256)} {pmapB : Tbl (BitVec 256)} {streams : Tbl StreamE} {entries : Tbl (Option Entry)} {fetch : Fetch} {ferry : Ferry} {harb : Harbour} {cores : Tbl Core} {disp : Disp} {ports : Tbl Port} {scales : Tbl ScaleE} {lhse : Lhse} {trace : Trace} {progT : Tbl Dword} {sync : Sync} {land : Landing} {shoal : Shoal} {aud : Audit} {reef : Reef} {mmp : List MReq} {fap : List MReq} {mmpGen : BitVec 4} {fapGen : BitVec 4} {rst : Resets} {time : Dword} {tsync : TimeSync} {view : Nat} {viewHeld : Bool} {pwr : Power} {bcon : Beacon} {cw : Causeway} {keep : Keep} {test : TestPorts} :
    Kept q (State.mk pending freeCtr cclk ecpCount cwMap keepStore regs rdp fpmA fpmB pmapA pmapB streams entries fetch ferry harb cores disp ports scales lhse trace progT sync land shoal aud reef mmp fap mmpGen fapGen rst time tsync view viewHeld pwr bcon cw keep test) ↔
      K5 q pending ecpCount cwMap keepStore regs fpmA fpmB pmapA pmapB streams entries cores ports scales progT harb.slots sync.objs sync.watches sync.mirrors :=
  ⟨fun h => h.k5, fun h => ⟨h⟩⟩

/-- The parts of a kept state. -/
theorem K5.of {s : State} (h : Kept q s) :
    K5 q s.pending s.ecpCount s.cwMap s.keepStore s.regs s.fpmA s.fpmB s.pmapA s.pmapB s.streams s.entries s.cores s.ports s.scales s.progT s.harb.slots s.sync.objs s.sync.watches s.sync.mirrors := h.k5

/-- What every value of a changed canonical table satisfies. -/
theorem Tbl.all_insert {α : Type} {P : Nat × α → Bool} {t : Tbl α} {k : Nat} {v : α} (h : t.all P = true) (hv : P (k, v) = true) :
    (Tbl.insert t k v).all P = true := by
  induction t with
  | nil => simp [Tbl.insert, hv]
  | cons x t ih =>
    obtain ⟨k', v'⟩ := x
    simp only [List.all_cons, Bool.and_eq_true] at h
    simp only [Tbl.insert]
    split
    · simp [h, hv]
    · split
      · simp [h, hv]
      · simp [h, ih h.2]

/-- What every value of a table satisfies, every value of the table without a pair satisfies. -/
theorem Tbl.all_erase {α : Type} {P : Nat × α → Bool} {t : Tbl α} {k : Nat} (h : t.all P = true) : (Tbl.erase t k).all P = true := by
  induction t with
  | nil => rfl
  | cons x t ih =>
    obtain ⟨k', v'⟩ := x
    simp only [List.all_cons, Bool.and_eq_true] at h
    simp only [Tbl.erase]
    split
    · exact h.2
    · simp [h, ih h.2]

/-- A write of one core keeps the cores canonical. -/
theorem coresOk_set {t : Tbl Core} {k : Nat} {c : Core} (h : coresOk t = true) (hc : Tbl.wf (fun _ => Thread.reset) c.threads = true) :
    coresOk (Tbl.set (fun _ => Core.reset) t k c) = true := by
  simp only [coresOk, Bool.and_eq_true] at h ⊢
  refine ⟨Tbl.wf_set h.1, ?_⟩
  unfold Tbl.set
  split
  · exact Tbl.all_erase h.2
  · exact Tbl.all_insert h.2 hc

/-- A change of every core that keeps threads canonical keeps the cores canonical. -/
theorem coresOk_remap {t : Tbl Core} {f : Core → Core}
    (hf : ∀ c : Core, Tbl.wf (fun _ => Thread.reset) c.threads = true → Tbl.wf (fun _ => Thread.reset) (f c).threads = true)
    (h : coresOk t = true) : coresOk (Tbl.remap (fun _ => Core.reset) f t) = true := by
  simp only [coresOk, Bool.and_eq_true] at h ⊢
  refine ⟨Tbl.wf_remap h.1, ?_⟩
  have h2 := h.2
  unfold Tbl.remap
  clear h
  induction t with
  | nil => rfl
  | cons x t ih =>
    obtain ⟨k', v'⟩ := x
    simp only [List.all_cons, Bool.and_eq_true] at h2
    simp only [Tbl.mapK]
    split
    · exact ih h2.2
    · simp [hf _ h2.1, ih h2.2]

/-- The threads of a core of canonical cores are canonical. -/
theorem coresOk_get {t : Tbl Core} {k : Nat} (h : coresOk t = true) :
    Tbl.wf (fun _ => Thread.reset) (Tbl.get (fun _ => Core.reset) t k).threads = true := by
  simp only [coresOk, Bool.and_eq_true] at h
  have h2 := h.2
  clear h
  induction t with
  | nil => rfl
  | cons x t ih =>
    obtain ⟨k', v'⟩ := x
    simp only [List.all_cons, Bool.and_eq_true] at h2
    simp only [Tbl.get]
    split
    · exact h2.1
    · exact ih h2.2

/-- The threads of a core of a kept state are canonical. -/
theorem Kept.threads {s : State} (h : Kept q s) (c : BitVec 4) : Tbl.wf (fun _ => Thread.reset) (s.core c).threads = true :=
  coresOk_get h.k5.wcores

/-- A fold of functions that keep. -/
theorem Kept.foldl {α : Type} {l : List α} {f : State → α → State} {s : State} (hf : ∀ s a, Kept q s → Kept q (f s a))
    (h : Kept q s) : Kept q (l.foldl f s) := by
  induction l generalizing s with
  | nil => exact h
  | cons a l ih => exact ih (hf s a h)

/-- A fold of functions that keep, beside another result. -/
theorem Kept.foldl_fst {α β : Type} {l : List α} {f : State × β → α → State × β} {x : State × β}
    (hf : ∀ x a, Kept q x.1 → Kept q (f x a).1) (h : Kept q x.1) : Kept q (l.foldl f x).1 := by
  induction l generalizing x with
  | nil => exact h
  | cons a l ih => exact ih (hf x a h)

/-- A fold whose second part keeps. -/
theorem Kept.foldl_snd {α β : Type} {l : List α} {f : β × State → α → β × State} {x : β × State}
    (hf : ∀ x a, Kept q x.2 → Kept q (f x a).2) (h : Kept q x.2) : Kept q (l.foldl f x).2 := by
  induction l generalizing x with
  | nil => exact h
  | cons a l ih => exact ih (hf x a h)

/-- A choice between kept states. -/
theorem Kept.ite {c : Prop} [Decidable c] {a b : State} (ha : Kept q a) (hb : Kept q b) : Kept q (if c then a else b) := by
  split
  · exact ha
  · exact hb

/-- A choice between kept outcomes. -/
theorem KeptO.ite {c : Prop} [Decidable c] {a b : Host.Outcome State Fault Refusal} (ha : KeptO q a) (hb : KeptO q b) :
    KeptO q (if c then a else b) := by
  split
  · exact ha
  · exact hb

/-- The state that is there. -/
theorem KeptP.of_eq {o : Option State} {t : State} (h : o = .some t) (ho : KeptP q o) : Kept q t := by
  subst h
  cases ho with
  | some h => exact h

/-- The state of a pair. -/
theorem Kept.of_pair {β : Type} {x : State × β} {t : State} {b : β} (h : x = (t, b)) (hx : Kept q x.1) : Kept q t := by
  subst h
  exact hx

/-- A state that may be absent, through a function that keeps. -/
theorem KeptP.map {o : Option State} {f : State → State} (hf : ∀ s, Kept q s → Kept q (f s)) (h : KeptP q o) : KeptP q (o.map f) := by
  cases h with
  | some h => exact .some (hf _ h)
  | none => exact .none

end Sys2Proof.Machine
end

