-- ==== Sys2Proof/Laws/KeepsOps.lean ====
section
/-! SUPPORT. Every function of the shared operations, the sync unit, losses, scales, work, the arbiter and operands keeps the queue, the RTL parameters and the canonical form of the stores (Laws/Kept.lean): one lemma per function. -/
set_option linter.all false
namespace Sys2Proof.Machine

/-! Functions of Machine/Ops.lean. -/

theorem State.wr_kept {q : Q4} (s : State) (key : Nat) (v : Word) (hk : Kept q s) : Kept q (State.wr s key v) := by
  unfold State.wr
  try dsimp only
  repeat' first
    | with_reducible assumption
    | simp only [Kept.mk_iff]
    | with_reducible apply K5.of
    | with_reducible apply K5.step
    | with_reducible exact id
    | exact Tbl.wf_set
    | exact fun _ => rfl

theorem State.setF_kept {q : Q4} {w : Nat} (s : State) (key : Nat) (lo : Nat) (v : BitVec w) (hk : Kept q s) : Kept q (State.setF s key lo v) := by
  unfold State.setF
  repeat' first
    | with_reducible assumption
    | with_reducible apply State.wr_kept

theorem State.setBit_kept {q : Q4} (s : State) (key : Nat) (i : Nat) (b : Bool) (hk : Kept q s) : Kept q (State.setBit s key i b) := by
  unfold State.setBit
  repeat' first
    | with_reducible assumption
    | with_reducible apply State.setF_kept

theorem State.bump_kept {q : Q4} (s : State) (key : Nat) (n : Nat) (hk : Kept q s) : Kept q (State.bump s key n) := by
  unfold State.bump
  repeat' first
    | with_reducible assumption
    | with_reducible apply State.wr_kept

theorem State.bumpWrap_kept {q : Q4} (s : State) (key : Nat) (hk : Kept q s) : Kept q (State.bumpWrap s key) := by
  unfold State.bumpWrap
  repeat' first
    | with_reducible assumption
    | with_reducible apply State.wr_kept

theorem State.bumpF_kept {q : Q4} (s : State) (key : Nat) (lo : Nat) (w : Nat) (hk : Kept q s) : Kept q (State.bumpF s key lo w) := by
  unfold State.bumpF
  repeat' first
    | with_reducible assumption
    | with_reducible apply State.setF_kept

theorem State.maxF_kept {q : Q4} (s : State) (key : Nat) (lo : Nat) (w : Nat) (n : Nat) (hk : Kept q s) : Kept q (State.maxF s key lo w n) := by
  unfold State.maxF
  repeat' first
    | with_reducible assumption
    | with_reducible apply State.setF_kept

theorem State.wr64_kept {q : Q4} (s : State) (key : Nat) (v : Dword) (hk : Kept q s) : Kept q (State.wr64 s key v) := by
  unfold State.wr64
  repeat' first
    | with_reducible assumption
    | with_reducible apply State.wr_kept

theorem State.setErr_kept {q : Q4} (s : State) (page : Nat) (bit : Nat) (hk : Kept q s) : Kept q (State.setErr s page bit) := by
  unfold State.setErr
  repeat' first
    | with_reducible assumption
    | with_reducible apply State.setBit_kept

theorem State.setStream_kept {q : Q4} (s : State) (n : BitVec 14) (v : StreamE) (hk : Kept q s) : Kept q (State.setStream s n v) := by
  unfold State.setStream
  try dsimp only
  repeat' first
    | with_reducible assumption
    | simp only [Kept.mk_iff]
    | with_reducible apply K5.of
    | with_reducible apply K5.step
    | with_reducible exact id
    | exact Tbl.wf_set
    | exact fun _ => rfl
    | (intro _; try dsimp only)

theorem State.updStream_kept {q : Q4} (s : State) (n : BitVec 14) (f : StreamE → StreamE) (hk : Kept q s) : Kept q (State.updStream s n f) := by
  unfold State.updStream
  repeat' first
    | with_reducible assumption
    | with_reducible apply State.setStream_kept

theorem State.setEntry_kept {q : Q4} (s : State) (k : EKey) (v : Option Entry) (hk : Kept q s) : Kept q (State.setEntry s k v) := by
  unfold State.setEntry
  try dsimp only
  repeat' first
    | with_reducible assumption
    | simp only [Kept.mk_iff]
    | with_reducible apply K5.of
    | with_reducible apply K5.step
    | with_reducible exact id
    | exact Tbl.wf_set
    | exact fun _ => rfl
    | (intro _; try dsimp only)

theorem State.updEntry_kept {q : Q4} (s : State) (k : EKey) (f : Entry → Entry) (hk : Kept q s) : Kept q (State.updEntry s k f) := by
  unfold State.updEntry
  try dsimp only
  repeat' first
    | with_reducible assumption
    | with_reducible apply State.setEntry_kept
    | simp only [Kept.mk_iff]
    | with_reducible apply K5.of
    | with_reducible apply K5.step
    | with_reducible exact id
    | exact fun _ => rfl
    | split
    | refine KeptP.of_eq (by with_reducible assumption) ?_
    | refine Kept.of_pair (by with_reducible assumption) ?_
    | (intro _; try dsimp only)

theorem State.setSlot_kept {q : Q4} (s : State) (k : Nat) (v : Slot) (hk : Kept q s) : Kept q (State.setSlot s k v) := by
  unfold State.setSlot
  try dsimp only
  repeat' first
    | with_reducible assumption
    | simp only [Kept.mk_iff]
    | with_reducible apply K5.of
    | with_reducible apply K5.step
    | with_reducible exact id
    | exact Tbl.wf_set
    | exact fun _ => rfl
    | (intro _; try dsimp only)

theorem State.setFpm_kept {q : Q4} (s : State) (f : Nat) (v : BitVec 16) (hk : Kept q s) : Kept q (State.setFpm s f v) := by
  unfold State.setFpm
  try dsimp only
  repeat' first
    | with_reducible assumption
    | simp only [Kept.mk_iff]
    | with_reducible apply K5.of
    | with_reducible apply K5.step
    | with_reducible exact id
    | exact Tbl.wf_set
    | with_reducible exact Tbl.wf_filter
    | exact fun _ => rfl
    | split
    | (intro _; try dsimp only)

theorem State.setPmap_kept {q : Q4} (s : State) (p : BitVec 4) (v : BitVec 256) (hk : Kept q s) : Kept q (State.setPmap s p v) := by
  unfold State.setPmap
  try dsimp only
  repeat' first
    | with_reducible assumption
    | simp only [Kept.mk_iff]
    | with_reducible apply K5.of
    | with_reducible apply K5.step
    | with_reducible exact id
    | exact Tbl.wf_set
    | with_reducible exact Tbl.wf_filter
    | exact fun _ => rfl
    | split
    | (intro _; try dsimp only)

theorem State.used_kept {q : Q4} (s : State) (hk : Kept q s) : Kept q (State.used s) := by
  unfold State.used
  try dsimp only
  repeat' first
    | with_reducible assumption
    | simp only [Kept.mk_iff]
    | with_reducible apply K5.of
    | with_reducible apply K5.step
    | with_reducible exact id
    | exact fun _ => rfl

theorem State.traceRec_kept {q : Q4} (s : State) (kind : Nat) (part : Option (BitVec 4)) (fields : Dword) (hk : Kept q s) : Kept q (State.traceRec s kind part fields) := by
  unfold State.traceRec
  try dsimp only
  repeat' first
    | with_reducible assumption
    | with_reducible apply Kept.ite
    | with_reducible apply State.bump_kept
    | with_reducible apply State.setErr_kept
    | simp only [Kept.mk_iff]
    | with_reducible apply K5.of
    | with_reducible apply K5.step
    | with_reducible exact id
    | exact fun _ => rfl
    | split
    | refine KeptP.of_eq (by with_reducible assumption) ?_
    | refine Kept.of_pair (by with_reducible assumption) ?_
    | (intro _; try dsimp only)

theorem State.progress_kept {q : Q4} (s : State) (p : BitVec 4) (hk : Kept q s) : Kept q (State.progress s p) := by
  unfold State.progress
  try dsimp only
  repeat' first
    | with_reducible assumption
    | simp only [Kept.mk_iff]
    | with_reducible apply K5.of
    | with_reducible apply K5.step
    | with_reducible exact id
    | exact Tbl.wf_set
    | exact fun _ => rfl
    | (intro _; try dsimp only)

theorem State.timingBreak_kept {q : Q4} (s : State) (p : BitVec 4) (hk : Kept q s) : Kept q (State.timingBreak s p) := by
  unfold State.timingBreak
  repeat' first
    | with_reducible assumption
    | with_reducible apply Kept.ite
    | with_reducible apply State.setBit_kept
    | with_reducible apply State.bump_kept
    | with_reducible apply State.setErr_kept
    | split

theorem State.timingBreakAll_kept {q : Q4} (s : State) (hk : Kept q s) : Kept q (State.timingBreakAll s) := by
  unfold State.timingBreakAll
  try dsimp only
  repeat' first
    | with_reducible assumption
    | with_reducible apply State.timingBreak_kept
    | (with_reducible apply Kept.foldl <;> first | (intro _ _ _; try dsimp only) | skip)
    | (intro _; try dsimp only)

theorem State.idleExit_kept {q : Q4} (s : State) (hk : Kept q s) : Kept q (State.idleExit s) := by
  unfold State.idleExit
  try dsimp only
  repeat' first
    | with_reducible assumption
    | with_reducible apply Kept.ite
    | with_reducible apply State.timingBreakAll_kept
    | simp only [Kept.mk_iff]
    | with_reducible apply K5.of
    | with_reducible apply K5.step
    | with_reducible exact id
    | exact fun _ => rfl
    | split

theorem State.setCore_kept {q : Q4} (s : State) (k : BitVec 4) (c : Core) (hk : Kept q s)
    (hc : Tbl.wf (fun _ => Thread.reset) c.threads = true) : Kept q (s.setCore k c) := by
  unfold State.setCore
  simp only [Kept.mk_iff]
  with_reducible apply K5.step (h := hk) (hcores := fun h => coresOk_set h hc) <;> exact id

theorem State.setThread_kept {q : Q4} (s : State) (k : BitVec 4) (t : BitVec 3) (v : Thread) (hk : Kept q s) :
    Kept q (s.setThread k t v) := by
  unfold State.setThread
  exact State.setCore_kept _ _ _ hk (Tbl.wf_set (hk.threads k))

theorem State.withdrawIssue_kept {q : Q4} (s : State) (c : BitVec 4) (t : BitVec 3) (hk : Kept q s) : Kept q (State.withdrawIssue s c t) := by
  unfold State.withdrawIssue
  try dsimp only
  repeat' first
    | with_reducible assumption
    | with_reducible apply State.updEntry_kept
    | (with_reducible apply Kept.foldl <;> first | (intro _ _ _; try dsimp only) | skip)
    | simp only [Kept.mk_iff]
    | with_reducible apply K5.of
    | with_reducible apply K5.step
    | with_reducible exact id
    | with_reducible exact Tbl.wf_filter
    | exact fun _ => rfl
    | split
    | refine KeptP.of_eq (by with_reducible assumption) ?_
    | refine Kept.of_pair (by with_reducible assumption) ?_
    | (intro _; try dsimp only)

theorem State.quiesceAll_kept {q : Q4} (s : State) (hk : Kept q s) : Kept q (State.quiesceAll s) := by
  unfold State.quiesceAll
  try dsimp only
  repeat' first
    | with_reducible assumption
    | with_reducible apply Kept.ite
    | with_reducible apply State.setThread_kept
    | with_reducible apply State.withdrawIssue_kept
    | with_reducible apply State.issue_kept
    | with_reducible apply State.retry_kept
    | (with_reducible apply Kept.foldl <;> first | (intro _ _ _; try dsimp only) | skip)
    | (with_reducible apply Kept.foldl_fst <;> first | (intro _ _ _; try dsimp only) | skip)
    | (with_reducible apply Kept.foldl_snd <;> first | (intro _ _ _; try dsimp only) | skip)
    | simp only [Kept.mk_iff]
    | with_reducible apply K5.of
    | with_reducible apply K5.step
    | with_reducible exact id
    | with_reducible exact Tbl.wf_filter
    | exact fun _ => rfl
    | split
    | (intro _; try dsimp only)

theorem State.unquiesceAll_kept {q : Q4} (s : State) (hk : Kept q s) : Kept q (State.unquiesceAll s) := by
  unfold State.unquiesceAll
  try dsimp only
  repeat' first
    | with_reducible assumption
    | with_reducible apply Kept.ite
    | with_reducible apply State.setThread_kept
    | (with_reducible apply Kept.foldl <;> first | (intro _ _ _; try dsimp only) | skip)
    | simp only [Kept.mk_iff]
    | with_reducible apply K5.of
    | with_reducible apply K5.step
    | with_reducible exact id
    | exact fun _ => rfl
    | split
    | (intro _; try dsimp only)

theorem State.setPort_kept {q : Q4} (s : State) (n : Nat) (p : Port) (hk : Kept q s) : Kept q (State.setPort s n p) := by
  unfold State.setPort
  try dsimp only
  repeat' first
    | with_reducible assumption
    | simp only [Kept.mk_iff]
    | with_reducible apply K5.of
    | with_reducible apply K5.step
    | with_reducible exact id
    | exact Tbl.wf_set
    | exact fun _ => rfl
    | (intro _; try dsimp only)

theorem State.dropEvent_kept {q : Q4} (s : State) (hk : Kept q s) : Kept q (State.dropEvent s) := by
  unfold State.dropEvent
  repeat' first
    | with_reducible assumption
    | with_reducible apply State.bump_kept
    | with_reducible apply State.setErr_kept

theorem State.intake_kept {q : Q4} (s : State) (e : Event) (hk : Kept q s) : Kept q (State.intake s e) := by
  unfold State.intake
  try dsimp only
  repeat' first
    | with_reducible assumption
    | with_reducible apply Kept.ite
    | with_reducible apply State.dropEvent_kept
    | simp only [Kept.mk_iff]
    | with_reducible apply K5.of
    | with_reducible apply K5.step
    | with_reducible exact id
    | with_reducible exact Tbl.wf_filter
    | exact fun _ => rfl
    | split
    | refine KeptP.of_eq (by with_reducible assumption) ?_
    | refine Kept.of_pair (by with_reducible assumption) ?_
    | (intro _; try dsimp only)

theorem State.wantPart_kept {q : Q4} (s : State) (p : BitVec 4) (c : Cause) (hk : Kept q s) : Kept q (State.wantPart s p c) := by
  unfold State.wantPart
  try dsimp only
  repeat' first
    | with_reducible assumption
    | with_reducible apply Kept.ite
    | simp only [Kept.mk_iff]
    | with_reducible apply K5.of
    | with_reducible apply K5.step
    | with_reducible exact id
    | exact fun _ => rfl
    | split
    | (intro _; try dsimp only)

theorem State.wantBlock_kept {q : Q4} (s : State) (c : Cause) (hk : Kept q s) : Kept q (State.wantBlock s c) := by
  unfold State.wantBlock
  try dsimp only
  repeat' first
    | with_reducible assumption
    | with_reducible apply Kept.ite
    | simp only [Kept.mk_iff]
    | with_reducible apply K5.of
    | with_reducible apply K5.step
    | with_reducible exact id
    | exact fun _ => rfl
    | split

theorem State.stopBlock_kept {q : Q4} (s : State) (hk : Kept q s) : Kept q (State.stopBlock s) := by
  unfold State.stopBlock
  try dsimp only
  repeat' first
    | with_reducible assumption
    | with_reducible apply State.quiesceAll_kept
    | with_reducible apply State.wantBlock_kept
    | simp only [Kept.mk_iff]
    | with_reducible apply K5.of
    | with_reducible apply K5.step
    | with_reducible exact id
    | exact fun _ => rfl

theorem State.raise_kept {q : Q4} (s : State) (e : Event) (hk : Kept q s) : Kept q (State.raise s e) := by
  unfold State.raise
  try dsimp only
  repeat' first
    | with_reducible assumption
    | with_reducible apply Kept.ite
    | with_reducible apply State.intake_kept
    | with_reducible apply State.wantPart_kept
    | with_reducible apply State.stopBlock_kept
    | simp only [Kept.mk_iff]
    | with_reducible apply K5.of
    | with_reducible apply K5.step
    | with_reducible exact id
    | exact fun _ => rfl
    | split
    | refine KeptP.of_eq (by with_reducible assumption) ?_
    | refine Kept.of_pair (by with_reducible assumption) ?_
    | (intro _; try dsimp only)

theorem State.raiseLater_kept {q : Q4} (s : State) (e : Event) (hk : Kept q s) : Kept q (State.raiseLater s e) := by
  unfold State.raiseLater
  try dsimp only
  repeat' first
    | with_reducible assumption
    | with_reducible apply Kept.ite
    | with_reducible apply State.raise_kept
    | simp only [Kept.mk_iff]
    | with_reducible apply K5.of
    | with_reducible apply K5.step
    | with_reducible exact id
    | exact fun _ => rfl
    | split

theorem State.meetLater_kept {q : Q4} (s : State) (hk : Kept q s) : Kept q (State.meetLater s) := by
  unfold State.meetLater
  try dsimp only
  repeat' first
    | with_reducible assumption
    | with_reducible apply Kept.ite
    | with_reducible apply State.intake_kept
    | simp only [Kept.mk_iff]
    | with_reducible apply K5.of
    | with_reducible apply K5.step
    | with_reducible exact id
    | exact fun _ => rfl
    | split
    | refine Kept.of_pair (by with_reducible assumption) ?_
    | (intro _; try dsimp only)

theorem State.issue_kept {q : Q4} (s : State) (c : MClass) (op : MOp) (addr : Addr) (len : Nat) (data : List Line) (why : Why) (hk : Kept q s) : Kept q (State.issue s c op addr len data why) := by
  unfold State.issue
  try dsimp only
  repeat' first
    | with_reducible assumption
    | simp only [Kept.mk_iff]
    | with_reducible apply K5.of
    | with_reducible apply K5.step
    | with_reducible exact id
    | exact fun _ => rfl

theorem State.read_kept {q : Q4} (s : State) (addr : Addr) (n : Nat) (why : Why) (hk : Kept q s) : Kept q (State.read s addr n why) := by
  unfold State.read
  repeat' first
    | with_reducible assumption
    | with_reducible apply State.issue_kept

theorem State.write_kept {q : Q4} (s : State) (addr : Addr) (len : Nat) (data : List Line) (why : Why) (hk : Kept q s) : Kept q (State.write s addr len data why) := by
  unfold State.write
  repeat' first
    | with_reducible assumption
    | with_reducible apply State.issue_kept

theorem State.issueFap_kept {q : Q4} (s : State) (op : MOp) (addr : Addr) (why : Why) (hk : Kept q s) : Kept q (State.issueFap s op addr why) := by
  unfold State.issueFap
  try dsimp only
  repeat' first
    | with_reducible assumption
    | simp only [Kept.mk_iff]
    | with_reducible apply K5.of
    | with_reducible apply K5.step
    | with_reducible exact id
    | exact fun _ => rfl

theorem State.atomic_kept {q : Q4} (s : State) (op : MOp) (a : Addr) (why : Why) (hk : Kept q s) : Kept q (State.atomic s op a why) := by
  unfold State.atomic
  repeat' first
    | with_reducible assumption
    | with_reducible apply Kept.ite
    | with_reducible apply State.issue_kept
    | with_reducible apply State.issueFap_kept
    | split

theorem State.answer_kept {q : Q4} (s : State) (read : Bool) (tag : BitVec 8) (gen : BitVec 4) (hk : Kept q s) : Kept q (State.answer s read tag gen).1 := by
  unfold State.answer
  try dsimp only
  repeat' first
    | with_reducible assumption
    | with_reducible apply Kept.ite
    | with_reducible apply State.bump_kept
    | with_reducible apply State.idleExit_kept
    | with_reducible apply State.read_kept
    | simp only [Kept.mk_iff]
    | with_reducible apply K5.of
    | with_reducible apply K5.step
    | with_reducible exact id
    | exact fun _ => rfl
    | split
    | refine KeptP.of_eq (by with_reducible assumption) ?_
    | refine Kept.of_pair (by with_reducible assumption) ?_
    | (intro _; try dsimp only)

theorem State.answerFap_kept {q : Q4} (s : State) (tag : BitVec 8) (gen : BitVec 4) (hk : Kept q s) : Kept q (State.answerFap s tag gen).1 := by
  unfold State.answerFap
  try dsimp only
  repeat' first
    | with_reducible assumption
    | with_reducible apply Kept.ite
    | with_reducible apply State.bump_kept
    | with_reducible apply State.idleExit_kept
    | simp only [Kept.mk_iff]
    | with_reducible apply K5.of
    | with_reducible apply K5.step
    | with_reducible exact id
    | exact fun _ => rfl
    | split
    | refine KeptP.of_eq (by with_reducible assumption) ?_
    | refine Kept.of_pair (by with_reducible assumption) ?_
    | (intro _; try dsimp only)

theorem State.answerAtom_kept {q : Q4} (s : State) (fab : Bool) (tag : BitVec 8) (gen : BitVec 4) (hk : Kept q s) : Kept q (State.answerAtom s fab tag gen).1 := by
  unfold State.answerAtom
  repeat' first
    | with_reducible assumption
    | with_reducible apply Kept.ite
    | with_reducible apply State.answer_kept
    | with_reducible apply State.answerFap_kept
    | split

theorem State.orphan_kept {q : Q4} (s : State) (f : Why → Bool) (hk : Kept q s) : Kept q (State.orphan s f) := by
  unfold State.orphan
  try dsimp only
  repeat' first
    | with_reducible assumption
    | with_reducible apply Kept.ite
    | simp only [Kept.mk_iff]
    | with_reducible apply K5.of
    | with_reducible apply K5.step
    | with_reducible exact id
    | exact fun _ => rfl
    | split
    | (intro _; try dsimp only)

/-! Functions of Machine/Flow.lean. -/

theorem State.readLines_kept {q : Q4} (s : State) (addr : Addr) (n : Nat) (why : Nat → Why) (hk : Kept q s) : Kept q (State.readLines s addr n why) := by
  unfold State.readLines
  try dsimp only
  repeat' first
    | with_reducible assumption
    | with_reducible apply State.read_kept
    | (with_reducible apply Kept.foldl <;> first | (intro _ _ _; try dsimp only) | skip)
    | (intro _; try dsimp only)

theorem State.writeLines_kept {q : Q4} (s : State) (addr : Addr) (ls : List Line) (why : Why) (hk : Kept q s) : Kept q (State.writeLines s addr ls why) := by
  unfold State.writeLines
  try dsimp only
  repeat' first
    | with_reducible assumption
    | with_reducible apply State.write_kept
    | (with_reducible apply Kept.foldl <;> first | (intro _ _ _; try dsimp only) | skip)
    | (intro _; try dsimp only)

theorem State.queueReady_kept {q : Q4} (s : State) (n : BitVec 14) (db : Bool) (hk : Kept q s) : Kept q (State.queueReady s n db) := by
  unfold State.queueReady
  try dsimp only
  repeat' first
    | with_reducible assumption
    | with_reducible apply Kept.ite
    | with_reducible apply State.updStream_kept
    | simp only [Kept.mk_iff]
    | with_reducible apply K5.of
    | with_reducible apply K5.step
    | with_reducible exact id
    | exact fun _ => rfl
    | split
    | (intro _; try dsimp only)

theorem State.unqueue_kept {q : Q4} (s : State) (n : BitVec 14) (hk : Kept q s) : Kept q (State.unqueue s n) := by
  unfold State.unqueue
  try dsimp only
  repeat' first
    | with_reducible assumption
    | simp only [Kept.mk_iff]
    | with_reducible apply K5.of
    | with_reducible apply K5.step
    | with_reducible exact id
    | with_reducible exact Tbl.wf_filter
    | exact fun _ => rfl

theorem State.freeChan_kept {q : Q4} (s : State) (n : BitVec 14) (hk : Kept q s) : Kept q (State.freeChan s n) := by
  unfold State.freeChan
  try dsimp only
  repeat' first
    | with_reducible assumption
    | simp only [Kept.mk_iff]
    | with_reducible apply K5.of
    | with_reducible apply K5.step
    | with_reducible exact id
    | with_reducible exact Tbl.wf_filter
    | exact fun _ => rfl
    | (intro _; try dsimp only)

theorem State.drained_kept {q : Q4} (s : State) (n : BitVec 14) (hk : Kept q s) : Kept q (State.drained s n) := by
  unfold State.drained
  try dsimp only
  repeat' first
    | with_reducible assumption
    | with_reducible apply Kept.ite
    | with_reducible apply State.setStream_kept
    | simp only [Kept.mk_iff]
    | with_reducible apply K5.of
    | with_reducible apply K5.step
    | with_reducible exact id
    | exact fun _ => rfl
    | split

theorem State.headLeaves_kept {q : Q4} (s : State) (k : EKey) (hk : Kept q s) : Kept q (State.headLeaves s k) := by
  unfold State.headLeaves
  try dsimp only
  repeat' first
    | with_reducible assumption
    | with_reducible apply Kept.ite
    | with_reducible apply State.setStream_kept
    | with_reducible apply State.updStream_kept
    | with_reducible apply State.queueReady_kept
    | simp only [Kept.mk_iff]
    | with_reducible apply K5.of
    | with_reducible apply K5.step
    | with_reducible exact id
    | exact fun _ => rfl
    | split
    | (intro _; try dsimp only)

theorem State.timerRestart_kept {q : Q4} (s : State) (n : BitVec 14) (hk : Kept q s) : Kept q (State.timerRestart s n) := by
  unfold State.timerRestart
  try dsimp only
  repeat' first
    | with_reducible assumption
    | with_reducible apply State.updStream_kept
    | simp only [Kept.mk_iff]
    | with_reducible apply K5.of
    | with_reducible apply K5.step
    | with_reducible exact id
    | with_reducible exact Tbl.wf_filter
    | exact fun _ => rfl
    | split
    | (intro _; try dsimp only)

theorem State.slotIdle_kept {q : Q4} (s : State) (k : Nat) (hk : Kept q s) : Kept q (State.slotIdle s k) := by
  unfold State.slotIdle
  try dsimp only
  repeat' first
    | with_reducible assumption
    | with_reducible apply Kept.ite
    | with_reducible apply State.setSlot_kept
    | simp only [Kept.mk_iff]
    | with_reducible apply K5.of
    | with_reducible apply K5.step
    | with_reducible exact id
    | with_reducible exact Tbl.wf_filter
    | exact fun _ => rfl
    | split
    | (intro _; try dsimp only)

theorem State.entrySlotIdle_kept {q : Q4} (s : State) (k : EKey) (hk : Kept q s) : Kept q (State.entrySlotIdle s k) := by
  unfold State.entrySlotIdle
  try dsimp only
  repeat' first
    | with_reducible assumption
    | with_reducible apply State.slotIdle_kept
    | simp only [Kept.mk_iff]
    | with_reducible apply K5.of
    | with_reducible apply K5.step
    | with_reducible exact id
    | exact fun _ => rfl
    | split
    | refine KeptP.of_eq (by with_reducible assumption) ?_
    | refine Kept.of_pair (by with_reducible assumption) ?_
    | (intro _; try dsimp only)

theorem State.offer_kept {q : Q4} (s : State) (src : Src) (us : List Upd) (entry : Option EKey) (hk : Kept q s) : Kept q (State.offer s src us entry) := by
  unfold State.offer
  try dsimp only
  repeat' first
    | with_reducible assumption
    | simp only [Kept.mk_iff]
    | with_reducible apply K5.of
    | with_reducible apply K5.step
    | with_reducible exact id
    | exact fun _ => rfl
    | split
    | refine Kept.of_pair (by with_reducible assumption) ?_
    | (intro _; try dsimp only)

theorem State.landErr_kept {q : Q4} (s : State) (k : EKey) (part : Option (BitVec 4)) (code : Nat) (hk : Kept q s) : Kept q (State.landErr s k part code) := by
  unfold State.landErr
  try dsimp only
  repeat' first
    | with_reducible assumption
    | with_reducible apply State.bump_kept
    | with_reducible apply State.setErr_kept
    | with_reducible apply State.raise_kept
    | simp only [Kept.mk_iff]
    | with_reducible apply K5.of
    | with_reducible apply K5.step
    | with_reducible exact id
    | exact fun _ => rfl

theorem State.updFev_kept {q : Q4} (s : State) (f : BitVec 12) (g : Fev → Fev) (hk : Kept q s) : Kept q (State.updFev s f g) := by
  unfold State.updFev
  try dsimp only
  repeat' first
    | with_reducible assumption
    | with_reducible apply Kept.ite
    | simp only [Kept.mk_iff]
    | with_reducible apply K5.of
    | with_reducible apply K5.step
    | with_reducible exact id
    | exact fun _ => rfl
    | split
    | (intro _; try dsimp only)

theorem State.updFev3_kept {q : Q4} (s : State) (f : BitVec 12) (g : Line → Line) (hk : Kept q s) : Kept q (State.updFev3 s f g) := by
  unfold State.updFev3
  try dsimp only
  repeat' first
    | with_reducible assumption
    | with_reducible apply State.updFev_kept
    | simp only [Kept.mk_iff]
    | with_reducible apply K5.of
    | with_reducible apply K5.step
    | with_reducible exact id
    | with_reducible exact Tbl.wf_filter
    | exact fun _ => rfl
    | split
    | (intro _; try dsimp only)

theorem State.touchFev_kept {q : Q4} (s : State) (f : BitVec 12) (hk : Kept q s) : Kept q (State.touchFev s f) := by
  unfold State.touchFev
  try dsimp only
  repeat' first
    | with_reducible assumption
    | simp only [Kept.mk_iff]
    | with_reducible apply K5.of
    | with_reducible apply K5.step
    | with_reducible exact id
    | with_reducible exact Tbl.wf_filter
    | exact fun _ => rfl
    | (intro _; try dsimp only)

theorem State.setVec_kept {q : Q4} (s : State) (f : BitVec 12) (v : BitVec 2) (x : Vec) (hk : Kept q s) : Kept q (State.setVec s f v x) := by
  unfold State.setVec
  try dsimp only
  repeat' first
    | with_reducible assumption
    | simp only [Kept.mk_iff]
    | with_reducible apply K5.of
    | with_reducible apply K5.step
    | with_reducible exact id
    | exact Tbl.wf_set
    | exact fun _ => rfl
    | (intro _; try dsimp only)

theorem State.fevBack_kept {q : Q4} (s : State) (x : Fev) (hk : Kept q s) : Kept q (State.fevBack s x) := by
  unfold State.fevBack
  try dsimp only
  repeat' first
    | with_reducible assumption
    | with_reducible apply State.write_kept
    | with_reducible apply State.updFev_kept
    | simp only [Kept.mk_iff]
    | with_reducible apply K5.of
    | with_reducible apply K5.step
    | with_reducible exact id
    | with_reducible exact Tbl.wf_filter
    | exact fun _ => rfl
    | split
    | (intro _; try dsimp only)

theorem State.fevMiss_kept {q : Q4} (s : State) (f : BitVec 12) (hk : Kept q s) : Kept q (State.fevMiss s f) := by
  unfold State.fevMiss
  try dsimp only
  repeat' first
    | with_reducible assumption
    | with_reducible apply Kept.ite
    | with_reducible apply State.read_kept
    | with_reducible apply State.fevBack_kept
    | simp only [Kept.mk_iff]
    | with_reducible apply K5.of
    | with_reducible apply K5.step
    | with_reducible exact id
    | with_reducible exact Tbl.wf_filter
    | exact fun _ => rfl
    | split
    | refine KeptP.of_eq (by with_reducible assumption) ?_
    | refine Kept.of_pair (by with_reducible assumption) ?_
    | (intro _; try dsimp only)

theorem State.message_kept {q : Q4} (s : State) (x : Fev) (v : BitVec 2) (now : Dword) (hk : Kept q s) : Kept q (State.message s x v now) := by
  unfold State.message
  try dsimp only
  repeat' first
    | with_reducible assumption
    | with_reducible apply Kept.ite
    | with_reducible apply State.wr_kept
    | with_reducible apply State.bump_kept
    | with_reducible apply State.raise_kept
    | with_reducible apply State.write_kept
    | with_reducible apply State.updFev3_kept
    | with_reducible apply State.setVec_kept
    | simp only [Kept.mk_iff]
    | with_reducible apply K5.of
    | with_reducible apply K5.step
    | with_reducible exact id
    | with_reducible exact Tbl.wf_filter
    | exact fun _ => rfl
    | split
    | refine KeptP.of_eq (by with_reducible assumption) ?_
    | refine Kept.of_pair (by with_reducible assumption) ?_
    | (intro _; try dsimp only)

theorem State.tryMessageAt_kept {q : Q4} (s : State) (f : BitVec 12) (v : BitVec 2) (now : Option Dword) (hk : Kept q s) : Kept q (State.tryMessageAt s f v now) := by
  unfold State.tryMessageAt
  try dsimp only
  repeat' first
    | with_reducible assumption
    | with_reducible apply Kept.ite
    | with_reducible apply State.message_kept
    | simp only [Kept.mk_iff]
    | with_reducible apply K5.of
    | with_reducible apply K5.step
    | with_reducible exact id
    | with_reducible exact Tbl.wf_filter
    | exact fun _ => rfl
    | split
    | refine KeptP.of_eq (by with_reducible assumption) ?_
    | refine Kept.of_pair (by with_reducible assumption) ?_
    | (intro _; try dsimp only)

theorem State.tryMessage_kept {q : Q4} (s : State) (f : BitVec 12) (v : BitVec 2) (hk : Kept q s) : Kept q (State.tryMessage s f v) := by
  unfold State.tryMessage
  try dsimp only
  repeat' first
    | with_reducible assumption
    | with_reducible apply State.tryMessageAt_kept
    | simp only [Kept.mk_iff]
    | with_reducible apply K5.of
    | with_reducible apply K5.step
    | with_reducible exact id
    | with_reducible exact Tbl.wf_filter
    | exact fun _ => rfl
    | split
    | refine KeptP.of_eq (by with_reducible assumption) ?_
    | refine Kept.of_pair (by with_reducible assumption) ?_
    | (intro _; try dsimp only)

theorem State.vecEvent_kept {q : Q4} (s : State) (f : BitVec 12) (v : BitVec 2) (hk : Kept q s) : Kept q (State.vecEvent s f v) := by
  unfold State.vecEvent
  try dsimp only
  repeat' first
    | with_reducible assumption
    | with_reducible apply Kept.ite
    | with_reducible apply State.bump_kept
    | with_reducible apply State.updFev3_kept
    | with_reducible apply State.setVec_kept
    | with_reducible apply State.tryMessage_kept
    | simp only [Kept.mk_iff]
    | with_reducible apply K5.of
    | with_reducible apply K5.step
    | with_reducible exact id
    | exact fun _ => rfl
    | split
    | refine KeptP.of_eq (by with_reducible assumption) ?_
    | refine Kept.of_pair (by with_reducible assumption) ?_
    | (intro _; try dsimp only)

theorem State.faultVec_kept {q : Q4} (s : State) (f : BitVec 12) (hk : Kept q s) : Kept q (State.faultVec s f) := by
  unfold State.faultVec
  try dsimp only
  repeat' first
    | with_reducible assumption
    | with_reducible apply Kept.ite
    | with_reducible apply State.vecEvent_kept
    | simp only [Kept.mk_iff]
    | with_reducible apply K5.of
    | with_reducible apply K5.step
    | with_reducible exact id
    | exact fun _ => rfl
    | split
    | refine KeptP.of_eq (by with_reducible assumption) ?_
    | refine Kept.of_pair (by with_reducible assumption) ?_
    | (intro _; try dsimp only)

theorem State.faultEvent_kept {q : Q4} (s : State) (f : BitVec 12) (hk : Kept q s) : Kept q (State.faultEvent s f) := by
  unfold State.faultEvent
  try dsimp only
  repeat' first
    | with_reducible assumption
    | with_reducible apply Kept.ite
    | with_reducible apply State.fevMiss_kept
    | with_reducible apply State.faultVec_kept
    | simp only [Kept.mk_iff]
    | with_reducible apply K5.of
    | with_reducible apply K5.step
    | with_reducible exact id
    | exact fun _ => rfl
    | split
    | refine KeptP.of_eq (by with_reducible assumption) ?_
    | refine Kept.of_pair (by with_reducible assumption) ?_
    | (intro _; try dsimp only)

theorem State.streamFault_kept {q : Q4} (s : State) (n : BitVec 14) (code : BitVec 8) (pos : BitVec 16) (hk : Kept q s) : Kept q (State.streamFault s n code pos) := by
  unfold State.streamFault
  try dsimp only
  repeat' first
    | with_reducible assumption
    | with_reducible apply Kept.ite
    | with_reducible apply State.bump_kept
    | with_reducible apply State.updStream_kept
    | with_reducible apply State.raise_kept
    | with_reducible apply State.unqueue_kept
    | with_reducible apply State.drained_kept
    | with_reducible apply State.faultEvent_kept
    | simp only [Kept.mk_iff]
    | with_reducible apply K5.of
    | with_reducible apply K5.step
    | with_reducible exact id
    | exact fun _ => rfl
    | split
    | (intro _; try dsimp only)

theorem State.liveEnds_kept {q : Q4} (s : State) (e : Entry) (hk : Kept q s) : Kept q (State.liveEnds s e) := by
  unfold State.liveEnds
  try dsimp only
  repeat' first
    | with_reducible assumption
    | with_reducible apply Kept.ite
    | with_reducible apply State.setF_kept
    | split

theorem State.winSweep_kept {q : Q4} (s : State) (hk : Kept q s) : Kept q (State.winSweep s) := by
  unfold State.winSweep
  try dsimp only
  repeat' first
    | with_reducible assumption
    | simp only [Kept.mk_iff]
    | with_reducible apply K5.of
    | with_reducible apply K5.step
    | with_reducible exact id
    | with_reducible exact Tbl.wf_filter
    | exact fun _ => rfl
    | (intro _; try dsimp only)

theorem State.dropLookup_kept {q : Q4} (s : State) (k : EKey) (hk : Kept q s) : Kept q (State.dropLookup s k) := by
  unfold State.dropLookup
  try dsimp only
  repeat' first
    | with_reducible assumption
    | with_reducible apply Kept.ite
    | simp only [Kept.mk_iff]
    | with_reducible apply K5.of
    | with_reducible apply K5.step
    | with_reducible exact id
    | with_reducible exact Tbl.wf_filter
    | exact fun _ => rfl
    | split
    | (intro _; try dsimp only)

theorem State.recPassed_kept {q : Q4} (s : State) (k : EKey) (hk : Kept q s) : Kept q (State.recPassed s k) := by
  unfold State.recPassed
  try dsimp only
  repeat' first
    | with_reducible assumption
    | with_reducible apply Kept.ite
    | with_reducible apply State.setEntry_kept
    | with_reducible apply State.setSlot_kept
    | with_reducible apply State.timerRestart_kept
    | with_reducible apply State.entrySlotIdle_kept
    | with_reducible apply State.liveEnds_kept
    | with_reducible apply State.winSweep_kept
    | simp only [Kept.mk_iff]
    | with_reducible apply K5.of
    | with_reducible apply K5.step
    | with_reducible exact id
    | with_reducible exact Tbl.wf_filter
    | exact fun _ => rfl
    | split
    | refine KeptP.of_eq (by with_reducible assumption) ?_
    | refine Kept.of_pair (by with_reducible assumption) ?_
    | (intro _; try dsimp only)

theorem State.closeEntry_kept {q : Q4} (s : State) (k : EKey) (hk : Kept q s) : Kept q (State.closeEntry s k) := by
  unfold State.closeEntry
  try dsimp only
  repeat' first
    | with_reducible assumption
    | with_reducible apply Kept.ite
    | with_reducible apply State.updStream_kept
    | with_reducible apply State.setEntry_kept
    | with_reducible apply State.drained_kept
    | with_reducible apply State.winSweep_kept
    | with_reducible apply State.dropLookup_kept
    | simp only [Kept.mk_iff]
    | with_reducible apply K5.of
    | with_reducible apply K5.step
    | with_reducible exact id
    | with_reducible exact Tbl.wf_filter
    | exact fun _ => rfl
    | split
    | refine KeptP.of_eq (by with_reducible assumption) ?_
    | refine Kept.of_pair (by with_reducible assumption) ?_
    | (intro _; try dsimp only)

theorem State.land4_kept {q : Q4} (s : State) (k : EKey) (hk : Kept q s) : Kept q (State.land4 s k) := by
  unfold State.land4
  try dsimp only
  repeat' first
    | with_reducible assumption
    | with_reducible apply Kept.ite
    | with_reducible apply State.vecEvent_kept
    | with_reducible apply State.closeEntry_kept
    | simp only [Kept.mk_iff]
    | with_reducible apply K5.of
    | with_reducible apply K5.step
    | with_reducible exact id
    | exact fun _ => rfl
    | split
    | refine KeptP.of_eq (by with_reducible assumption) ?_
    | refine Kept.of_pair (by with_reducible assumption) ?_
    | (intro _; try dsimp only)

theorem State.raiseFence_kept {q : Q4} (s : State) (e : Entry) (a : Addr) (k : EKey) (hk : Kept q s) : Kept q (State.raiseFence s e a k) := by
  unfold State.raiseFence
  repeat' first
    | with_reducible assumption
    | with_reducible apply Kept.ite
    | with_reducible apply State.issue_kept
    | with_reducible apply State.issueFap_kept
    | split

theorem State.offerSignals_kept {q : Q4} (s : State) (e : Entry) (hk : Kept q s) : Kept q (State.offerSignals s e) := by
  unfold State.offerSignals
  try dsimp only
  repeat' first
    | with_reducible assumption
    | with_reducible apply Kept.ite
    | with_reducible apply State.offer_kept
    | simp only [Kept.mk_iff]
    | with_reducible apply K5.of
    | with_reducible apply K5.step
    | with_reducible exact id
    | with_reducible exact Tbl.wf_filter
    | exact fun _ => rfl
    | split
    | refine KeptP.of_eq (by with_reducible assumption) ?_
    | refine Kept.of_pair (by with_reducible assumption) ?_
    | (intro _; try dsimp only)

theorem State.land3Go_kept {q : Q4} (s : State) (k : EKey) (hk : Kept q s) : Kept q (State.land3Go s k) := by
  unfold State.land3Go
  try dsimp only
  repeat' first
    | with_reducible assumption
    | with_reducible apply Kept.ite
    | with_reducible apply State.updEntry_kept
    | with_reducible apply State.fevMiss_kept
    | with_reducible apply State.land4_kept
    | with_reducible apply State.raiseFence_kept
    | with_reducible apply State.offerSignals_kept
    | simp only [Kept.mk_iff]
    | with_reducible apply K5.of
    | with_reducible apply K5.step
    | with_reducible exact id
    | with_reducible exact Tbl.wf_filter
    | exact fun _ => rfl
    | split
    | refine KeptP.of_eq (by with_reducible assumption) ?_
    | refine Kept.of_pair (by with_reducible assumption) ?_
    | (intro _; try dsimp only)

theorem State.land3_kept {q : Q4} (s : State) (k : EKey) (hk : Kept q s) : Kept q (State.land3 s k) := by
  unfold State.land3
  try dsimp only
  repeat' first
    | with_reducible assumption
    | with_reducible apply Kept.ite
    | with_reducible apply State.updEntry_kept
    | with_reducible apply State.land3Go_kept
    | simp only [Kept.mk_iff]
    | with_reducible apply K5.of
    | with_reducible apply K5.step
    | with_reducible exact id
    | with_reducible exact Tbl.wf_filter
    | exact fun _ => rfl
    | split
    | (intro _; try dsimp only)

theorem State.signalsGo_kept {q : Q4} (s : State) (k : EKey) (hk : Kept q s) : Kept q (State.signalsGo s k) := by
  unfold State.signalsGo
  try dsimp only
  repeat' first
    | with_reducible assumption
    | with_reducible apply State.closeEntry_kept
    | with_reducible apply State.offerSignals_kept
    | simp only [Kept.mk_iff]
    | with_reducible apply K5.of
    | with_reducible apply K5.step
    | with_reducible exact id
    | with_reducible exact Tbl.wf_filter
    | exact fun _ => rfl
    | split
    | refine KeptP.of_eq (by with_reducible assumption) ?_
    | refine Kept.of_pair (by with_reducible assumption) ?_
    | (intro _; try dsimp only)

theorem State.signalsLeft_kept {q : Q4} (s : State) (k : EKey) (hk : Kept q s) : Kept q (State.signalsLeft s k) := by
  unfold State.signalsLeft
  try dsimp only
  repeat' first
    | with_reducible assumption
    | with_reducible apply Kept.ite
    | with_reducible apply State.updEntry_kept
    | with_reducible apply State.signalsGo_kept
    | simp only [Kept.mk_iff]
    | with_reducible apply K5.of
    | with_reducible apply K5.step
    | with_reducible exact id
    | with_reducible exact Tbl.wf_filter
    | exact fun _ => rfl
    | split
    | (intro _; try dsimp only)

theorem State.land3Next_kept {q : Q4} (s : State) (hk : Kept q s) : Kept q (State.land3Next s) := by
  unfold State.land3Next
  try dsimp only
  repeat' first
    | with_reducible assumption
    | with_reducible apply Kept.ite
    | with_reducible apply State.land3Go_kept
    | with_reducible apply State.signalsGo_kept
    | (with_reducible apply Kept.foldl <;> first | (intro _ _ _; try dsimp only) | skip)
    | (with_reducible apply Kept.foldl_fst <;> first | (intro _ _ _; try dsimp only) | skip)
    | (with_reducible apply Kept.foldl_snd <;> first | (intro _ _ _; try dsimp only) | skip)
    | simp only [Kept.mk_iff]
    | with_reducible apply K5.of
    | with_reducible apply K5.step
    | with_reducible exact id
    | with_reducible exact Tbl.wf_filter
    | exact fun _ => rfl
    | split
    | refine KeptP.of_eq (by with_reducible assumption) ?_
    | refine Kept.of_pair (by with_reducible assumption) ?_
    | (intro _; try dsimp only)

theorem State.leave2_kept {q : Q4} (s : State) (k : EKey) (hk : Kept q s) : Kept q (State.leave2 s k) := by
  unfold State.leave2
  try dsimp only
  repeat' first
    | with_reducible assumption
    | simp only [Kept.mk_iff]
    | with_reducible apply K5.of
    | with_reducible apply K5.step
    | with_reducible exact id
    | with_reducible exact Tbl.wf_filter
    | exact fun _ => rfl
    | split
    | (intro _; try dsimp only)

theorem State.reach2_kept {q : Q4} (s : State) (k : EKey) (hk : Kept q s) : Kept q (State.reach2 s k) := by
  unfold State.reach2
  try dsimp only
  repeat' first
    | with_reducible assumption
    | with_reducible apply Kept.ite
    | with_reducible apply State.updEntry_kept
    | simp only [Kept.mk_iff]
    | with_reducible apply K5.of
    | with_reducible apply K5.step
    | with_reducible exact id
    | with_reducible exact Tbl.wf_filter
    | exact fun _ => rfl
    | split
    | (intro _; try dsimp only)

theorem State.land2_kept {q : Q4} (s : State) (k : EKey) (hk : Kept q s) : Kept q (State.land2 s k) := by
  unfold State.land2
  try dsimp only
  repeat' first
    | with_reducible assumption
    | with_reducible apply Kept.ite
    | with_reducible apply State.bump_kept
    | with_reducible apply State.updEntry_kept
    | with_reducible apply State.write_kept
    | with_reducible apply State.updFev3_kept
    | with_reducible apply State.fevMiss_kept
    | with_reducible apply State.recPassed_kept
    | with_reducible apply State.land3_kept
    | with_reducible apply State.leave2_kept
    | with_reducible apply State.reach2_kept
    | simp only [Kept.mk_iff]
    | with_reducible apply K5.of
    | with_reducible apply K5.step
    | with_reducible exact id
    | with_reducible exact Tbl.wf_filter
    | exact fun _ => rfl
    | split
    | refine KeptP.of_eq (by with_reducible assumption) ?_
    | refine Kept.of_pair (by with_reducible assumption) ?_
    | (intro _; try dsimp only)

theorem State.dlogWrite_kept {q : Q4} (s : State) (k : EKey) (e : Entry) (launch : Bool) (digest : Dword) (bytes : Word) (info : BitVec 8) (hk : Kept q s) : Kept q (State.dlogWrite s k e launch digest bytes info) := by
  unfold State.dlogWrite
  try dsimp only
  repeat' first
    | with_reducible assumption
    | with_reducible apply Kept.ite
    | with_reducible apply State.wr_kept
    | with_reducible apply State.bumpF_kept
    | with_reducible apply State.setErr_kept
    | with_reducible apply State.write_kept
    | simp only [Kept.mk_iff]
    | with_reducible apply K5.of
    | with_reducible apply K5.step
    | with_reducible exact id
    | exact fun _ => rfl
    | split
    | (intro _; try dsimp only)

theorem State.land1b_kept {q : Q4} (s : State) (k : EKey) (hk : Kept q s) : Kept q (State.land1b s k) := by
  unfold State.land1b
  try dsimp only
  repeat' first
    | with_reducible assumption
    | with_reducible apply Kept.ite
    | with_reducible apply State.updEntry_kept
    | with_reducible apply State.land2_kept
    | simp only [Kept.mk_iff]
    | with_reducible apply K5.of
    | with_reducible apply K5.step
    | with_reducible exact id
    | exact fun _ => rfl
    | split
    | (intro _; try dsimp only)

theorem State.land1_kept {q : Q4} (s : State) (k : EKey) (hk : Kept q s) : Kept q (State.land1 s k) := by
  unfold State.land1
  try dsimp only
  repeat' first
    | with_reducible assumption
    | with_reducible apply Kept.ite
    | with_reducible apply State.updEntry_kept
    | with_reducible apply State.dlogWrite_kept
    | with_reducible apply State.land1b_kept
    | simp only [Kept.mk_iff]
    | with_reducible apply K5.of
    | with_reducible apply K5.step
    | with_reducible exact id
    | with_reducible exact Tbl.wf_filter
    | exact fun _ => rfl
    | split
    | refine KeptP.of_eq (by with_reducible assumption) ?_
    | refine Kept.of_pair (by with_reducible assumption) ?_
    | (intro _; try dsimp only)

theorem State.landSignals_kept {q : Q4} (s : State) (k : EKey) (hk : Kept q s) : Kept q (State.landSignals s k) := by
  unfold State.landSignals
  try dsimp only
  repeat' first
    | with_reducible assumption
    | with_reducible apply State.recPassed_kept
    | with_reducible apply State.signalsLeft_kept
    | with_reducible apply State.leave2_kept
    | with_reducible apply Kept.ite
    | simp only [Kept.mk_iff]
    | with_reducible apply K5.of
    | with_reducible apply K5.step
    | with_reducible exact id
    | with_reducible exact Tbl.wf_filter
    | exact fun _ => rfl
    | split
    | (intro _; try dsimp only)

theorem State.land0_kept {q : Q4} (s : State) (k : EKey) (hk : Kept q s) : Kept q (State.land0 s k) := by
  unfold State.land0
  try dsimp only
  repeat' first
    | with_reducible assumption
    | with_reducible apply Kept.ite
    | with_reducible apply State.bump_kept
    | with_reducible apply State.setErr_kept
    | with_reducible apply State.raise_kept
    | with_reducible apply State.touchFev_kept
    | with_reducible apply State.fevMiss_kept
    | with_reducible apply State.closeEntry_kept
    | with_reducible apply State.land1_kept
    | with_reducible apply State.landSignals_kept
    | simp only [Kept.mk_iff]
    | with_reducible apply K5.of
    | with_reducible apply K5.step
    | with_reducible exact id
    | with_reducible exact Tbl.wf_filter
    | exact fun _ => rfl
    | split
    | refine KeptP.of_eq (by with_reducible assumption) ?_
    | refine Kept.of_pair (by with_reducible assumption) ?_
    | (intro _; try dsimp only)

theorem State.landIn_kept {q : Q4} (s : State) (k : EKey) (hk : Kept q s) : Kept q (State.landIn s k) := by
  unfold State.landIn
  try dsimp only
  repeat' first
    | with_reducible assumption
    | with_reducible apply State.updEntry_kept
    | with_reducible apply State.land0_kept
    | with_reducible apply State.stage_kept
    | simp only [Kept.mk_iff]
    | with_reducible apply K5.of
    | with_reducible apply K5.step
    | with_reducible exact id
    | with_reducible exact Tbl.wf_filter
    | exact fun _ => rfl
    | split
    | (intro _; try dsimp only)

theorem State.enterLanding_kept {q : Q4} (s : State) (k : EKey) (hk : Kept q s) : Kept q (State.enterLanding s k) := by
  unfold State.enterLanding
  try dsimp only
  repeat' first
    | with_reducible assumption
    | with_reducible apply Kept.ite
    | with_reducible apply State.updEntry_kept
    | with_reducible apply State.landIn_kept
    | with_reducible apply State.stage_kept
    | simp only [Kept.mk_iff]
    | with_reducible apply K5.of
    | with_reducible apply K5.step
    | with_reducible exact id
    | with_reducible exact Tbl.wf_filter
    | exact fun _ => rfl
    | split
    | refine KeptP.of_eq (by with_reducible assumption) ?_
    | refine Kept.of_pair (by with_reducible assumption) ?_
    | (intro _; try dsimp only)

theorem State.done_kept {q : Q4} (s : State) (k : EKey) (hk : Kept q s) : Kept q (State.done s k) := by
  unfold State.done
  try dsimp only
  repeat' first
    | with_reducible assumption
    | with_reducible apply State.updEntry_kept
    | simp only [Kept.mk_iff]
    | with_reducible apply K5.of
    | with_reducible apply K5.step
    | with_reducible exact id
    | exact fun _ => rfl
    | (intro _; try dsimp only)

theorem State.refuseLaunch_kept {q : Q4} (s : State) (k : EKey) (f : Failure) (hk : Kept q s) : Kept q (State.refuseLaunch s k f) := by
  unfold State.refuseLaunch
  try dsimp only
  repeat' first
    | with_reducible assumption
    | with_reducible apply State.updEntry_kept
    | with_reducible apply State.freeChan_kept
    | with_reducible apply State.headLeaves_kept
    | with_reducible apply State.entrySlotIdle_kept
    | with_reducible apply State.dropLookup_kept
    | with_reducible apply State.done_kept
    | (intro _; try dsimp only)

theorem State.cbFault_kept {q : Q4} (s : State) (k : EKey) (code : Nat) (hk : Kept q s) : Kept q (State.cbFault s k code) := by
  unfold State.cbFault
  try dsimp only
  repeat' first
    | with_reducible assumption
    | with_reducible apply State.bump_kept
    | with_reducible apply State.raise_kept
    | with_reducible apply State.refuseLaunch_kept
    | simp only [Kept.mk_iff]
    | with_reducible apply K5.of
    | with_reducible apply K5.step
    | with_reducible exact id
    | exact fun _ => rfl
    | split
    | refine KeptP.of_eq (by with_reducible assumption) ?_
    | refine Kept.of_pair (by with_reducible assumption) ?_
    | (intro _; try dsimp only)

/-! Functions of Machine/Sync.lean. -/

theorem State.setObj_kept {q : Q4} (s : State) (n : Nat) (o : SyncObj) (hk : Kept q s) : Kept q (State.setObj s n o) := by
  unfold State.setObj
  try dsimp only
  repeat' first
    | with_reducible assumption
    | simp only [Kept.mk_iff]
    | with_reducible apply K5.of
    | with_reducible apply K5.step
    | with_reducible exact id
    | exact Tbl.wf_set
    | exact fun _ => rfl
    | (intro _; try dsimp only)

theorem State.tryReadback_kept {q : Q4} (s : State) (k : EKey) (hk : Kept q s) : Kept q (State.tryReadback s k) := by
  unfold State.tryReadback
  try dsimp only
  repeat' first
    | with_reducible assumption
    | with_reducible apply Kept.ite
    | with_reducible apply State.updEntry_kept
    | with_reducible apply State.readLines_kept
    | simp only [Kept.mk_iff]
    | with_reducible apply K5.of
    | with_reducible apply K5.step
    | with_reducible exact id
    | exact fun _ => rfl
    | split
    | refine KeptP.of_eq (by with_reducible assumption) ?_
    | refine Kept.of_pair (by with_reducible assumption) ?_
    | (intro _; try dsimp only)

theorem State.enter7_kept {q : Q4} (s : State) (k : EKey) (hk : Kept q s) : Kept q (State.enter7 s k) := by
  unfold State.enter7
  try dsimp only
  repeat' first
    | with_reducible assumption
    | with_reducible apply Kept.ite
    | with_reducible apply State.updEntry_kept
    | simp only [Kept.mk_iff]
    | with_reducible apply K5.of
    | with_reducible apply K5.step
    | with_reducible exact id
    | exact fun _ => rfl
    | split
    | (intro _; try dsimp only)

theorem State.leave6_kept {q : Q4} (s : State) (k : EKey) (hk : Kept q s) : Kept q (State.leave6 s k) := by
  unfold State.leave6
  try dsimp only
  repeat' first
    | with_reducible assumption
    | with_reducible apply Kept.ite
    | with_reducible apply State.updEntry_kept
    | with_reducible apply State.headLeaves_kept
    | with_reducible apply State.enterLanding_kept
    | with_reducible apply State.tryReadback_kept
    | with_reducible apply State.enter7_kept
    | simp only [Kept.mk_iff]
    | with_reducible apply K5.of
    | with_reducible apply K5.step
    | with_reducible exact id
    | exact fun _ => rfl
    | split
    | refine KeptP.of_eq (by with_reducible assumption) ?_
    | refine Kept.of_pair (by with_reducible assumption) ?_
    | (intro _; try dsimp only)

theorem State.park_kept {q : Q4} (s : State) (k : EKey) (i : Nat) (value : Dword) (target : Dword) (hk : Kept q s) : Kept q (State.park s k i value target) := by
  unfold State.park
  try dsimp only
  repeat' first
    | with_reducible assumption
    | with_reducible apply Kept.ite
    | with_reducible apply State.bump_kept
    | with_reducible apply State.updStream_kept
    | with_reducible apply State.updEntry_kept
    | with_reducible apply State.writeLines_kept
    | with_reducible apply State.entrySlotIdle_kept
    | with_reducible apply State.cbFault_kept
    | with_reducible apply State.stage_kept
    | simp only [Kept.mk_iff]
    | with_reducible apply K5.of
    | with_reducible apply K5.step
    | with_reducible exact id
    | with_reducible exact Tbl.wf_filter
    | exact fun _ => rfl
    | split
    | refine KeptP.of_eq (by with_reducible assumption) ?_
    | refine Kept.of_pair (by with_reducible assumption) ?_
    | (intro _; try dsimp only)

theorem State.evalPairs_kept {q : Q4} (s : State) (k : EKey) (u : Line) (i : Nat) (hk : Kept q s) :
    ∀ n, Kept q (s.evalPairs k u i n) := by
  intro n
  induction n generalizing i with
  | zero => exact State.leave6_kept _ _ hk
  | succ n ih =>
    unfold State.evalPairs
    dsimp only
    repeat' first
      | exact ih _
      | with_reducible assumption
      | with_reducible apply Kept.ite
      | with_reducible apply State.cbFault_kept
      | with_reducible apply State.park_kept
      | with_reducible apply State.setObj_kept
      | with_reducible apply State.read_kept
      | with_reducible apply State.issueFap_kept
      | with_reducible apply State.updEntry_kept
      | with_reducible apply State.bump_kept

theorem State.stage6_kept {q : Q4} (s : State) (k : EKey) (i : Nat) (hk : Kept q s) : Kept q (State.stage6 s k i) := by
  unfold State.stage6
  try dsimp only
  repeat' first
    | with_reducible assumption
    | with_reducible apply State.leave6_kept
    | with_reducible apply State.evalPairs_kept
    | simp only [Kept.mk_iff]
    | with_reducible apply K5.of
    | with_reducible apply K5.step
    | with_reducible exact id
    | exact fun _ => rfl
    | split
    | refine KeptP.of_eq (by with_reducible assumption) ?_
    | refine Kept.of_pair (by with_reducible assumption) ?_
    | (intro _; try dsimp only)

theorem State.release_kept {q : Q4} (s : State) (w : Who) (hk : Kept q s) : Kept q (State.release s w) := by
  unfold State.release
  try dsimp only
  repeat' first
    | with_reducible assumption
    | with_reducible apply State.bump_kept
    | with_reducible apply State.updStream_kept
    | with_reducible apply State.updEntry_kept
    | with_reducible apply State.stage6_kept
    | simp only [Kept.mk_iff]
    | with_reducible apply K5.of
    | with_reducible apply K5.step
    | with_reducible exact id
    | exact fun _ => rfl
    | split
    | refine Kept.of_pair (by with_reducible assumption) ?_
    | (intro _; try dsimp only)

theorem State.setMirror_kept {q : Q4} (s : State) (m : Nat) (x : Mirror) (hk : Kept q s) : Kept q (State.setMirror s m x) := by
  unfold State.setMirror
  try dsimp only
  repeat' first
    | with_reducible assumption
    | simp only [Kept.mk_iff]
    | with_reducible apply K5.of
    | with_reducible apply K5.step
    | with_reducible exact id
    | exact Tbl.wf_set
    | exact fun _ => rfl
    | (intro _; try dsimp only)

theorem State.mirrorWrite_kept {q : Q4} (s : State) (m : Nat) (hk : Kept q s) : Kept q (State.mirrorWrite s m) := by
  unfold State.mirrorWrite
  try dsimp only
  repeat' first
    | with_reducible assumption
    | with_reducible apply Kept.ite
    | with_reducible apply State.atomic_kept
    | with_reducible apply State.setMirror_kept
    | simp only [Kept.mk_iff]
    | with_reducible apply K5.of
    | with_reducible apply K5.step
    | with_reducible exact id
    | exact fun _ => rfl
    | split

theorem State.soEvent_kept {q : Q4} (s : State) (n : Nat) (code : Nat) (sev : Nat) (hk : Kept q s) : Kept q (State.soEvent s n code sev) := by
  unfold State.soEvent
  try dsimp only
  repeat' first
    | with_reducible assumption
    | with_reducible apply State.raise_kept
    | simp only [Kept.mk_iff]
    | with_reducible apply K5.of
    | with_reducible apply K5.step
    | with_reducible exact id
    | exact fun _ => rfl

theorem State.flagPass_kept {q : Q4} (s : State) (n : Nat) (hk : Kept q s) : Kept q (State.flagPass s n) := by
  unfold State.flagPass
  try dsimp only
  repeat' first
    | with_reducible assumption
    | with_reducible apply Kept.ite
    | with_reducible apply State.setObj_kept
    | simp only [Kept.mk_iff]
    | with_reducible apply K5.of
    | with_reducible apply K5.step
    | with_reducible exact id
    | exact fun _ => rfl
    | split

theorem State.applyUpd_kept {q : Q4} (s : State) (u : Upd) (hk : Kept q s) : Kept q (State.applyUpd s u) := by
  unfold State.applyUpd
  try dsimp only
  repeat' first
    | with_reducible assumption
    | with_reducible apply Kept.ite
    | with_reducible apply State.bump_kept
    | with_reducible apply State.setErr_kept
    | with_reducible apply State.setObj_kept
    | with_reducible apply State.mirrorWrite_kept
    | with_reducible apply State.soEvent_kept
    | with_reducible apply State.flagPass_kept
    | simp only [Kept.mk_iff]
    | with_reducible apply K5.of
    | with_reducible apply K5.step
    | with_reducible exact id
    | exact fun _ => rfl
    | split
    | refine KeptP.of_eq (by with_reducible assumption) ?_
    | refine Kept.of_pair (by with_reducible assumption) ?_
    | (intro _; try dsimp only)

theorem State.bankApply_kept {q : Q4} (s : State) (bank : BitVec 1) (o : Offer) (hk : Kept q s) : Kept q (State.bankApply s bank o) := by
  unfold State.bankApply
  try dsimp only
  repeat' first
    | with_reducible assumption
    | with_reducible apply Kept.ite
    | with_reducible apply State.setStream_kept
    | with_reducible apply State.updStream_kept
    | with_reducible apply State.queueReady_kept
    | with_reducible apply State.offer_kept
    | with_reducible apply State.land3Next_kept
    | with_reducible apply State.enterLanding_kept
    | with_reducible apply State.applyUpd_kept
    | simp only [Kept.mk_iff]
    | with_reducible apply K5.of
    | with_reducible apply K5.step
    | with_reducible exact id
    | with_reducible exact Tbl.wf_filter
    | exact fun _ => rfl
    | split
    | refine KeptP.of_eq (by with_reducible assumption) ?_
    | refine Kept.of_pair (by with_reducible assumption) ?_
    | (intro _; try dsimp only)

theorem State.setWatch_kept {q : Q4} (s : State) (n : Nat) (w : Watch) (hk : Kept q s) : Kept q (State.setWatch s n w) := by
  unfold State.setWatch
  try dsimp only
  repeat' first
    | with_reducible assumption
    | simp only [Kept.mk_iff]
    | with_reducible apply K5.of
    | with_reducible apply K5.step
    | with_reducible exact id
    | exact Tbl.wf_set
    | exact fun _ => rfl
    | (intro _; try dsimp only)

theorem State.addPoll_kept {q : Q4} (s : State) (p : Poll) (hk : Kept q s) : Kept q (State.addPoll s p) := by
  unfold State.addPoll
  try dsimp only
  repeat' first
    | with_reducible assumption
    | with_reducible apply Kept.ite
    | simp only [Kept.mk_iff]
    | with_reducible apply K5.of
    | with_reducible apply K5.step
    | with_reducible exact id
    | with_reducible exact Tbl.wf_filter
    | exact fun _ => rfl
    | split
    | (intro _; try dsimp only)

theorem State.fillPolls_kept {q : Q4} (s : State) (hk : Kept q s) : Kept q (State.fillPolls s) := by
  unfold State.fillPolls
  try dsimp only
  repeat' first
    | with_reducible assumption
    | with_reducible apply State.addPoll_kept
    | (with_reducible apply Kept.foldl <;> first | (intro _ _ _; try dsimp only) | skip)
    | simp only [Kept.mk_iff]
    | with_reducible apply K5.of
    | with_reducible apply K5.step
    | with_reducible exact id
    | exact fun _ => rfl
    | (intro _; try dsimp only)

theorem State.addWatch_kept {q : Q4} (s : State) (p : Poll) (hk : Kept q s) : Kept q (State.addWatch s p) := by
  unfold State.addWatch
  try dsimp only
  repeat' first
    | with_reducible assumption
    | with_reducible apply State.issueFap_kept
    | with_reducible apply State.setWatch_kept
    | with_reducible apply State.addPoll_kept
    | simp only [Kept.mk_iff]
    | with_reducible apply K5.of
    | with_reducible apply K5.step
    | with_reducible exact id
    | exact fun _ => rfl
    | split
    | refine KeptP.of_eq (by with_reducible assumption) ?_
    | refine Kept.of_pair (by with_reducible assumption) ?_
    | (intro _; try dsimp only)

theorem State.fenceValue_kept {q : Q4} (s : State) (k : EKey) (i : Nat) (old : Dword) (hk : Kept q s) : Kept q (State.fenceValue s k i old) := by
  unfold State.fenceValue
  try dsimp only
  repeat' first
    | with_reducible assumption
    | with_reducible apply Kept.ite
    | with_reducible apply State.cbFault_kept
    | with_reducible apply State.park_kept
    | with_reducible apply State.stage6_kept
    | with_reducible apply State.addPoll_kept
    | with_reducible apply State.addWatch_kept
    | simp only [Kept.mk_iff]
    | with_reducible apply K5.of
    | with_reducible apply K5.step
    | with_reducible exact id
    | exact fun _ => rfl
    | split
    | refine KeptP.of_eq (by with_reducible assumption) ?_
    | refine Kept.of_pair (by with_reducible assumption) ?_
    | (intro _; try dsimp only)

theorem State.fenceError_kept {q : Q4} (s : State) (k : EKey) (hk : Kept q s) : Kept q (State.fenceError s k) := by
  unfold State.fenceError
  try dsimp only
  repeat' first
    | with_reducible assumption
    | with_reducible apply State.updStream_kept
    | with_reducible apply State.entrySlotIdle_kept
    | with_reducible apply State.streamFault_kept
    | with_reducible apply State.closeEntry_kept
    | simp only [Kept.mk_iff]
    | with_reducible apply K5.of
    | with_reducible apply K5.step
    | with_reducible exact id
    | exact fun _ => rfl
    | split
    | refine KeptP.of_eq (by with_reducible assumption) ?_
    | refine Kept.of_pair (by with_reducible assumption) ?_
    | (intro _; try dsimp only)

theorem State.pollHit_kept {q : Q4} (s : State) (p : Poll) (v : Dword) (hk : Kept q s) : Kept q (State.pollHit s p v) := by
  unfold State.pollHit
  try dsimp only
  repeat' first
    | with_reducible assumption
    | with_reducible apply Kept.ite
    | with_reducible apply State.release_kept
    | with_reducible apply State.fillPolls_kept
    | simp only [Kept.mk_iff]
    | with_reducible apply K5.of
    | with_reducible apply K5.step
    | with_reducible exact id
    | exact fun _ => rfl
    | split

theorem State.pollFail_kept {q : Q4} (s : State) (p : Poll) (hk : Kept q s) : Kept q (State.pollFail s p) := by
  unfold State.pollFail
  try dsimp only
  repeat' first
    | with_reducible assumption
    | with_reducible apply Kept.ite
    | with_reducible apply State.fillPolls_kept
    | with_reducible apply State.fenceError_kept
    | simp only [Kept.mk_iff]
    | with_reducible apply K5.of
    | with_reducible apply K5.step
    | with_reducible exact id
    | exact fun _ => rfl
    | split

theorem State.pollIssue_kept {q : Q4} (s : State) (a : Addr) (hk : Kept q s) : Kept q (State.pollIssue s a) := by
  unfold State.pollIssue
  try dsimp only
  repeat' first
    | with_reducible assumption
    | with_reducible apply Kept.ite
    | with_reducible apply State.read_kept
    | with_reducible apply State.issueFap_kept
    | simp only [Kept.mk_iff]
    | with_reducible apply K5.of
    | with_reducible apply K5.step
    | with_reducible exact id
    | with_reducible exact Tbl.wf_filter
    | exact fun _ => rfl
    | split
    | (intro _; try dsimp only)

theorem State.pollRead_kept {q : Q4} (s : State) (a : Addr) (err : Bool) (line : Line) (hk : Kept q s) : Kept q (State.pollRead s a err line) := by
  unfold State.pollRead
  try dsimp only
  repeat' first
    | with_reducible assumption
    | with_reducible apply Kept.ite
    | with_reducible apply State.pollHit_kept
    | with_reducible apply State.pollFail_kept
    | (with_reducible apply Kept.foldl <;> first | (intro _ _ _; try dsimp only) | skip)
    | (with_reducible apply Kept.foldl_fst <;> first | (intro _ _ _; try dsimp only) | skip)
    | (with_reducible apply Kept.foldl_snd <;> first | (intro _ _ _; try dsimp only) | skip)
    | simp only [Kept.mk_iff]
    | with_reducible apply K5.of
    | with_reducible apply K5.step
    | with_reducible exact id
    | with_reducible exact Tbl.wf_filter
    | exact fun _ => rfl
    | split
    | (intro _; try dsimp only)

theorem State.resyncRead_kept {q : Q4} (s : State) (a : Addr) (err : Bool) (line : Line) (hk : Kept q s) : Kept q (State.resyncRead s a err line) := by
  unfold State.resyncRead
  try dsimp only
  repeat' first
    | with_reducible assumption
    | with_reducible apply Kept.ite
    | with_reducible apply State.issueFap_kept
    | with_reducible apply State.release_kept
    | with_reducible apply State.setWatch_kept
    | with_reducible apply State.fenceError_kept
    | with_reducible apply State.pollRead_kept
    | (with_reducible apply Kept.foldl <;> first | (intro _ _ _; try dsimp only) | skip)
    | (with_reducible apply Kept.foldl_fst <;> first | (intro _ _ _; try dsimp only) | skip)
    | (with_reducible apply Kept.foldl_snd <;> first | (intro _ _ _; try dsimp only) | skip)
    | simp only [Kept.mk_iff]
    | with_reducible apply K5.of
    | with_reducible apply K5.step
    | with_reducible exact id
    | with_reducible exact Tbl.wf_filter
    | exact fun _ => rfl
    | split
    | (intro _; try dsimp only)

theorem execFenceReadReturn_kept {q : Q4} (fab : Bool) (mtag : BitVec 8) (gen : BitVec 4) (err : Bool) (line : Line) (s : State) (hk : Kept q s) : KeptO q (execFenceReadReturn fab mtag gen err line s) := by
  unfold execFenceReadReturn
  try dsimp only
  repeat' first
    | with_reducible assumption
    | exact KeptO.fault
    | exact KeptO.refused
    | with_reducible apply KeptO.next
    | with_reducible apply KeptO.ite
    | with_reducible apply Kept.ite
    | with_reducible apply State.answer_kept
    | with_reducible apply State.answerFap_kept
    | with_reducible apply State.fenceValue_kept
    | with_reducible apply State.fenceError_kept
    | with_reducible apply State.pollRead_kept
    | with_reducible apply State.resyncRead_kept
    | simp only [Kept.mk_iff]
    | with_reducible apply K5.of
    | with_reducible apply K5.step
    | with_reducible exact id
    | with_reducible exact Tbl.wf_filter
    | exact fun _ => rfl
    | split
    | refine KeptP.of_eq (by with_reducible assumption) ?_
    | refine Kept.of_pair (by with_reducible assumption) ?_
    | (intro _; try dsimp only)

theorem execPollInterval_kept {q : Q4} (order : List Addr) (s : State) (hk : Kept q s) : KeptO q (execPollInterval order s) := by
  unfold execPollInterval
  try dsimp only
  repeat' first
    | with_reducible assumption
    | exact KeptO.fault
    | exact KeptO.refused
    | with_reducible apply KeptO.next
    | with_reducible apply KeptO.ite
    | with_reducible apply Kept.ite
    | with_reducible apply State.wr_kept
    | with_reducible apply State.idleExit_kept
    | with_reducible apply State.pollIssue_kept
    | (with_reducible apply Kept.foldl <;> first | (intro _ _ _; try dsimp only) | skip)
    | (with_reducible apply Kept.foldl_fst <;> first | (intro _ _ _; try dsimp only) | skip)
    | (with_reducible apply Kept.foldl_snd <;> first | (intro _ _ _; try dsimp only) | skip)
    | simp only [Kept.mk_iff]
    | with_reducible apply K5.of
    | with_reducible apply K5.step
    | with_reducible exact id
    | with_reducible exact Tbl.wf_filter
    | exact fun _ => rfl
    | split
    | (intro _; try dsimp only)

theorem State.fenceWritten_kept {q : Q4} (s : State) (a : Addr) (v : Dword) (hk : Kept q s) : Kept q (State.fenceWritten s a v) := by
  unfold State.fenceWritten
  try dsimp only
  repeat' first
    | with_reducible assumption
    | with_reducible apply State.pollHit_kept
    | (with_reducible apply Kept.foldl <;> first | (intro _ _ _; try dsimp only) | skip)
    | (intro _; try dsimp only)

theorem execWatchNotify_kept {q : Q4} (watch : BitVec 8) (gen : BitVec 4) (value : Dword) (s : State) (hk : Kept q s) : KeptO q (execWatchNotify watch gen value s) := by
  unfold execWatchNotify
  try dsimp only
  repeat' first
    | with_reducible assumption
    | with_reducible apply KeptO.next
    | with_reducible apply KeptO.ite
    | with_reducible apply Kept.ite
    | with_reducible apply State.bump_kept
    | with_reducible apply State.idleExit_kept
    | with_reducible apply State.release_kept
    | with_reducible apply State.setWatch_kept
    | simp only [Kept.mk_iff]
    | with_reducible apply K5.of
    | with_reducible apply K5.step
    | with_reducible exact id
    | exact fun _ => rfl
    | split
    | refine KeptP.of_eq (by with_reducible assumption) ?_
    | refine Kept.of_pair (by with_reducible assumption) ?_
    | (intro _; try dsimp only)

theorem execWatchCancelDone_kept {q : Q4} (mtag : BitVec 8) (gen : BitVec 4) (_err : Bool) (s : State) (hk : Kept q s) : KeptO q (execWatchCancelDone mtag gen _err s) := by
  unfold execWatchCancelDone
  try dsimp only
  repeat' first
    | with_reducible assumption
    | with_reducible apply KeptO.next
    | with_reducible apply State.answerFap_kept
    | with_reducible apply State.setWatch_kept
    | simp only [Kept.mk_iff]
    | with_reducible apply K5.of
    | with_reducible apply K5.step
    | with_reducible exact id
    | exact fun _ => rfl
    | split
    | refine KeptP.of_eq (by with_reducible assumption) ?_
    | refine Kept.of_pair (by with_reducible assumption) ?_
    | (intro _; try dsimp only)

theorem State.voidWaiters_kept {q : Q4} (s : State) (f : EKey → Bool) (hk : Kept q s) : Kept q (State.voidWaiters s f) := by
  unfold State.voidWaiters
  try dsimp only
  repeat' first
    | with_reducible assumption
    | with_reducible apply Kept.ite
    | with_reducible apply State.issueFap_kept
    | with_reducible apply State.setWatch_kept
    | with_reducible apply State.fillPolls_kept
    | (with_reducible apply Kept.foldl <;> first | (intro _ _ _; try dsimp only) | skip)
    | (with_reducible apply Kept.foldl_fst <;> first | (intro _ _ _; try dsimp only) | skip)
    | (with_reducible apply Kept.foldl_snd <;> first | (intro _ _ _; try dsimp only) | skip)
    | simp only [Kept.mk_iff]
    | with_reducible apply K5.of
    | with_reducible apply K5.step
    | with_reducible exact id
    | with_reducible exact Tbl.wf_filter
    | exact fun h => Tbl.wf_remap h
    | exact fun _ => rfl
    | split
    | refine KeptP.of_eq (by with_reducible assumption) ?_
    | refine Kept.of_pair (by with_reducible assumption) ?_
    | (intro _; try dsimp only)

theorem execMirrorWriteResult_kept {q : Q4} (fab : Bool) (mtag : BitVec 8) (gen : BitVec 4) (err : Bool) (_old : Dword) (s : State) (hk : Kept q s) : KeptO q (execMirrorWriteResult fab mtag gen err _old s) := by
  unfold execMirrorWriteResult
  try dsimp only
  repeat' first
    | with_reducible assumption
    | with_reducible apply KeptO.next
    | with_reducible apply KeptO.ite
    | with_reducible apply Kept.ite
    | with_reducible apply State.setErr_kept
    | with_reducible apply State.raise_kept
    | with_reducible apply State.answerAtom_kept
    | with_reducible apply State.setMirror_kept
    | with_reducible apply State.mirrorWrite_kept
    | simp only [Kept.mk_iff]
    | with_reducible apply K5.of
    | with_reducible apply K5.step
    | with_reducible exact id
    | exact fun _ => rfl
    | split
    | refine KeptP.of_eq (by with_reducible assumption) ?_
    | refine Kept.of_pair (by with_reducible assumption) ?_
    | (intro _; try dsimp only)

theorem execMirrorRetry_kept {q : Q4} (s : State) (hk : Kept q s) : KeptO q (execMirrorRetry s) := by
  unfold execMirrorRetry
  try dsimp only
  repeat' first
    | with_reducible assumption
    | with_reducible apply KeptO.next
    | with_reducible apply KeptO.ite
    | with_reducible apply Kept.ite
    | with_reducible apply State.mirrorWrite_kept
    | (with_reducible apply Kept.foldl <;> first | (intro _ _ _; try dsimp only) | skip)
    | split
    | (intro _; try dsimp only)

theorem State.atomCmd_kept {q : Q4} (s : State) (op : BitVec 4) (hk : Kept q s) : Kept q (State.atomCmd s op) := by
  unfold State.atomCmd
  try dsimp only
  repeat' first
    | with_reducible assumption
    | with_reducible apply Kept.ite
    | with_reducible apply State.setBit_kept
    | with_reducible apply State.setErr_kept
    | with_reducible apply State.atomic_kept
    | split

theorem execAtomResult_kept {q : Q4} (fab : Bool) (mtag : BitVec 8) (gen : BitVec 4) (err : Bool) (old : Dword) (s : State) (hk : Kept q s) : KeptO q (execAtomResult fab mtag gen err old s) := by
  unfold execAtomResult
  try dsimp only
  repeat' first
    | with_reducible assumption
    | with_reducible apply KeptO.next
    | with_reducible apply KeptO.ite
    | with_reducible apply Kept.ite
    | with_reducible apply State.setBit_kept
    | with_reducible apply State.wr64_kept
    | with_reducible apply State.answerAtom_kept
    | simp only [Kept.mk_iff]
    | with_reducible apply K5.of
    | with_reducible apply K5.step
    | with_reducible exact id
    | exact fun _ => rfl
    | split
    | refine KeptP.of_eq (by with_reducible assumption) ?_
    | refine Kept.of_pair (by with_reducible assumption) ?_
    | (intro _; try dsimp only)

theorem State.mirrorEnable_kept {q : Q4} (s : State) (hk : Kept q s) : Kept q (State.mirrorEnable s) := by
  unfold State.mirrorEnable
  try dsimp only
  repeat' first
    | with_reducible assumption
    | with_reducible apply State.mirrorWrite_kept
    | (with_reducible apply Kept.foldl <;> first | (intro _ _ _; try dsimp only) | skip)
    | (intro _; try dsimp only)

theorem State.mirrorObjWrite_kept {q : Q4} (s : State) (m : Nat) (v : Word) (hk : Kept q s) : Kept q (State.mirrorObjWrite s m v) := by
  unfold State.mirrorObjWrite
  try dsimp only
  repeat' first
    | with_reducible assumption
    | with_reducible apply Kept.ite
    | with_reducible apply State.wr_kept
    | with_reducible apply State.setBit_kept
    | with_reducible apply State.setErr_kept
    | with_reducible apply State.setMirror_kept
    | with_reducible apply State.mirrorWrite_kept
    | split

/-! Functions of Machine/Loss.lean. -/

theorem State.freeThread_kept {q : Q4} (s : State) (e : Entry) (hk : Kept q s) : Kept q (State.freeThread s e) := by
  unfold State.freeThread
  try dsimp only
  repeat' first
    | with_reducible assumption
    | with_reducible apply State.setThread_kept
    | simp only [Kept.mk_iff]
    | with_reducible apply K5.of
    | with_reducible apply K5.step
    | with_reducible exact id
    | exact fun _ => rfl
    | split
    | refine KeptP.of_eq (by with_reducible assumption) ?_
    | refine Kept.of_pair (by with_reducible assumption) ?_
    | (intro _; try dsimp only)

theorem State.tryDone_kept {q : Q4} (s : State) (k : EKey) (hk : Kept q s) : Kept q (State.tryDone s k) := by
  unfold State.tryDone
  try dsimp only
  repeat' first
    | with_reducible assumption
    | with_reducible apply Kept.ite
    | with_reducible apply State.done_kept
    | simp only [Kept.mk_iff]
    | with_reducible apply K5.of
    | with_reducible apply K5.step
    | with_reducible exact id
    | exact fun _ => rfl
    | split
    | refine KeptP.of_eq (by with_reducible assumption) ?_
    | refine Kept.of_pair (by with_reducible assumption) ?_
    | (intro _; try dsimp only)

theorem State.dropFlits_kept {q : Q4} (s : State) (f : CmdWho → Bool) (hk : Kept q s) : Kept q (State.dropFlits s f) := by
  unfold State.dropFlits
  try dsimp only
  repeat' first
    | with_reducible assumption
    | simp only [Kept.mk_iff]
    | with_reducible apply K5.of
    | with_reducible apply K5.step
    | with_reducible exact id
    | with_reducible exact Tbl.wf_filter
    | exact fun _ => rfl
    | (intro _; try dsimp only)

theorem State.abort_kept {q : Q4} (s : State) (k : EKey) (code : BitVec 8) (hk : Kept q s) : Kept q (State.abort s k code) := by
  unfold State.abort
  try dsimp only
  repeat' first
    | with_reducible assumption
    | with_reducible apply Kept.ite
    | with_reducible apply State.setEntry_kept
    | with_reducible apply State.voidWaiters_kept
    | with_reducible apply State.freeThread_kept
    | with_reducible apply State.tryDone_kept
    | with_reducible apply State.dropFlits_kept
    | simp only [Kept.mk_iff]
    | with_reducible apply K5.of
    | with_reducible apply K5.step
    | with_reducible exact id
    | exact fun _ => rfl
    | split
    | refine KeptP.of_eq (by with_reducible assumption) ?_
    | refine Kept.of_pair (by with_reducible assumption) ?_
    | (intro _; try dsimp only)

theorem State.ctxLine1_kept {q : Q4} (s : State) (p : BitVec 4) (ctx : BitVec 16) (f : Line → Line) (ch : CtxChange) (hk : Kept q s) : Kept q (State.ctxLine1 s p ctx f ch) := by
  unfold State.ctxLine1
  try dsimp only
  repeat' first
    | with_reducible assumption
    | with_reducible apply Kept.ite
    | with_reducible apply State.setSlot_kept
    | with_reducible apply State.read_kept
    | simp only [Kept.mk_iff]
    | with_reducible apply K5.of
    | with_reducible apply K5.step
    | with_reducible exact id
    | exact fun _ => rfl
    | split
    | refine KeptP.of_eq (by with_reducible assumption) ?_
    | refine Kept.of_pair (by with_reducible assumption) ?_
    | (intro _; try dsimp only)

theorem State.loseLaunches_kept {q : Q4} (s : State) (p : BitVec 4) (ctx : BitVec 16) (code : BitVec 8) (hk : Kept q s) : Kept q (State.loseLaunches s p ctx code) := by
  unfold State.loseLaunches
  try dsimp only
  repeat' first
    | with_reducible assumption
    | with_reducible apply State.updStream_kept
    | with_reducible apply State.refuseLaunch_kept
    | with_reducible apply State.voidWaiters_kept
    | with_reducible apply State.abort_kept
    | (with_reducible apply Kept.foldl <;> first | (intro _ _ _; try dsimp only) | skip)
    | (with_reducible apply Kept.foldl_fst <;> first | (intro _ _ _; try dsimp only) | skip)
    | (with_reducible apply Kept.foldl_snd <;> first | (intro _ _ _; try dsimp only) | skip)
    | simp only [Kept.mk_iff]
    | with_reducible apply K5.of
    | with_reducible apply K5.step
    | with_reducible exact id
    | with_reducible exact Tbl.wf_filter
    | exact fun _ => rfl
    | split
    | refine KeptP.of_eq (by with_reducible assumption) ?_
    | refine Kept.of_pair (by with_reducible assumption) ?_
    | (intro _; try dsimp only)

theorem State.loseCtx_kept {q : Q4} (s : State) (p : BitVec 4) (ctx : BitVec 16) (reason : BitVec 8) (stream : BitVec 20) (code : BitVec 8) (hk : Kept q s) : Kept q (State.loseCtx s p ctx reason stream code) := by
  unfold State.loseCtx
  try dsimp only
  repeat' first
    | with_reducible assumption
    | with_reducible apply Kept.ite
    | with_reducible apply State.bump_kept
    | with_reducible apply State.ctxLine1_kept
    | with_reducible apply State.loseLaunches_kept
    | simp only [Kept.mk_iff]
    | with_reducible apply K5.of
    | with_reducible apply K5.step
    | with_reducible exact id
    | exact fun _ => rfl
    | split
    | refine KeptP.of_eq (by with_reducible assumption) ?_
    | refine Kept.of_pair (by with_reducible assumption) ?_
    | (intro _; try dsimp only)

theorem State.ctxFault_kept {q : Q4} (s : State) (v : Event) (p : BitVec 4) (ctx : BitVec 16) (stream : BitVec 14) (code : BitVec 8) (hk : Kept q s) : Kept q (State.ctxFault s v p ctx stream code) := by
  unfold State.ctxFault
  repeat' first
    | with_reducible assumption
    | with_reducible apply State.raise_kept
    | with_reducible apply State.loseCtx_kept

/-! Functions of Machine/Scale.lean. -/

theorem State.setScale_kept {q : Q4} (s : State) (n : Nat) (x : ScaleE) (hk : Kept q s) : Kept q (State.setScale s n x) := by
  unfold State.setScale
  try dsimp only
  repeat' first
    | with_reducible assumption
    | simp only [Kept.mk_iff]
    | with_reducible apply K5.of
    | with_reducible apply K5.step
    | with_reducible exact id
    | exact Tbl.wf_set
    | exact fun _ => rfl
    | (intro _; try dsimp only)

theorem State.scaleReport_kept {q : Q4} (s : State) (n : Nat) (amax : Word) (clips : Word) (elems : Word) (send : Bool) (hk : Kept q s) : Kept q (State.scaleReport s n amax clips elems send) := by
  unfold State.scaleReport
  try dsimp only
  repeat' first
    | with_reducible assumption
    | with_reducible apply Kept.ite
    | with_reducible apply State.bump_kept
    | with_reducible apply State.setErr_kept
    | with_reducible apply State.setScale_kept
    | simp only [Kept.mk_iff]
    | with_reducible apply K5.of
    | with_reducible apply K5.step
    | with_reducible exact id
    | with_reducible exact Tbl.wf_filter
    | exact fun _ => rfl
    | split
    | (intro _; try dsimp only)

theorem State.scalInit_kept {q : Q4} (s : State) (v : Word) (hk : Kept q s) : Kept q (State.scalInit s v) := by
  unfold State.scalInit
  try dsimp only
  repeat' first
    | with_reducible assumption
    | with_reducible apply Kept.ite
    | with_reducible apply State.setErr_kept
    | with_reducible apply State.setScale_kept
    | simp only [Kept.mk_iff]
    | with_reducible apply K5.of
    | with_reducible apply K5.step
    | with_reducible exact id
    | exact fun _ => rfl
    | split

theorem State.scalCfg_kept {q : Q4} (s : State) (v : Word) (hk : Kept q s) : Kept q (State.scalCfg s v) := by
  unfold State.scalCfg
  try dsimp only
  repeat' first
    | with_reducible assumption
    | with_reducible apply Kept.ite
    | with_reducible apply State.setErr_kept
    | with_reducible apply State.setScale_kept
    | simp only [Kept.mk_iff]
    | with_reducible apply K5.of
    | with_reducible apply K5.step
    | with_reducible exact id
    | exact fun _ => rfl
    | split

/-! Functions of Machine/Work.lean. -/

theorem State.skipInsn_kept {q : Q4} (s : State) (c : BitVec 4) (t : BitVec 3) (code : Nat) (op : Option Nat) (hk : Kept q s) : Kept q (State.skipInsn s c t code op) := by
  unfold State.skipInsn
  try dsimp only
  repeat' first
    | with_reducible assumption
    | with_reducible apply Kept.ite
    | with_reducible apply State.bump_kept
    | with_reducible apply State.setErr_kept
    | with_reducible apply State.setEntry_kept
    | with_reducible apply State.setThread_kept
    | with_reducible apply State.raise_kept
    | with_reducible apply State.issued_kept
    | simp only [Kept.mk_iff]
    | with_reducible apply K5.of
    | with_reducible apply K5.step
    | with_reducible exact id
    | with_reducible exact Tbl.wf_filter
    | exact fun _ => rfl
    | split
    | refine KeptP.of_eq (by with_reducible assumption) ?_
    | refine Kept.of_pair (by with_reducible assumption) ?_
    | (intro _; try dsimp only)

theorem State.endThread_kept {q : Q4} (s : State) (c : BitVec 4) (t : BitVec 3) (hk : Kept q s) : Kept q (State.endThread s c t) := by
  unfold State.endThread
  try dsimp only
  repeat' first
    | with_reducible assumption
    | with_reducible apply State.updEntry_kept
    | with_reducible apply State.setThread_kept
    | with_reducible apply State.tryDone_kept
    | simp only [Kept.mk_iff]
    | with_reducible apply K5.of
    | with_reducible apply K5.step
    | with_reducible exact id
    | exact fun _ => rfl
    | split
    | refine KeptP.of_eq (by with_reducible assumption) ?_
    | refine Kept.of_pair (by with_reducible assumption) ?_
    | (intro _; try dsimp only)

theorem State.retire_kept {q : Q4} (s : State) (c : BitVec 4) (t : BitVec 3) (pc : Nat) (hk : Kept q s) : Kept q (State.retire s c t pc) := by
  unfold State.retire
  try dsimp only
  repeat' first
    | with_reducible assumption
    | with_reducible apply Kept.ite
    | with_reducible apply State.progress_kept
    | with_reducible apply State.setThread_kept
    | with_reducible apply State.skipInsn_kept
    | with_reducible apply State.endThread_kept
    | simp only [Kept.mk_iff]
    | with_reducible apply K5.of
    | with_reducible apply K5.step
    | with_reducible exact id
    | exact fun _ => rfl
    | split
    | refine KeptP.of_eq (by with_reducible assumption) ?_
    | refine Kept.of_pair (by with_reducible assumption) ?_
    | (intro _; try dsimp only)

theorem State.windowLeaves_kept {q : Q4} (s : State) (e : Entry) (hk : Kept q s) : Kept q (State.windowLeaves s e) := by
  unfold State.windowLeaves
  try dsimp only
  repeat' first
    | with_reducible assumption
    | with_reducible apply Kept.ite
    | with_reducible apply State.setThread_kept
    | with_reducible apply State.retry_kept
    | simp only [Kept.mk_iff]
    | with_reducible apply K5.of
    | with_reducible apply K5.step
    | with_reducible exact id
    | with_reducible exact Tbl.wf_filter
    | exact fun _ => rfl
    | split
    | refine KeptP.of_eq (by with_reducible assumption) ?_
    | refine Kept.of_pair (by with_reducible assumption) ?_
    | (intro _; try dsimp only)

theorem State.opError_kept {q : Q4} (s : State) (k : EKey) (e : Entry) (port : Nat) (kind : BitVec 8) (status : BitVec 8) (detail : BitVec 8) (opidx : BitVec 8) (code : BitVec 8) (hk : Kept q s) : Kept q (State.opError s k e port kind status detail opidx code) := by
  unfold State.opError
  try dsimp only
  repeat' first
    | with_reducible assumption
    | with_reducible apply State.wr_kept
    | with_reducible apply State.bump_kept
    | with_reducible apply State.setErr_kept
    | with_reducible apply State.ctxFault_kept
    | simp only [Kept.mk_iff]
    | with_reducible apply K5.of
    | with_reducible apply K5.step
    | with_reducible exact id
    | with_reducible exact Tbl.wf_filter
    | exact fun _ => rfl
    | split
    | (intro _; try dsimp only)

theorem State.skipOp_kept {q : Q4} (s : State) (k : EKey) (i : Nat) (code : BitVec 8) (hk : Kept q s) : Kept q (State.skipOp s k i code) := by
  unfold State.skipOp
  try dsimp only
  repeat' first
    | with_reducible assumption
    | with_reducible apply State.updEntry_kept
    | simp only [Kept.mk_iff]
    | with_reducible apply K5.of
    | with_reducible apply K5.step
    | with_reducible exact id
    | exact fun _ => rfl
    | (intro _; try dsimp only)

theorem State.makeCand_kept {q : Q4} (s : State) (k : EKey) (i : Nat) (issuing : Bool) (hk : Kept q s) : Kept q (State.makeCand s k i issuing) := by
  unfold State.makeCand
  try dsimp only
  repeat' first
    | with_reducible assumption
    | with_reducible apply Kept.ite
    | with_reducible apply State.bump_kept
    | with_reducible apply State.updEntry_kept
    | with_reducible apply State.raise_kept
    | with_reducible apply State.opError_kept
    | with_reducible apply State.skipOp_kept
    | simp only [Kept.mk_iff]
    | with_reducible apply K5.of
    | with_reducible apply K5.step
    | with_reducible exact id
    | with_reducible exact Tbl.wf_filter
    | exact fun _ => rfl
    | split
    | refine KeptP.of_eq (by with_reducible assumption) ?_
    | refine Kept.of_pair (by with_reducible assumption) ?_
    | (intro _; try dsimp only)

theorem State.promote_kept {q : Q4} (s : State) (k : EKey) (hk : Kept q s) : Kept q (State.promote s k) := by
  unfold State.promote
  try dsimp only
  repeat' first
    | with_reducible assumption
    | with_reducible apply Kept.ite
    | with_reducible apply State.tryDone_kept
    | with_reducible apply State.windowLeaves_kept
    | with_reducible apply State.makeCand_kept
    | (with_reducible apply Kept.foldl <;> first | (intro _ _ _; try dsimp only) | skip)
    | simp only [Kept.mk_iff]
    | with_reducible apply K5.of
    | with_reducible apply K5.step
    | with_reducible exact id
    | exact fun _ => rfl
    | split
    | refine KeptP.of_eq (by with_reducible assumption) ?_
    | refine Kept.of_pair (by with_reducible assumption) ?_
    | (intro _; try dsimp only)

theorem State.opOver_kept {q : Q4} (s : State) (k : EKey) (i : Nat) (st : OpState) (hk : Kept q s) : Kept q (State.opOver s k i st) := by
  unfold State.opOver
  try dsimp only
  repeat' first
    | with_reducible assumption
    | with_reducible apply State.updEntry_kept
    | with_reducible apply State.promote_kept
    | simp only [Kept.mk_iff]
    | with_reducible apply K5.of
    | with_reducible apply K5.step
    | with_reducible exact id
    | exact fun _ => rfl
    | (intro _; try dsimp only)

theorem State.freed_kept {q : Q4} (s : State) (w : Who) (hk : Kept q s) : Kept q (State.freed s w) := by
  unfold State.freed
  try dsimp only
  repeat' first
    | with_reducible assumption
    | with_reducible apply State.release_kept
    | with_reducible apply State.promote_kept
    | simp only [Kept.mk_iff]
    | with_reducible apply K5.of
    | with_reducible apply K5.step
    | with_reducible exact id
    | exact fun _ => rfl
    | split
    | refine Kept.of_pair (by with_reducible assumption) ?_
    | (intro _; try dsimp only)

theorem execWakePass_kept {q : Q4} (s : State) (hk : Kept q s) : KeptO q (execWakePass s) := by
  unfold execWakePass
  try dsimp only
  repeat' first
    | with_reducible assumption
    | with_reducible apply KeptO.next
    | with_reducible apply State.maxF_kept
    | with_reducible apply State.setObj_kept
    | with_reducible apply State.freed_kept
    | (with_reducible apply Kept.foldl <;> first | (intro _ _ _; try dsimp only) | skip)
    | (with_reducible apply Kept.foldl_fst <;> first | (intro _ _ _; try dsimp only) | skip)
    | (with_reducible apply Kept.foldl_snd <;> first | (intro _ _ _; try dsimp only) | skip)
    | simp only [Kept.mk_iff]
    | with_reducible apply K5.of
    | with_reducible apply K5.step
    | with_reducible exact id
    | with_reducible exact Tbl.wf_filter
    | exact fun _ => rfl
    | split
    | refine KeptP.of_eq (by with_reducible assumption) ?_
    | refine Kept.of_pair (by with_reducible assumption) ?_
    | (intro _; try dsimp only)

/-! Functions of Machine/Causeway.lean. -/

theorem State.sendDown_kept {q : Q4} (s : State) (g : Nat) (f : Line) (hk : Kept q s) : Kept q (State.sendDown s g f) := by
  unfold State.sendDown
  try dsimp only
  repeat' first
    | with_reducible assumption
    | with_reducible apply Kept.ite
    | simp only [Kept.mk_iff]
    | with_reducible apply K5.of
    | with_reducible apply K5.step
    | with_reducible exact id
    | exact Tbl.wf_set
    | with_reducible exact Tbl.wf_filter
    | exact fun _ => rfl
    | split
    | refine KeptP.of_eq (by with_reducible assumption) ?_
    | refine Kept.of_pair (by with_reducible assumption) ?_
    | (intro _; try dsimp only)

theorem State.resetDown_kept {q : Q4} (s : State) (n : Nat) (hk : Kept q s) : Kept q (State.resetDown s n) := by
  unfold State.resetDown
  try dsimp only
  repeat' first
    | with_reducible assumption
    | with_reducible apply State.sendDown_kept
    | simp only [Kept.mk_iff]
    | with_reducible apply K5.of
    | with_reducible apply K5.step
    | with_reducible exact id
    | with_reducible exact Tbl.wf_filter
    | exact fun _ => rfl
    | split
    | (intro _; try dsimp only)

/-! Functions of Machine/Arbiter.lean. -/

theorem State.dispPrior_kept {q : Q4} (s : State) (off : Nat) (old : Word) (hk : Kept q s) : Kept q (State.dispPrior s off old) := by
  unfold State.dispPrior
  try dsimp only
  repeat' first
    | with_reducible assumption
    | with_reducible apply Kept.ite
    | simp only [Kept.mk_iff]
    | with_reducible apply K5.of
    | with_reducible apply K5.step
    | with_reducible exact id
    | exact Tbl.wf_set
    | with_reducible exact Tbl.wf_filter
    | exact fun _ => rfl
    | split
    | (intro _; try dsimp only)

theorem State.drrPick_kept {q : Q4} (s : State) (g : Nat) (c : BitVec 2) (ok : List Cand) (hk : Kept q s) : Kept q (State.drrPick s g c ok).1 := by
  unfold State.drrPick
  try dsimp only
  repeat' first
    | with_reducible assumption
    | with_reducible apply Kept.ite
    | (with_reducible apply Kept.foldl <;> first | (intro _ _ _; try dsimp only) | skip)
    | (with_reducible apply Kept.foldl_fst <;> first | (intro _ _ _; try dsimp only) | skip)
    | (with_reducible apply Kept.foldl_snd <;> first | (intro _ _ _; try dsimp only) | skip)
    | simp only [Kept.mk_iff]
    | with_reducible apply K5.of
    | with_reducible apply K5.step
    | with_reducible exact id
    | exact Tbl.wf_set
    | exact fun _ => rfl
    | split
    | refine KeptP.of_eq (by with_reducible assumption) ?_
    | refine Kept.of_pair (by with_reducible assumption) ?_
    | (intro _; try dsimp only)

theorem State.admitPick_kept {q : Q4} (s : State) (g : Nat) (hk : Kept q s) : Kept q (State.admitPick s g).1 := by
  unfold State.admitPick
  try dsimp only
  repeat' first
    | with_reducible assumption
    | with_reducible apply Kept.ite
    | with_reducible apply State.drrPick_kept
    | simp only [Kept.mk_iff]
    | with_reducible apply K5.of
    | with_reducible apply K5.step
    | with_reducible exact id
    | exact Tbl.wf_set
    | with_reducible exact Tbl.wf_filter
    | exact fun _ => rfl
    | split
    | refine KeptP.of_eq (by with_reducible assumption) ?_
    | refine Kept.of_pair (by with_reducible assumption) ?_
    | (intro _; try dsimp only)

theorem State.issueLeaves_kept {q : Q4} (s : State) (k : EKey) (hk : Kept q s) : Kept q (State.issueLeaves s k) := by
  unfold State.issueLeaves
  try dsimp only
  repeat' first
    | with_reducible assumption
    | with_reducible apply State.setEntry_kept
    | with_reducible apply State.retire_kept
    | simp only [Kept.mk_iff]
    | with_reducible apply K5.of
    | with_reducible apply K5.step
    | with_reducible exact id
    | exact fun _ => rfl
    | split
    | refine KeptP.of_eq (by with_reducible assumption) ?_
    | refine Kept.of_pair (by with_reducible assumption) ?_
    | (intro _; try dsimp only)

theorem State.admitOne_kept {q : Q4} (s : State) (x : Cand) (aged : Bool) (hk : Kept q s) : Kept q (State.admitOne s x aged) := by
  unfold State.admitOne
  try dsimp only
  repeat' first
    | with_reducible assumption
    | with_reducible apply Kept.ite
    | with_reducible apply State.bump_kept
    | with_reducible apply State.maxF_kept
    | with_reducible apply State.updEntry_kept
    | with_reducible apply State.issueLeaves_kept
    | simp only [Kept.mk_iff]
    | with_reducible apply K5.of
    | with_reducible apply K5.step
    | with_reducible exact id
    | exact fun _ => rfl
    | split
    | refine KeptP.of_eq (by with_reducible assumption) ?_
    | refine Kept.of_pair (by with_reducible assumption) ?_
    | (intro _; try dsimp only)

theorem State.admitSlot_kept {q : Q4} (s : State) (g : Nat) (hk : Kept q s) : Kept q (State.admitSlot s g) := by
  unfold State.admitSlot
  try dsimp only
  repeat' first
    | with_reducible assumption
    | with_reducible apply State.admitPick_kept
    | with_reducible apply State.admitOne_kept
    | simp only [Kept.mk_iff]
    | with_reducible apply K5.of
    | with_reducible apply K5.step
    | with_reducible exact id
    | exact fun _ => rfl
    | split
    | refine KeptP.of_eq (by with_reducible assumption) ?_
    | refine Kept.of_pair (by with_reducible assumption) ?_
    | (intro _; try dsimp only)

theorem execAdmission_kept {q : Q4} (group : BitVec 3) (s : State) (hk : Kept q s) : KeptO q (execAdmission group s) := by
  unfold execAdmission
  repeat' first
    | with_reducible assumption
    | with_reducible apply KeptO.next
    | with_reducible apply KeptO.ite
    | with_reducible apply Kept.ite
    | with_reducible apply State.admitSlot_kept
    | split

theorem execGrant_kept {q : Q4} (group : BitVec 3) (s : State) (hk : Kept q s) : KeptO q (execGrant group s) := by
  unfold execGrant
  try dsimp only
  repeat' first
    | with_reducible assumption
    | with_reducible apply KeptO.next
    | with_reducible apply KeptO.ite
    | with_reducible apply Kept.ite
    | with_reducible apply State.bumpWrap_kept
    | with_reducible apply State.maxF_kept
    | with_reducible apply State.traceRec_kept
    | with_reducible apply State.progress_kept
    | simp only [Kept.mk_iff]
    | with_reducible apply K5.of
    | with_reducible apply K5.step
    | with_reducible exact id
    | with_reducible exact Tbl.wf_filter
    | exact fun _ => rfl
    | split
    | refine KeptP.of_eq (by with_reducible assumption) ?_
    | refine Kept.of_pair (by with_reducible assumption) ?_
    | (intro _; try dsimp only)

theorem execCommandTransfer_kept {q : Q4} (port : BitVec 7) (s : State) (hk : Kept q s) : KeptO q (execCommandTransfer port s) := by
  unfold execCommandTransfer
  try dsimp only
  repeat' first
    | with_reducible assumption
    | exact KeptO.fault
    | exact KeptO.refused
    | with_reducible apply KeptO.next
    | with_reducible apply KeptO.ite
    | with_reducible apply Kept.ite
    | with_reducible apply State.bump_kept
    | with_reducible apply State.sendDown_kept
    | with_reducible apply State.stage_kept
    | simp only [Kept.mk_iff]
    | with_reducible apply K5.of
    | with_reducible apply K5.step
    | with_reducible exact id
    | with_reducible exact Tbl.wf_filter
    | exact fun _ => rfl
    | split
    | refine KeptP.of_eq (by with_reducible assumption) ?_
    | refine Kept.of_pair (by with_reducible assumption) ?_
    | (intro _; try dsimp only)

theorem State.drainPorts_kept {q : Q4} (s : State) (hk : Kept q s) : Kept q (State.drainPorts s) := by
  unfold State.drainPorts
  try dsimp only
  repeat' first
    | with_reducible assumption
    | with_reducible apply Kept.ite
    | simp only [Kept.mk_iff]
    | with_reducible apply K5.of
    | with_reducible apply K5.step
    | with_reducible exact id
    | with_reducible exact Tbl.wf_filter
    | with_reducible exact Tbl.wf_mapK
    | exact fun _ => rfl
    | split
    | (intro _; try dsimp only)

/-! Functions of Machine/Operands.lean. -/

theorem State.setReg_kept {q : Q4} (s : State) (c : BitVec 4) (t : BitVec 3) (n : Nat) (v : Dword) (hk : Kept q s) : Kept q (State.setReg s c t n v) := by
  unfold State.setReg
  repeat' first
    | with_reducible assumption
    | with_reducible apply State.setThread_kept

theorem Core.setBank_threads (c : Core) (b : BitVec 1) (x : Bank) : (c.setBank b x).threads = c.threads := by
  unfold Core.setBank
  split <;> rfl

theorem State.preempt_kept {q : Q4} (s : State) (c : BitVec 4) (t : BitVec 3) (hk : Kept q s) : Kept q (State.preempt s c t) := by
  unfold State.preempt
  try dsimp only
  repeat' first
    | with_reducible assumption
    | with_reducible apply Kept.ite
    | with_reducible apply State.bump_kept
    | with_reducible apply State.progress_kept
    | with_reducible apply State.setThread_kept
    | (with_reducible apply Kept.foldl <;> first | (intro _ _ _; try dsimp only) | skip)
    | simp only [Kept.mk_iff]
    | with_reducible apply K5.of
    | with_reducible apply K5.step
    | with_reducible exact id
    | exact fun _ => rfl
    | split
    | (intro _; try dsimp only)

theorem State.takeSlot_kept {q : Q4} (s : State) (c : BitVec 4) (t : BitVec 3) (hk : Kept q s) : Kept q (State.takeSlot s c t) := by
  unfold State.takeSlot
  try dsimp only
  repeat' first
    | with_reducible assumption
    | with_reducible apply State.setCore_kept
    | with_reducible apply State.setThread_kept
    | with_reducible apply State.preempt_kept
    | exact Kept.threads (by with_reducible assumption) _
    | (simp only [Core.setBank_threads]; exact Kept.threads (by with_reducible assumption) _)
    | refine Kept.threads (q := q) ?_ _
    | exact (rfl : Tbl.wf (fun _ => Thread.reset) Core.reset.threads = true)
    | simp only [Kept.mk_iff]
    | with_reducible apply K5.of
    | with_reducible apply K5.step
    | with_reducible exact id
    | exact fun _ => rfl

theorem State.stallOn_kept {q : Q4} (s : State) (c : BitVec 4) (t : BitVec 3) (why : Stall) (hk : Kept q s) : Kept q (State.stallOn s c t why) := by
  unfold State.stallOn
  try dsimp only
  repeat' first
    | with_reducible assumption
    | with_reducible apply Kept.ite
    | with_reducible apply State.setThread_kept
    | simp only [Kept.mk_iff]
    | with_reducible apply K5.of
    | with_reducible apply K5.step
    | with_reducible exact id
    | exact fun _ => rfl
    | split

theorem State.skipOn_kept {q : Q4} (s : State) (c : BitVec 4) (t : BitVec 3) (code : Nat) (op : Option Nat) (hk : Kept q s) : Kept q (State.skipOn s c t code op) := by
  unfold State.skipOn
  try dsimp only
  repeat' first
    | with_reducible assumption
    | with_reducible apply State.skipInsn_kept
    | with_reducible apply State.retire_kept

theorem State.writeOn_kept {q : Q4} (s : State) (c : BitVec 4) (t : BitVec 3) (rd : Nat) (v : Dword) (hk : Kept q s) : Kept q (State.writeOn s c t rd v) := by
  unfold State.writeOn
  repeat' first
    | with_reducible assumption
    | with_reducible apply State.retire_kept
    | with_reducible apply State.setReg_kept

end Sys2Proof.Machine
end

