-- ==== Sys2Proof/Laws/KeepsSkerry.lean ====
section
/-! SUPPORT. Every function of the Skerry instructions and the placing of launches keeps the queue, the RTL parameters and the canonical form of the stores (Laws/Kept.lean): one lemma per function. -/
set_option linter.all false
namespace Sys2Proof.Machine

/-! Functions of Machine/Skerry.lean. -/

theorem State.breakHit_kept {q : Q4} (s : State) (c : BitVec 4) (t : BitVec 3) (hk : Kept q s) : Kept q (State.breakHit s c t) := by
  unfold State.breakHit
  try dsimp only
  repeat' first
    | with_reducible assumption
    | with_reducible apply Kept.ite
    | with_reducible apply State.wr_kept
    | with_reducible apply State.setErr_kept
    | with_reducible apply State.setThread_kept
    | simp only [Kept.mk_iff]
    | with_reducible apply K5.of
    | with_reducible apply K5.step
    | with_reducible exact id
    | exact fun _ => rfl
    | split

theorem State.runInsn_kept {q : Q4} (s : State) (c : BitVec 4) (t : BitVec 3) (f : Word → Bool)
    (sem : Word → BitVec 4 → BitVec 3 → State → State) (hs : ∀ w c t s, Kept q s → Kept q (sem w c t s)) (hk : Kept q s) :
    Kept q (s.runInsn c t f sem) := by
  unfold State.runInsn
  dsimp only
  split
  · exact Kept.ite (State.breakHit_kept _ _ _ hk) (hs _ _ _ _ (State.takeSlot_kept _ _ _ hk))
  · exact hk

theorem semAlu_kept {q : Q4} (w : Word) (c : BitVec 4) (t : BitVec 3) (s : State) (hk : Kept q s) : Kept q (semAlu w c t s) := by
  unfold semAlu
  try dsimp only
  repeat' first
    | with_reducible assumption
    | with_reducible apply Kept.ite
    | with_reducible apply State.skipOn_kept
    | with_reducible apply State.writeOn_kept
    | split

theorem semIllegal_kept {q : Q4} (_w : Word) (c : BitVec 4) (t : BitVec 3) (s : State) (hk : Kept q s) : Kept q (semIllegal _w c t s) := by
  unfold semIllegal
  repeat' first
    | with_reducible assumption
    | with_reducible apply State.skipOn_kept

theorem semImm_kept {q : Q4} (w : Word) (c : BitVec 4) (t : BitVec 3) (s : State) (hk : Kept q s) : Kept q (semImm w c t s) := by
  unfold semImm
  repeat' first
    | with_reducible assumption
    | with_reducible apply State.writeOn_kept

theorem semShi_kept {q : Q4} (w : Word) (c : BitVec 4) (t : BitVec 3) (s : State) (hk : Kept q s) : Kept q (semShi w c t s) := by
  unfold semShi
  try dsimp only
  repeat' first
    | with_reducible assumption
    | with_reducible apply Kept.ite
    | with_reducible apply State.skipOn_kept
    | with_reducible apply State.writeOn_kept
    | split

theorem semLui_kept {q : Q4} (w : Word) (c : BitVec 4) (t : BitVec 3) (s : State) (hk : Kept q s) : Kept q (semLui w c t s) := by
  unfold semLui
  repeat' first
    | with_reducible assumption
    | with_reducible apply Kept.ite
    | with_reducible apply State.skipOn_kept
    | with_reducible apply State.writeOn_kept
    | split

theorem semLoad_kept {q : Q4} (n : Nat) (w : Word) (c : BitVec 4) (t : BitVec 3) (s : State) (hk : Kept q s) : Kept q (semLoad n w c t s) := by
  unfold semLoad
  try dsimp only
  repeat' first
    | with_reducible assumption
    | with_reducible apply Kept.ite
    | with_reducible apply State.stallOn_kept
    | with_reducible apply State.skipOn_kept
    | with_reducible apply State.writeOn_kept
    | simp only [Kept.mk_iff]
    | with_reducible apply K5.of
    | with_reducible apply K5.step
    | with_reducible exact id
    | with_reducible exact Tbl.wf_filter
    | exact fun _ => rfl
    | split
    | (intro _; try dsimp only)

theorem semStore_kept {q : Q4} (n : Nat) (w : Word) (c : BitVec 4) (t : BitVec 3) (s : State) (hk : Kept q s) : Kept q (semStore n w c t s) := by
  unfold semStore
  try dsimp only
  repeat' first
    | with_reducible assumption
    | with_reducible apply Kept.ite
    | with_reducible apply State.wr64_kept
    | with_reducible apply State.setThread_kept
    | with_reducible apply State.retire_kept
    | with_reducible apply State.stallOn_kept
    | with_reducible apply State.skipOn_kept
    | simp only [Kept.mk_iff]
    | with_reducible apply K5.of
    | with_reducible apply K5.step
    | with_reducible exact id
    | with_reducible exact Tbl.wf_filter
    | exact fun _ => rfl
    | split
    | (intro _; try dsimp only)

theorem semRdp_kept {q : Q4} (w : Word) (c : BitVec 4) (t : BitVec 3) (s : State) (hk : Kept q s) : Kept q (semRdp w c t s) := by
  unfold semRdp
  try dsimp only
  repeat' first
    | with_reducible assumption
    | with_reducible apply Kept.ite
    | with_reducible apply State.skipOn_kept
    | with_reducible apply State.writeOn_kept
    | split

theorem semWrp_kept {q : Q4} (w : Word) (c : BitVec 4) (t : BitVec 3) (s : State) (hk : Kept q s) : Kept q (semWrp w c t s) := by
  unfold semWrp
  try dsimp only
  repeat' first
    | with_reducible assumption
    | with_reducible apply Kept.ite
    | with_reducible apply State.setThread_kept
    | with_reducible apply State.retire_kept
    | with_reducible apply State.skipOn_kept
    | simp only [Kept.mk_iff]
    | with_reducible apply K5.of
    | with_reducible apply K5.step
    | with_reducible exact id
    | exact fun _ => rfl
    | split

theorem semBranch_kept {q : Q4} (w : Word) (c : BitVec 4) (t : BitVec 3) (s : State) (hk : Kept q s) : Kept q (semBranch w c t s) := by
  unfold semBranch
  try dsimp only
  repeat' first
    | with_reducible assumption
    | with_reducible apply Kept.ite
    | with_reducible apply State.retire_kept
    | with_reducible apply State.skipOn_kept
    | split

theorem semJal_kept {q : Q4} (w : Word) (c : BitVec 4) (t : BitVec 3) (s : State) (hk : Kept q s) : Kept q (semJal w c t s) := by
  unfold semJal
  try dsimp only
  repeat' first
    | with_reducible assumption
    | with_reducible apply Kept.ite
    | with_reducible apply State.retire_kept
    | with_reducible apply State.setReg_kept
    | with_reducible apply State.skipOn_kept
    | split

theorem semJalr_kept {q : Q4} (w : Word) (c : BitVec 4) (t : BitVec 3) (s : State) (hk : Kept q s) : Kept q (semJalr w c t s) := by
  unfold semJalr
  try dsimp only
  repeat' first
    | with_reducible assumption
    | with_reducible apply Kept.ite
    | with_reducible apply State.retire_kept
    | with_reducible apply State.setReg_kept
    | with_reducible apply State.skipOn_kept
    | split

theorem semCsrr_kept {q : Q4} (w : Word) (c : BitVec 4) (t : BitVec 3) (s : State) (hk : Kept q s) : Kept q (semCsrr w c t s) := by
  unfold semCsrr
  try dsimp only
  repeat' first
    | with_reducible assumption
    | with_reducible apply Kept.ite
    | with_reducible apply State.skipOn_kept
    | with_reducible apply State.writeOn_kept
    | simp only [Kept.mk_iff]
    | with_reducible apply K5.of
    | with_reducible apply K5.step
    | with_reducible exact id
    | exact fun _ => rfl
    | split
    | refine KeptP.of_eq (by with_reducible assumption) ?_
    | refine Kept.of_pair (by with_reducible assumption) ?_
    | (intro _; try dsimp only)

theorem State.issued_kept {q : Q4} (s : State) (c : BitVec 4) (t : BitVec 3) (k : EKey) (hk : Kept q s) : Kept q (State.issued s c t k) := by
  unfold State.issued
  try dsimp only
  repeat' first
    | with_reducible assumption
    | with_reducible apply State.updEntry_kept
    | with_reducible apply State.retire_kept
    | simp only [Kept.mk_iff]
    | with_reducible apply K5.of
    | with_reducible apply K5.step
    | with_reducible exact id
    | exact fun _ => rfl
    | (intro _; try dsimp only)

theorem State.skipIssue_kept {q : Q4} (s : State) (c : BitVec 4) (t : BitVec 3) (k : EKey) (i : Nat) (code : Nat) (hk : Kept q s) : Kept q (State.skipIssue s c t k i code) := by
  unfold State.skipIssue
  repeat' first
    | with_reducible assumption
    | with_reducible apply State.promote_kept
    | with_reducible apply State.skipOn_kept

theorem issueSteps_kept {q : Q4} (i : Dword) (c : BitVec 4) (t : BitVec 3) (s : State)
    (body : EKey → Entry → Line → Nat → State) (hb : ∀ k e l n, Kept q (body k e l n)) (hk : Kept q s) :
    Kept q (issueSteps i c t s body) := by
  unfold issueSteps
  dsimp only
  repeat' first
    | with_reducible assumption
    | exact hb _ _ _ _
    | with_reducible apply State.breakHit_kept
    | with_reducible apply State.skipOn_kept
    | with_reducible apply State.stallOn_kept
    | with_reducible apply State.skipIssue_kept
    | split

theorem semIssue_kept {q : Q4} (w : Word) (c : BitVec 4) (t : BitVec 3) (s : State) (hk : Kept q s) : Kept q (semIssue w c t s) := by
  unfold semIssue
  try dsimp only
  repeat' first
    | with_reducible assumption
    | with_reducible apply Kept.ite
    | with_reducible apply State.updEntry_kept
    | with_reducible apply State.issue_kept
    | with_reducible apply State.done_kept
    | with_reducible apply State.makeCand_kept
    | with_reducible apply State.promote_kept
    | with_reducible apply State.opOver_kept
    | with_reducible apply State.stallOn_kept
    | with_reducible apply State.skipOn_kept
    | with_reducible apply State.issued_kept
    | with_reducible apply issueSteps_kept
    | simp only [Kept.mk_iff]
    | with_reducible apply K5.of
    | with_reducible apply K5.step
    | with_reducible exact id
    | exact fun _ => rfl
    | split
    | refine KeptP.of_eq (by with_reducible assumption) ?_
    | refine Kept.of_pair (by with_reducible assumption) ?_
    | (intro _; try dsimp only)

theorem semIssuew_kept {q : Q4} (w : Word) (c : BitVec 4) (t : BitVec 3) (s : State) (hk : Kept q s) : Kept q (semIssuew w c t s) := by
  unfold semIssuew
  try dsimp only
  repeat' first
    | with_reducible assumption
    | with_reducible apply Kept.ite
    | with_reducible apply State.updEntry_kept
    | with_reducible apply State.done_kept
    | with_reducible apply State.setObj_kept
    | with_reducible apply State.promote_kept
    | with_reducible apply State.opOver_kept
    | with_reducible apply State.stallOn_kept
    | with_reducible apply State.skipOn_kept
    | with_reducible apply State.issued_kept
    | with_reducible apply State.skipIssue_kept
    | with_reducible apply issueSteps_kept
    | simp only [Kept.mk_iff]
    | with_reducible apply K5.of
    | with_reducible apply K5.step
    | with_reducible exact id
    | exact fun _ => rfl
    | split
    | (intro _; try dsimp only)

theorem semQdepth_kept {q : Q4} (w : Word) (c : BitVec 4) (t : BitVec 3) (s : State) (hk : Kept q s) : Kept q (semQdepth w c t s) := by
  unfold semQdepth
  try dsimp only
  repeat' first
    | with_reducible assumption
    | with_reducible apply Kept.ite
    | with_reducible apply State.setReg_kept
    | with_reducible apply State.stallOn_kept
    | with_reducible apply State.skipOn_kept
    | with_reducible apply State.writeOn_kept
    | simp only [Kept.mk_iff]
    | with_reducible apply K5.of
    | with_reducible apply K5.step
    | with_reducible exact id
    | with_reducible exact Tbl.wf_filter
    | exact fun _ => rfl
    | split
    | refine KeptP.of_eq (by with_reducible assumption) ?_
    | refine Kept.of_pair (by with_reducible assumption) ?_
    | (intro _; try dsimp only)

theorem semWaitn_kept {q : Q4} (w : Word) (c : BitVec 4) (t : BitVec 3) (s : State) (hk : Kept q s) : Kept q (semWaitn w c t s) := by
  unfold semWaitn
  try dsimp only
  repeat' first
    | with_reducible assumption
    | with_reducible apply Kept.ite
    | with_reducible apply State.progress_kept
    | with_reducible apply State.setThread_kept
    | with_reducible apply State.done_kept
    | with_reducible apply State.writeOn_kept
    | simp only [Kept.mk_iff]
    | with_reducible apply K5.of
    | with_reducible apply K5.step
    | with_reducible exact id
    | with_reducible exact Tbl.wf_filter
    | exact fun _ => rfl
    | split
    | refine KeptP.of_eq (by with_reducible assumption) ?_
    | refine Kept.of_pair (by with_reducible assumption) ?_
    | (intro _; try dsimp only)

theorem semPatchv_kept {q : Q4} (w : Word) (c : BitVec 4) (t : BitVec 3) (s : State) (hk : Kept q s) : Kept q (semPatchv w c t s) := by
  unfold semPatchv
  try dsimp only
  repeat' first
    | with_reducible assumption
    | with_reducible apply Kept.ite
    | with_reducible apply State.progress_kept
    | with_reducible apply State.setThread_kept
    | with_reducible apply State.skipInsn_kept
    | with_reducible apply State.retire_kept
    | with_reducible apply State.stallOn_kept
    | with_reducible apply State.skipOn_kept
    | simp only [Kept.mk_iff]
    | with_reducible apply K5.of
    | with_reducible apply K5.step
    | with_reducible exact id
    | with_reducible exact Tbl.wf_filter
    | exact fun _ => rfl
    | split
    | (intro _; try dsimp only)

theorem semCopyc_kept {q : Q4} (w : Word) (c : BitVec 4) (t : BitVec 3) (s : State) (hk : Kept q s) : Kept q (semCopyc w c t s) := by
  unfold semCopyc
  try dsimp only
  repeat' first
    | with_reducible assumption
    | with_reducible apply Kept.ite
    | with_reducible apply State.progress_kept
    | with_reducible apply State.setThread_kept
    | with_reducible apply State.retire_kept
    | with_reducible apply State.stallOn_kept
    | with_reducible apply State.skipOn_kept
    | simp only [Kept.mk_iff]
    | with_reducible apply K5.of
    | with_reducible apply K5.step
    | with_reducible exact id
    | with_reducible exact Tbl.wf_filter
    | exact fun _ => rfl
    | split
    | refine KeptP.of_eq (by with_reducible assumption) ?_
    | refine Kept.of_pair (by with_reducible assumption) ?_
    | (intro _; try dsimp only)

theorem semEnd_kept {q : Q4} (w : Word) (c : BitVec 4) (t : BitVec 3) (s : State) (hk : Kept q s) : Kept q (semEnd w c t s) := by
  unfold semEnd
  try dsimp only
  repeat' first
    | with_reducible assumption
    | with_reducible apply Kept.ite
    | with_reducible apply State.progress_kept
    | with_reducible apply State.endThread_kept
    | with_reducible apply State.skipOn_kept
    | simp only [Kept.mk_iff]
    | with_reducible apply K5.of
    | with_reducible apply K5.step
    | with_reducible exact id
    | exact fun _ => rfl
    | split
    | refine KeptP.of_eq (by with_reducible assumption) ?_
    | refine Kept.of_pair (by with_reducible assumption) ?_
    | (intro _; try dsimp only)

theorem semAny_kept {q : Q4} (w : Word) (c : BitVec 4) (t : BitVec 3) (s : State) (hk : Kept q s) : Kept q (semAny w c t s) := by
  unfold semAny
  split <;> first
    | with_reducible exact semAlu_kept _ _ _ _ hk
    | with_reducible exact semImm_kept _ _ _ _ hk
    | with_reducible exact semShi_kept _ _ _ _ hk
    | with_reducible exact semLui_kept _ _ _ _ hk
    | with_reducible exact semLoad_kept _ _ _ _ _ hk
    | with_reducible exact semStore_kept _ _ _ _ _ hk
    | with_reducible exact semRdp_kept _ _ _ _ hk
    | with_reducible exact semWrp_kept _ _ _ _ hk
    | with_reducible exact semBranch_kept _ _ _ _ hk
    | with_reducible exact semJal_kept _ _ _ _ hk
    | with_reducible exact semJalr_kept _ _ _ _ hk
    | with_reducible exact semCsrr_kept _ _ _ _ hk
    | with_reducible exact semIssue_kept _ _ _ _ hk
    | with_reducible exact semIssuew_kept _ _ _ _ hk
    | with_reducible exact semQdepth_kept _ _ _ _ hk
    | with_reducible exact semWaitn_kept _ _ _ _ hk
    | with_reducible exact semPatchv_kept _ _ _ _ hk
    | with_reducible exact semCopyc_kept _ _ _ _ hk
    | with_reducible exact semEnd_kept _ _ _ _ hk
    | with_reducible exact semIllegal_kept _ _ _ _ hk

theorem execAdd_kept {q : Q4} (core : BitVec 4) (thread : BitVec 3) (s : State) (hk : Kept q s) : KeptO q (execAdd core thread s) := by
  unfold execAdd
  try dsimp only
  repeat' first
    | with_reducible assumption
    | with_reducible apply KeptO.next
    | with_reducible apply KeptO.ite
    | with_reducible apply Kept.ite
    | with_reducible apply State.runInsn_kept
    | with_reducible apply semAlu_kept
    | with_reducible apply semIllegal_kept
    | split
    | (intro _; try dsimp only)

theorem execSub_kept {q : Q4} (core : BitVec 4) (thread : BitVec 3) (s : State) (hk : Kept q s) : KeptO q (execSub core thread s) := by
  unfold execSub
  try dsimp only
  repeat' first
    | with_reducible assumption
    | with_reducible apply KeptO.next
    | with_reducible apply State.runInsn_kept
    | with_reducible apply semAlu_kept
    | (intro _; try dsimp only)

theorem execAnd_kept {q : Q4} (core : BitVec 4) (thread : BitVec 3) (s : State) (hk : Kept q s) : KeptO q (execAnd core thread s) := by
  unfold execAnd
  try dsimp only
  repeat' first
    | with_reducible assumption
    | with_reducible apply KeptO.next
    | with_reducible apply State.runInsn_kept
    | with_reducible apply semAlu_kept
    | (intro _; try dsimp only)

theorem execOr_kept {q : Q4} (core : BitVec 4) (thread : BitVec 3) (s : State) (hk : Kept q s) : KeptO q (execOr core thread s) := by
  unfold execOr
  try dsimp only
  repeat' first
    | with_reducible assumption
    | with_reducible apply KeptO.next
    | with_reducible apply State.runInsn_kept
    | with_reducible apply semAlu_kept
    | (intro _; try dsimp only)

theorem execXor_kept {q : Q4} (core : BitVec 4) (thread : BitVec 3) (s : State) (hk : Kept q s) : KeptO q (execXor core thread s) := by
  unfold execXor
  try dsimp only
  repeat' first
    | with_reducible assumption
    | with_reducible apply KeptO.next
    | with_reducible apply State.runInsn_kept
    | with_reducible apply semAlu_kept
    | (intro _; try dsimp only)

theorem execSll_kept {q : Q4} (core : BitVec 4) (thread : BitVec 3) (s : State) (hk : Kept q s) : KeptO q (execSll core thread s) := by
  unfold execSll
  try dsimp only
  repeat' first
    | with_reducible assumption
    | with_reducible apply KeptO.next
    | with_reducible apply State.runInsn_kept
    | with_reducible apply semAlu_kept
    | (intro _; try dsimp only)

theorem execSrl_kept {q : Q4} (core : BitVec 4) (thread : BitVec 3) (s : State) (hk : Kept q s) : KeptO q (execSrl core thread s) := by
  unfold execSrl
  try dsimp only
  repeat' first
    | with_reducible assumption
    | with_reducible apply KeptO.next
    | with_reducible apply State.runInsn_kept
    | with_reducible apply semAlu_kept
    | (intro _; try dsimp only)

theorem execSra_kept {q : Q4} (core : BitVec 4) (thread : BitVec 3) (s : State) (hk : Kept q s) : KeptO q (execSra core thread s) := by
  unfold execSra
  try dsimp only
  repeat' first
    | with_reducible assumption
    | with_reducible apply KeptO.next
    | with_reducible apply State.runInsn_kept
    | with_reducible apply semAlu_kept
    | (intro _; try dsimp only)

theorem execMul_kept {q : Q4} (core : BitVec 4) (thread : BitVec 3) (s : State) (hk : Kept q s) : KeptO q (execMul core thread s) := by
  unfold execMul
  try dsimp only
  repeat' first
    | with_reducible assumption
    | with_reducible apply KeptO.next
    | with_reducible apply State.runInsn_kept
    | with_reducible apply semAlu_kept
    | (intro _; try dsimp only)

theorem execMulhu_kept {q : Q4} (core : BitVec 4) (thread : BitVec 3) (s : State) (hk : Kept q s) : KeptO q (execMulhu core thread s) := by
  unfold execMulhu
  try dsimp only
  repeat' first
    | with_reducible assumption
    | with_reducible apply KeptO.next
    | with_reducible apply State.runInsn_kept
    | with_reducible apply semAlu_kept
    | (intro _; try dsimp only)

theorem execSlt_kept {q : Q4} (core : BitVec 4) (thread : BitVec 3) (s : State) (hk : Kept q s) : KeptO q (execSlt core thread s) := by
  unfold execSlt
  try dsimp only
  repeat' first
    | with_reducible assumption
    | with_reducible apply KeptO.next
    | with_reducible apply State.runInsn_kept
    | with_reducible apply semAlu_kept
    | (intro _; try dsimp only)

theorem execSltu_kept {q : Q4} (core : BitVec 4) (thread : BitVec 3) (s : State) (hk : Kept q s) : KeptO q (execSltu core thread s) := by
  unfold execSltu
  try dsimp only
  repeat' first
    | with_reducible assumption
    | with_reducible apply KeptO.next
    | with_reducible apply State.runInsn_kept
    | with_reducible apply semAlu_kept
    | (intro _; try dsimp only)

theorem execMin_kept {q : Q4} (core : BitVec 4) (thread : BitVec 3) (s : State) (hk : Kept q s) : KeptO q (execMin core thread s) := by
  unfold execMin
  try dsimp only
  repeat' first
    | with_reducible assumption
    | with_reducible apply KeptO.next
    | with_reducible apply State.runInsn_kept
    | with_reducible apply semAlu_kept
    | (intro _; try dsimp only)

theorem execMax_kept {q : Q4} (core : BitVec 4) (thread : BitVec 3) (s : State) (hk : Kept q s) : KeptO q (execMax core thread s) := by
  unfold execMax
  try dsimp only
  repeat' first
    | with_reducible assumption
    | with_reducible apply KeptO.next
    | with_reducible apply State.runInsn_kept
    | with_reducible apply semAlu_kept
    | (intro _; try dsimp only)

theorem execMinu_kept {q : Q4} (core : BitVec 4) (thread : BitVec 3) (s : State) (hk : Kept q s) : KeptO q (execMinu core thread s) := by
  unfold execMinu
  try dsimp only
  repeat' first
    | with_reducible assumption
    | with_reducible apply KeptO.next
    | with_reducible apply State.runInsn_kept
    | with_reducible apply semAlu_kept
    | (intro _; try dsimp only)

theorem execMaxu_kept {q : Q4} (core : BitVec 4) (thread : BitVec 3) (s : State) (hk : Kept q s) : KeptO q (execMaxu core thread s) := by
  unfold execMaxu
  try dsimp only
  repeat' first
    | with_reducible assumption
    | with_reducible apply KeptO.next
    | with_reducible apply State.runInsn_kept
    | with_reducible apply semAlu_kept
    | (intro _; try dsimp only)

theorem execAddi_kept {q : Q4} (core : BitVec 4) (thread : BitVec 3) (s : State) (hk : Kept q s) : KeptO q (execAddi core thread s) := by
  unfold execAddi
  try dsimp only
  repeat' first
    | with_reducible assumption
    | with_reducible apply KeptO.next
    | with_reducible apply State.runInsn_kept
    | with_reducible apply semImm_kept
    | (intro _; try dsimp only)

theorem execAndi_kept {q : Q4} (core : BitVec 4) (thread : BitVec 3) (s : State) (hk : Kept q s) : KeptO q (execAndi core thread s) := by
  unfold execAndi
  try dsimp only
  repeat' first
    | with_reducible assumption
    | with_reducible apply KeptO.next
    | with_reducible apply State.runInsn_kept
    | with_reducible apply semImm_kept
    | (intro _; try dsimp only)

theorem execOri_kept {q : Q4} (core : BitVec 4) (thread : BitVec 3) (s : State) (hk : Kept q s) : KeptO q (execOri core thread s) := by
  unfold execOri
  try dsimp only
  repeat' first
    | with_reducible assumption
    | with_reducible apply KeptO.next
    | with_reducible apply State.runInsn_kept
    | with_reducible apply semImm_kept
    | (intro _; try dsimp only)

theorem execXori_kept {q : Q4} (core : BitVec 4) (thread : BitVec 3) (s : State) (hk : Kept q s) : KeptO q (execXori core thread s) := by
  unfold execXori
  try dsimp only
  repeat' first
    | with_reducible assumption
    | with_reducible apply KeptO.next
    | with_reducible apply State.runInsn_kept
    | with_reducible apply semImm_kept
    | (intro _; try dsimp only)

theorem execSlti_kept {q : Q4} (core : BitVec 4) (thread : BitVec 3) (s : State) (hk : Kept q s) : KeptO q (execSlti core thread s) := by
  unfold execSlti
  try dsimp only
  repeat' first
    | with_reducible assumption
    | with_reducible apply KeptO.next
    | with_reducible apply State.runInsn_kept
    | with_reducible apply semImm_kept
    | (intro _; try dsimp only)

theorem execSlli_kept {q : Q4} (core : BitVec 4) (thread : BitVec 3) (s : State) (hk : Kept q s) : KeptO q (execSlli core thread s) := by
  unfold execSlli
  try dsimp only
  repeat' first
    | with_reducible assumption
    | with_reducible apply KeptO.next
    | with_reducible apply State.runInsn_kept
    | with_reducible apply semShi_kept
    | (intro _; try dsimp only)

theorem execSrli_kept {q : Q4} (core : BitVec 4) (thread : BitVec 3) (s : State) (hk : Kept q s) : KeptO q (execSrli core thread s) := by
  unfold execSrli
  try dsimp only
  repeat' first
    | with_reducible assumption
    | with_reducible apply KeptO.next
    | with_reducible apply State.runInsn_kept
    | with_reducible apply semShi_kept
    | (intro _; try dsimp only)

theorem execSrai_kept {q : Q4} (core : BitVec 4) (thread : BitVec 3) (s : State) (hk : Kept q s) : KeptO q (execSrai core thread s) := by
  unfold execSrai
  try dsimp only
  repeat' first
    | with_reducible assumption
    | with_reducible apply KeptO.next
    | with_reducible apply State.runInsn_kept
    | with_reducible apply semShi_kept
    | (intro _; try dsimp only)

theorem execLui_kept {q : Q4} (core : BitVec 4) (thread : BitVec 3) (s : State) (hk : Kept q s) : KeptO q (execLui core thread s) := by
  unfold execLui
  try dsimp only
  repeat' first
    | with_reducible assumption
    | with_reducible apply KeptO.next
    | with_reducible apply State.runInsn_kept
    | with_reducible apply semLui_kept
    | (intro _; try dsimp only)

theorem execLd_kept {q : Q4} (core : BitVec 4) (thread : BitVec 3) (s : State) (hk : Kept q s) : KeptO q (execLd core thread s) := by
  unfold execLd
  try dsimp only
  repeat' first
    | with_reducible assumption
    | with_reducible apply KeptO.next
    | with_reducible apply State.runInsn_kept
    | with_reducible apply semLoad_kept
    | (intro _; try dsimp only)

theorem execLw_kept {q : Q4} (core : BitVec 4) (thread : BitVec 3) (s : State) (hk : Kept q s) : KeptO q (execLw core thread s) := by
  unfold execLw
  try dsimp only
  repeat' first
    | with_reducible assumption
    | with_reducible apply KeptO.next
    | with_reducible apply State.runInsn_kept
    | with_reducible apply semLoad_kept
    | (intro _; try dsimp only)

theorem execSd_kept {q : Q4} (core : BitVec 4) (thread : BitVec 3) (s : State) (hk : Kept q s) : KeptO q (execSd core thread s) := by
  unfold execSd
  try dsimp only
  repeat' first
    | with_reducible assumption
    | with_reducible apply KeptO.next
    | with_reducible apply State.runInsn_kept
    | with_reducible apply semStore_kept
    | (intro _; try dsimp only)

theorem execSw_kept {q : Q4} (core : BitVec 4) (thread : BitVec 3) (s : State) (hk : Kept q s) : KeptO q (execSw core thread s) := by
  unfold execSw
  try dsimp only
  repeat' first
    | with_reducible assumption
    | with_reducible apply KeptO.next
    | with_reducible apply State.runInsn_kept
    | with_reducible apply semStore_kept
    | (intro _; try dsimp only)

theorem execRdp_kept {q : Q4} (core : BitVec 4) (thread : BitVec 3) (s : State) (hk : Kept q s) : KeptO q (execRdp core thread s) := by
  unfold execRdp
  try dsimp only
  repeat' first
    | with_reducible assumption
    | with_reducible apply KeptO.next
    | with_reducible apply State.runInsn_kept
    | with_reducible apply semRdp_kept
    | (intro _; try dsimp only)

theorem execWrp_kept {q : Q4} (core : BitVec 4) (thread : BitVec 3) (s : State) (hk : Kept q s) : KeptO q (execWrp core thread s) := by
  unfold execWrp
  try dsimp only
  repeat' first
    | with_reducible assumption
    | with_reducible apply KeptO.next
    | with_reducible apply State.runInsn_kept
    | with_reducible apply semWrp_kept
    | (intro _; try dsimp only)

theorem execBeq_kept {q : Q4} (core : BitVec 4) (thread : BitVec 3) (s : State) (hk : Kept q s) : KeptO q (execBeq core thread s) := by
  unfold execBeq
  try dsimp only
  repeat' first
    | with_reducible assumption
    | with_reducible apply KeptO.next
    | with_reducible apply State.runInsn_kept
    | with_reducible apply semBranch_kept
    | (intro _; try dsimp only)

theorem execBne_kept {q : Q4} (core : BitVec 4) (thread : BitVec 3) (s : State) (hk : Kept q s) : KeptO q (execBne core thread s) := by
  unfold execBne
  try dsimp only
  repeat' first
    | with_reducible assumption
    | with_reducible apply KeptO.next
    | with_reducible apply State.runInsn_kept
    | with_reducible apply semBranch_kept
    | (intro _; try dsimp only)

theorem execBlt_kept {q : Q4} (core : BitVec 4) (thread : BitVec 3) (s : State) (hk : Kept q s) : KeptO q (execBlt core thread s) := by
  unfold execBlt
  try dsimp only
  repeat' first
    | with_reducible assumption
    | with_reducible apply KeptO.next
    | with_reducible apply State.runInsn_kept
    | with_reducible apply semBranch_kept
    | (intro _; try dsimp only)

theorem execBge_kept {q : Q4} (core : BitVec 4) (thread : BitVec 3) (s : State) (hk : Kept q s) : KeptO q (execBge core thread s) := by
  unfold execBge
  try dsimp only
  repeat' first
    | with_reducible assumption
    | with_reducible apply KeptO.next
    | with_reducible apply State.runInsn_kept
    | with_reducible apply semBranch_kept
    | (intro _; try dsimp only)

theorem execBltu_kept {q : Q4} (core : BitVec 4) (thread : BitVec 3) (s : State) (hk : Kept q s) : KeptO q (execBltu core thread s) := by
  unfold execBltu
  try dsimp only
  repeat' first
    | with_reducible assumption
    | with_reducible apply KeptO.next
    | with_reducible apply State.runInsn_kept
    | with_reducible apply semBranch_kept
    | (intro _; try dsimp only)

theorem execBgeu_kept {q : Q4} (core : BitVec 4) (thread : BitVec 3) (s : State) (hk : Kept q s) : KeptO q (execBgeu core thread s) := by
  unfold execBgeu
  try dsimp only
  repeat' first
    | with_reducible assumption
    | with_reducible apply KeptO.next
    | with_reducible apply State.runInsn_kept
    | with_reducible apply semBranch_kept
    | (intro _; try dsimp only)

theorem execJal_kept {q : Q4} (core : BitVec 4) (thread : BitVec 3) (s : State) (hk : Kept q s) : KeptO q (execJal core thread s) := by
  unfold execJal
  try dsimp only
  repeat' first
    | with_reducible assumption
    | with_reducible apply KeptO.next
    | with_reducible apply State.runInsn_kept
    | with_reducible apply semJal_kept
    | (intro _; try dsimp only)

theorem execJalr_kept {q : Q4} (core : BitVec 4) (thread : BitVec 3) (s : State) (hk : Kept q s) : KeptO q (execJalr core thread s) := by
  unfold execJalr
  try dsimp only
  repeat' first
    | with_reducible assumption
    | with_reducible apply KeptO.next
    | with_reducible apply State.runInsn_kept
    | with_reducible apply semJalr_kept
    | (intro _; try dsimp only)

theorem execCsrr_kept {q : Q4} (core : BitVec 4) (thread : BitVec 3) (s : State) (hk : Kept q s) : KeptO q (execCsrr core thread s) := by
  unfold execCsrr
  try dsimp only
  repeat' first
    | with_reducible assumption
    | with_reducible apply KeptO.next
    | with_reducible apply State.runInsn_kept
    | with_reducible apply semCsrr_kept
    | (intro _; try dsimp only)

theorem execIssue_kept {q : Q4} (core : BitVec 4) (thread : BitVec 3) (s : State) (hk : Kept q s) : KeptO q (execIssue core thread s) := by
  unfold execIssue
  try dsimp only
  repeat' first
    | with_reducible assumption
    | with_reducible apply KeptO.next
    | with_reducible apply State.runInsn_kept
    | with_reducible apply semIssue_kept
    | (intro _; try dsimp only)

theorem execIssuew_kept {q : Q4} (core : BitVec 4) (thread : BitVec 3) (s : State) (hk : Kept q s) : KeptO q (execIssuew core thread s) := by
  unfold execIssuew
  try dsimp only
  repeat' first
    | with_reducible assumption
    | with_reducible apply KeptO.next
    | with_reducible apply State.runInsn_kept
    | with_reducible apply semIssuew_kept
    | (intro _; try dsimp only)

theorem execQdepth_kept {q : Q4} (core : BitVec 4) (thread : BitVec 3) (s : State) (hk : Kept q s) : KeptO q (execQdepth core thread s) := by
  unfold execQdepth
  try dsimp only
  repeat' first
    | with_reducible assumption
    | with_reducible apply KeptO.next
    | with_reducible apply State.runInsn_kept
    | with_reducible apply semQdepth_kept
    | (intro _; try dsimp only)

theorem execWaitn_kept {q : Q4} (core : BitVec 4) (thread : BitVec 3) (s : State) (hk : Kept q s) : KeptO q (execWaitn core thread s) := by
  unfold execWaitn
  try dsimp only
  repeat' first
    | with_reducible assumption
    | with_reducible apply KeptO.next
    | with_reducible apply State.runInsn_kept
    | with_reducible apply semWaitn_kept
    | (intro _; try dsimp only)

theorem execPatchv_kept {q : Q4} (core : BitVec 4) (thread : BitVec 3) (s : State) (hk : Kept q s) : KeptO q (execPatchv core thread s) := by
  unfold execPatchv
  try dsimp only
  repeat' first
    | with_reducible assumption
    | with_reducible apply KeptO.next
    | with_reducible apply State.runInsn_kept
    | with_reducible apply semPatchv_kept
    | (intro _; try dsimp only)

theorem execCopyc_kept {q : Q4} (core : BitVec 4) (thread : BitVec 3) (s : State) (hk : Kept q s) : KeptO q (execCopyc core thread s) := by
  unfold execCopyc
  try dsimp only
  repeat' first
    | with_reducible assumption
    | with_reducible apply KeptO.next
    | with_reducible apply State.runInsn_kept
    | with_reducible apply semCopyc_kept
    | (intro _; try dsimp only)

theorem execEndProg_kept {q : Q4} (core : BitVec 4) (thread : BitVec 3) (s : State) (hk : Kept q s) : KeptO q (execEndProg core thread s) := by
  unfold execEndProg
  try dsimp only
  repeat' first
    | with_reducible assumption
    | with_reducible apply KeptO.next
    | with_reducible apply State.runInsn_kept
    | with_reducible apply semEnd_kept
    | (intro _; try dsimp only)

theorem execWaitnDone_kept {q : Q4} (core : BitVec 4) (thread : BitVec 3) (s : State) (hk : Kept q s) : KeptO q (execWaitnDone core thread s) := by
  unfold execWaitnDone
  try dsimp only
  repeat' first
    | with_reducible assumption
    | with_reducible apply KeptO.next
    | with_reducible apply KeptO.ite
    | with_reducible apply Kept.ite
    | with_reducible apply State.done_kept
    | with_reducible apply State.writeOn_kept
    | simp only [Kept.mk_iff]
    | with_reducible apply K5.of
    | with_reducible apply K5.step
    | with_reducible exact id
    | exact fun _ => rfl
    | split
    | refine KeptP.of_eq (by with_reducible assumption) ?_
    | refine Kept.of_pair (by with_reducible assumption) ?_
    | (intro _; try dsimp only)

theorem State.stepInsn_kept {q : Q4} (s : State) (c : BitVec 4) (t : BitVec 3) (pc : Nat) (hk : Kept q s) :
    ∀ n, Kept q (s.stepInsn c t pc n) := by
  intro n
  induction n generalizing s with
  | zero => exact hk
  | succ n ih =>
    unfold State.stepInsn
    dsimp only
    split
    · exact ih _ (semAny_kept _ _ _ _ hk)
    · exact hk

theorem State.threadCtl_kept {q : Q4} (s : State) (c : BitVec 4) (op : Nat) (hk : Kept q s) : Kept q (State.threadCtl s c op) := by
  unfold State.threadCtl
  try dsimp only
  repeat' first
    | with_reducible assumption
    | with_reducible apply Kept.ite
    | with_reducible apply State.setErr_kept
    | with_reducible apply State.setThread_kept
    | with_reducible apply State.withdrawIssue_kept
    | with_reducible apply State.stepInsn_kept
    | simp only [Kept.mk_iff]
    | with_reducible apply K5.of
    | with_reducible apply K5.step
    | with_reducible exact id
    | with_reducible exact Tbl.wf_filter
    | exact fun _ => rfl
    | split
    | refine KeptP.of_eq (by with_reducible assumption) ?_
    | refine Kept.of_pair (by with_reducible assumption) ?_
    | (intro _; try dsimp only)

/-! Functions of Machine/Digest.lean. -/

theorem State.auditReads_kept {q : Q4} (s : State) (k : EKey) (e : Entry) (hk : Kept q s) : Kept q (State.auditReads s k e) := by
  unfold State.auditReads
  try dsimp only
  repeat' first
    | with_reducible assumption
    | with_reducible apply Kept.ite
    | with_reducible apply State.read_kept
    | simp only [Kept.mk_iff]
    | with_reducible apply K5.of
    | with_reducible apply K5.step
    | with_reducible exact id
    | exact fun _ => rfl
    | split
    | (intro _; try dsimp only)

theorem State.modelForget_kept {q : Q4} (s : State) (p : BitVec 4) (hk : Kept q s) : Kept q (State.modelForget s p) := by
  unfold State.modelForget
  try dsimp only
  repeat' first
    | with_reducible assumption
    | with_reducible apply Kept.ite
    | simp only [Kept.mk_iff]
    | with_reducible apply K5.of
    | with_reducible apply K5.step
    | with_reducible exact id
    | exact Tbl.wf_set
    | with_reducible exact Tbl.wf_filter
    | exact fun _ => rfl
    | split
    | refine KeptP.of_eq (by with_reducible assumption) ?_
    | refine Kept.of_pair (by with_reducible assumption) ?_
    | (intro _; try dsimp only)

theorem State.auditStart_kept {q : Q4} (s : State) (k : EKey) (hk : Kept q s) : Kept q (State.auditStart s k) := by
  unfold State.auditStart
  try dsimp only
  repeat' first
    | with_reducible assumption
    | with_reducible apply Kept.ite
    | with_reducible apply State.auditReads_kept
    | simp only [Kept.mk_iff]
    | with_reducible apply K5.of
    | with_reducible apply K5.step
    | with_reducible exact id
    | with_reducible exact Tbl.wf_filter
    | exact fun _ => rfl
    | split
    | refine KeptP.of_eq (by with_reducible assumption) ?_
    | refine Kept.of_pair (by with_reducible assumption) ?_
    | (intro _; try dsimp only)

/-! Functions of Machine/Place.lean. -/

theorem State.startLoad_kept {q : Q4} (s : State) (c : BitVec 4) (k : ProgKey) (lock : Bool) (soft : Bool) (hk : Kept q s) : Kept q (State.startLoad s c k lock soft) := by
  unfold State.startLoad
  try dsimp only
  repeat' first
    | with_reducible assumption
    | with_reducible apply State.setCore_kept
    | with_reducible apply State.readLines_kept
    | exact Kept.threads (by with_reducible assumption) _
    | (simp only [Core.setBank_threads]; exact Kept.threads (by with_reducible assumption) _)
    | refine Kept.threads (q := q) ?_ _
    | exact (rfl : Tbl.wf (fun _ => Thread.reset) Core.reset.threads = true)
    | simp only [Kept.mk_iff]
    | with_reducible apply K5.of
    | with_reducible apply K5.step
    | with_reducible exact id
    | with_reducible exact Tbl.wf_filter
    | exact fun _ => rfl
    | split
    | refine KeptP.of_eq (by with_reducible assumption) ?_
    | refine Kept.of_pair (by with_reducible assumption) ?_
    | (intro _; try dsimp only)

theorem State.skipAtStart_kept {q : Q4} (s : State) (k : EKey) (ops : List Nat) (hk : Kept q s) : Kept q (State.skipAtStart s k ops) := by
  unfold State.skipAtStart
  try dsimp only
  repeat' first
    | with_reducible assumption
    | with_reducible apply State.bump_kept
    | with_reducible apply State.setEntry_kept
    | with_reducible apply State.raise_kept
    | (with_reducible apply Kept.foldl <;> first | (intro _ _ _; try dsimp only) | skip)
    | (with_reducible apply Kept.foldl_fst <;> first | (intro _ _ _; try dsimp only) | skip)
    | (with_reducible apply Kept.foldl_snd <;> first | (intro _ _ _; try dsimp only) | skip)
    | simp only [Kept.mk_iff]
    | with_reducible apply K5.of
    | with_reducible apply K5.step
    | with_reducible exact id
    | with_reducible exact Tbl.wf_filter
    | exact fun _ => rfl
    | split
    | refine KeptP.of_eq (by with_reducible assumption) ?_
    | refine Kept.of_pair (by with_reducible assumption) ?_
    | (intro _; try dsimp only)

theorem State.unplace_kept {q : Q4} (s : State) (k : EKey) (hk : Kept q s) : Kept q (State.unplace s k) := by
  unfold State.unplace
  try dsimp only
  repeat' first
    | with_reducible assumption
    | with_reducible apply State.setEntry_kept
    | with_reducible apply State.freeThread_kept
    | simp only [Kept.mk_iff]
    | with_reducible apply K5.of
    | with_reducible apply K5.step
    | with_reducible exact id
    | with_reducible exact Tbl.wf_filter
    | exact fun _ => rfl
    | split
    | refine KeptP.of_eq (by with_reducible assumption) ?_
    | refine Kept.of_pair (by with_reducible assumption) ?_
    | (intro _; try dsimp only)

theorem State.backTo8_kept {q : Q4} (s : State) (k : EKey) (hk : Kept q s) : Kept q (State.backTo8 s k) := by
  unfold State.backTo8
  try dsimp only
  repeat' first
    | with_reducible assumption
    | with_reducible apply State.updEntry_kept
    | with_reducible apply State.unplace_kept
    | simp only [Kept.mk_iff]
    | with_reducible apply K5.of
    | with_reducible apply K5.step
    | with_reducible exact id
    | with_reducible exact Tbl.wf_filter
    | exact fun _ => rfl
    | split
    | (intro _; try dsimp only)

theorem State.startLaunch_kept {q : Q4} (s : State) (c : BitVec 4) (t : BitVec 3) (k : EKey) (hk : Kept q s) : Kept q (State.startLaunch s c t k) := by
  unfold State.startLaunch
  try dsimp only
  repeat' first
    | with_reducible assumption
    | with_reducible apply Kept.ite
    | with_reducible apply State.setF_kept
    | with_reducible apply State.updEntry_kept
    | with_reducible apply State.traceRec_kept
    | with_reducible apply State.progress_kept
    | with_reducible apply State.timingBreakAll_kept
    | with_reducible apply State.setCore_kept
    | with_reducible apply State.setThread_kept
    | with_reducible apply State.headLeaves_kept
    | with_reducible apply State.timerRestart_kept
    | with_reducible apply State.breakHit_kept
    | with_reducible apply State.auditStart_kept
    | with_reducible apply State.skipAtStart_kept
    | with_reducible apply State.stage_kept
    | exact Kept.threads (by with_reducible assumption) _
    | (simp only [Core.setBank_threads]; exact Kept.threads (by with_reducible assumption) _)
    | refine Kept.threads (q := q) ?_ _
    | exact (rfl : Tbl.wf (fun _ => Thread.reset) Core.reset.threads = true)
    | (with_reducible apply Kept.foldl <;> first | (intro _ _ _; try dsimp only) | skip)
    | (with_reducible apply Kept.foldl_fst <;> first | (intro _ _ _; try dsimp only) | skip)
    | (with_reducible apply Kept.foldl_snd <;> first | (intro _ _ _; try dsimp only) | skip)
    | simp only [Kept.mk_iff]
    | with_reducible apply K5.of
    | with_reducible apply K5.step
    | with_reducible exact id
    | with_reducible exact Tbl.wf_filter
    | exact fun _ => rfl
    | split
    | refine KeptP.of_eq (by with_reducible assumption) ?_
    | refine Kept.of_pair (by with_reducible assumption) ?_
    | (intro _; try dsimp only)

theorem State.tryStart_kept {q : Q4} (s : State) (c : BitVec 4) (t : BitVec 3) (hk : Kept q s) : Kept q (State.tryStart s c t) := by
  unfold State.tryStart
  try dsimp only
  repeat' first
    | with_reducible assumption
    | with_reducible apply Kept.ite
    | with_reducible apply State.refuseLaunch_kept
    | with_reducible apply State.unplace_kept
    | with_reducible apply State.backTo8_kept
    | with_reducible apply State.startLaunch_kept
    | with_reducible apply State.stage_kept
    | simp only [Kept.mk_iff]
    | with_reducible apply K5.of
    | with_reducible apply K5.step
    | with_reducible exact id
    | with_reducible exact Tbl.wf_filter
    | exact fun _ => rfl
    | split
    | refine KeptP.of_eq (by with_reducible assumption) ?_
    | refine Kept.of_pair (by with_reducible assumption) ?_
    | (intro _; try dsimp only)

theorem State.placeOn_kept {q : Q4} (s : State) (k : EKey) (c : BitVec 4) (ls : List Line) (ops : Nat) (swap : Bool) (hk : Kept q s) : Kept q (State.placeOn s k c ls ops swap) := by
  unfold State.placeOn
  try dsimp only
  repeat' first
    | with_reducible assumption
    | with_reducible apply State.updEntry_kept
    | with_reducible apply State.setThread_kept
    | simp only [Kept.mk_iff]
    | with_reducible apply K5.of
    | with_reducible apply K5.step
    | with_reducible exact id
    | with_reducible exact Tbl.wf_filter
    | exact fun _ => rfl
    | split
    | refine KeptP.of_eq (by with_reducible assumption) ?_
    | refine Kept.of_pair (by with_reducible assumption) ?_
    | (intro _; try dsimp only)

theorem State.wait8_kept {q : Q4} (s : State) (k : EKey) (hk : Kept q s) : Kept q (State.wait8 s k) := by
  unfold State.wait8
  try dsimp only
  repeat' first
    | with_reducible assumption
    | with_reducible apply Kept.ite
    | simp only [Kept.mk_iff]
    | with_reducible apply K5.of
    | with_reducible apply K5.step
    | with_reducible exact id
    | with_reducible exact Tbl.wf_filter
    | exact fun _ => rfl
    | split
    | (intro _; try dsimp only)

theorem execLaunchPlace_kept {q : Q4} (stream : BitVec 14) (s : State) (hk : Kept q s) : KeptO q (execLaunchPlace stream s) := by
  unfold execLaunchPlace
  try dsimp only
  repeat' first
    | with_reducible assumption
    | exact KeptO.fault
    | exact KeptO.refused
    | with_reducible apply KeptO.next
    | with_reducible apply KeptO.ite
    | with_reducible apply Kept.ite
    | with_reducible apply State.raise_kept
    | with_reducible apply State.refuseLaunch_kept
    | with_reducible apply State.startLoad_kept
    | with_reducible apply State.tryStart_kept
    | with_reducible apply State.placeOn_kept
    | with_reducible apply State.wait8_kept
    | with_reducible apply State.join_kept
    | with_reducible apply State.stage_kept
    | simp only [Kept.mk_iff]
    | with_reducible apply K5.of
    | with_reducible apply K5.step
    | with_reducible exact id
    | with_reducible exact Tbl.wf_filter
    | exact fun _ => rfl
    | split
    | refine KeptP.of_eq (by with_reducible assumption) ?_
    | refine Kept.of_pair (by with_reducible assumption) ?_
    | (intro _; try dsimp only)

theorem execLaunchCopyLine_kept {q : Q4} (core : BitVec 4) (thread : BitVec 3) (s : State) (hk : Kept q s) : KeptO q (execLaunchCopyLine core thread s) := by
  unfold execLaunchCopyLine
  try dsimp only
  repeat' first
    | with_reducible assumption
    | exact KeptO.fault
    | exact KeptO.refused
    | with_reducible apply KeptO.next
    | with_reducible apply KeptO.ite
    | with_reducible apply Kept.ite
    | with_reducible apply State.updEntry_kept
    | with_reducible apply State.setThread_kept
    | with_reducible apply State.tryStart_kept
    | simp only [Kept.mk_iff]
    | with_reducible apply K5.of
    | with_reducible apply K5.step
    | with_reducible exact id
    | with_reducible exact Tbl.wf_filter
    | exact fun _ => rfl
    | split
    | refine KeptP.of_eq (by with_reducible assumption) ?_
    | refine Kept.of_pair (by with_reducible assumption) ?_
    | (intro _; try dsimp only)

theorem State.imemEnd_kept {q : Q4} (s : State) (c : BitVec 4) (err : BitVec 4) (hk : Kept q s) : Kept q (State.imemEnd s c err) := by
  unfold State.imemEnd
  repeat' first
    | with_reducible assumption
    | with_reducible apply State.setF_kept
    | with_reducible apply State.setBit_kept

theorem State.loadEnds_kept {q : Q4} (s : State) (c : BitVec 4) (l : Load) (hk : Kept q s) : Kept q (State.loadEnds s c l) := by
  unfold State.loadEnds
  try dsimp only
  repeat' first
    | with_reducible assumption
    | with_reducible apply Kept.ite
    | with_reducible apply State.bump_kept
    | with_reducible apply State.setCore_kept
    | with_reducible apply State.setThread_kept
    | with_reducible apply State.raise_kept
    | with_reducible apply State.refuseLaunch_kept
    | with_reducible apply State.unplace_kept
    | with_reducible apply State.tryStart_kept
    | with_reducible apply State.imemEnd_kept
    | (with_reducible apply Kept.foldl <;> first | (intro _ _ _; try dsimp only) | skip)
    | (with_reducible apply Kept.foldl_fst <;> first | (intro _ _ _; try dsimp only) | skip)
    | (with_reducible apply Kept.foldl_snd <;> first | (intro _ _ _; try dsimp only) | skip)
    | exact Kept.threads (by with_reducible assumption) _
    | (simp only [Core.setBank_threads]; exact Kept.threads (by with_reducible assumption) _)
    | refine Kept.threads (q := q) ?_ _
    | exact (rfl : Tbl.wf (fun _ => Thread.reset) Core.reset.threads = true)
    | simp only [Kept.mk_iff]
    | with_reducible apply K5.of
    | with_reducible apply K5.step
    | with_reducible exact id
    | exact fun _ => rfl
    | split
    | (intro _; try dsimp only)

theorem execImemLoadDone_kept {q : Q4} (core : BitVec 4) (mtag : BitVec 8) (gen : BitVec 4) (err : Bool) (lines : List Line) (s : State) (hk : Kept q s) : KeptO q (execImemLoadDone core mtag gen err lines s) := by
  unfold execImemLoadDone
  try dsimp only
  repeat' first
    | with_reducible assumption
    | exact KeptO.fault
    | with_reducible apply KeptO.next
    | with_reducible apply KeptO.ite
    | with_reducible apply Kept.ite
    | with_reducible apply State.setCore_kept
    | with_reducible apply State.answer_kept
    | with_reducible apply State.loadEnds_kept
    | exact Kept.threads (by with_reducible assumption) _
    | (simp only [Core.setBank_threads]; exact Kept.threads (by with_reducible assumption) _)
    | refine Kept.threads (q := q) ?_ _
    | exact (rfl : Tbl.wf (fun _ => Thread.reset) Core.reset.threads = true)
    | simp only [Kept.mk_iff]
    | with_reducible apply K5.of
    | with_reducible apply K5.step
    | with_reducible exact id
    | exact fun _ => rfl
    | split
    | refine KeptP.of_eq (by with_reducible assumption) ?_
    | refine Kept.of_pair (by with_reducible assumption) ?_
    | (intro _; try dsimp only)

theorem State.imemLoad_kept {q : Q4} (s : State) (c : BitVec 4) (hk : Kept q s) : Kept q (State.imemLoad s c) := by
  unfold State.imemLoad
  try dsimp only
  repeat' first
    | with_reducible assumption
    | with_reducible apply Kept.ite
    | with_reducible apply State.setF_kept
    | with_reducible apply State.setBit_kept
    | with_reducible apply State.setErr_kept
    | with_reducible apply State.raise_kept
    | with_reducible apply State.startLoad_kept
    | with_reducible apply State.imemEnd_kept
    | simp only [Kept.mk_iff]
    | with_reducible apply K5.of
    | with_reducible apply K5.step
    | with_reducible exact id
    | exact fun _ => rfl
    | split

theorem State.dropProgs_kept {q : Q4} (s : State) (f : ProgKey → Bool) (hk : Kept q s) : Kept q (State.dropProgs s f) := by
  unfold State.dropProgs
  try dsimp only
  repeat' first
    | with_reducible assumption
    | with_reducible apply Kept.ite
    | with_reducible apply State.setCore_kept
    | (with_reducible apply Kept.foldl <;> first | (intro _ _ _; try dsimp only) | skip)
    | (with_reducible apply Kept.foldl_fst <;> first | (intro _ _ _; try dsimp only) | skip)
    | (with_reducible apply Kept.foldl_snd <;> first | (intro _ _ _; try dsimp only) | skip)
    | exact Kept.threads (by with_reducible assumption) _
    | (simp only [Core.setBank_threads]; exact Kept.threads (by with_reducible assumption) _)
    | refine Kept.threads (q := q) ?_ _
    | exact (rfl : Tbl.wf (fun _ => Thread.reset) Core.reset.threads = true)
    | simp only [Kept.mk_iff]
    | with_reducible apply K5.of
    | with_reducible apply K5.step
    | with_reducible exact id
    | exact fun _ => rfl
    | split
    | (intro _; try dsimp only)

theorem State.imemInval_kept {q : Q4} (s : State) (c : BitVec 4) (hk : Kept q s) : Kept q (State.imemInval s c) := by
  unfold State.imemInval
  try dsimp only
  repeat' first
    | with_reducible assumption
    | with_reducible apply State.imemEnd_kept
    | with_reducible apply State.dropProgs_kept

end Sys2Proof.Machine
end

