-- ==== Sys2Proof/Laws/KeepsFront.lean ====
section
/-! SUPPORT. Every function of the directory lookups, contexts, images, templates, the Ferry and the streams keeps the queue, the RTL parameters and the canonical form of the stores (Laws/Kept.lean): one lemma per function. -/
set_option linter.all false
namespace Sys2Proof.Machine

/-! Functions of Machine/Shoal.lean. -/

theorem State.updLookup_kept {q : Q4} (s : State) (k : EKey) (f : Lookup → Lookup) (hk : Kept q s) : Kept q (State.updLookup s k f) := by
  unfold State.updLookup
  try dsimp only
  repeat' first
    | with_reducible assumption
    | with_reducible apply Kept.ite
    | simp only [Kept.mk_iff]
    | with_reducible apply K5.of
    | with_reducible apply K5.step
    | with_reducible exact id
    | exact fun _ => rfl
    | split
    | (intro _; try dsimp only)

theorem State.askLookups_kept {q : Q4} (s : State) (hk : Kept q s) : Kept q (State.askLookups s) := by
  unfold State.askLookups
  try dsimp only
  repeat' first
    | with_reducible assumption
    | with_reducible apply Kept.ite
    | with_reducible apply State.readLines_kept
    | with_reducible apply State.updLookup_kept
    | (with_reducible apply Kept.foldl <;> first | (intro _ _ _; try dsimp only) | skip)
    | (with_reducible apply Kept.foldl_fst <;> first | (intro _ _ _; try dsimp only) | skip)
    | (with_reducible apply Kept.foldl_snd <;> first | (intro _ _ _; try dsimp only) | skip)
    | simp only [Kept.mk_iff]
    | with_reducible apply K5.of
    | with_reducible apply K5.step
    | with_reducible exact id
    | with_reducible exact Tbl.wf_filter
    | exact fun _ => rfl
    | split
    | (intro _; try dsimp only)

theorem State.addLookup_kept {q : Q4} (s : State) (k : EKey) (p : BitVec 4) (blk : Addr) (n : Nat) (segs : Nat) (hk : Kept q s) : Kept q (State.addLookup s k p blk n segs) := by
  unfold State.addLookup
  try dsimp only
  repeat' first
    | with_reducible assumption
    | with_reducible apply Kept.ite
    | with_reducible apply State.askLookups_kept
    | simp only [Kept.mk_iff]
    | with_reducible apply K5.of
    | with_reducible apply K5.step
    | with_reducible exact id
    | exact fun _ => rfl
    | split
    | (intro _; try dsimp only)

theorem execIndexListReturn_kept {q : Q4} (mtag : BitVec 8) (gen : BitVec 4) (err : Bool) (lines : List Line) (s : State) (hk : Kept q s) : KeptO q (execIndexListReturn mtag gen err lines s) := by
  unfold execIndexListReturn
  try dsimp only
  repeat' first
    | with_reducible assumption
    | exact KeptO.fault
    | with_reducible apply KeptO.next
    | with_reducible apply KeptO.ite
    | with_reducible apply Kept.ite
    | with_reducible apply State.answer_kept
    | with_reducible apply State.updLookup_kept
    | simp only [Kept.mk_iff]
    | with_reducible apply K5.of
    | with_reducible apply K5.step
    | with_reducible exact id
    | exact fun _ => rfl
    | split
    | refine KeptP.of_eq (by with_reducible assumption) ?_
    | refine Kept.of_pair (by with_reducible assumption) ?_
    | (intro _; try dsimp only)

theorem State.updWin_kept {q : Q4} (s : State) (p : BitVec 4) (n : Nat) (f : Win → Win) (hk : Kept q s) : Kept q (State.updWin s p n f) := by
  unfold State.updWin
  try dsimp only
  repeat' first
    | with_reducible assumption
    | with_reducible apply Kept.ite
    | simp only [Kept.mk_iff]
    | with_reducible apply K5.of
    | with_reducible apply K5.step
    | with_reducible exact id
    | exact fun _ => rfl
    | split
    | (intro _; try dsimp only)

theorem State.closeWin_kept {q : Q4} (s : State) (p : BitVec 4) (n : Nat) (cause : Nat) (hk : Kept q s) : Kept q (State.closeWin s p n cause) := by
  unfold State.closeWin
  try dsimp only
  repeat' first
    | with_reducible assumption
    | with_reducible apply Kept.ite
    | with_reducible apply State.bump_kept
    | with_reducible apply State.updWin_kept
    | (with_reducible apply Kept.foldl <;> first | (intro _ _ _; try dsimp only) | skip)
    | (with_reducible apply Kept.foldl_fst <;> first | (intro _ _ _; try dsimp only) | skip)
    | (with_reducible apply Kept.foldl_snd <;> first | (intro _ _ _; try dsimp only) | skip)
    | simp only [Kept.mk_iff]
    | with_reducible apply K5.of
    | with_reducible apply K5.step
    | with_reducible exact id
    | exact fun _ => rfl
    | split
    | (intro _; try dsimp only)

theorem State.closeOpen_kept {q : Q4} (s : State) (p : BitVec 4) (cause : Nat) (hk : Kept q s) : Kept q (State.closeOpen s p cause) := by
  unfold State.closeOpen
  try dsimp only
  repeat' first
    | with_reducible assumption
    | with_reducible apply State.closeWin_kept
    | simp only [Kept.mk_iff]
    | with_reducible apply K5.of
    | with_reducible apply K5.step
    | with_reducible exact id
    | exact fun _ => rfl
    | split
    | refine KeptP.of_eq (by with_reducible assumption) ?_
    | refine Kept.of_pair (by with_reducible assumption) ?_
    | (intro _; try dsimp only)

theorem State.openNew_kept {q : Q4} (s : State) (p : BitVec 4) (alone : Bool) (hk : Kept q s) : Kept q (State.openNew s p alone).1 := by
  unfold State.openNew
  try dsimp only
  repeat' first
    | with_reducible assumption
    | simp only [Kept.mk_iff]
    | with_reducible apply K5.of
    | with_reducible apply K5.step
    | with_reducible exact id
    | exact Tbl.wf_set
    | exact fun _ => rfl
    | split
    | refine KeptP.of_eq (by with_reducible assumption) ?_
    | refine Kept.of_pair (by with_reducible assumption) ?_
    | (intro _; try dsimp only)

theorem State.join_kept {q : Q4} (s : State) (k : EKey) (p : BitVec 4) (n : Nat) (idx : List (Nat × Nat)) (worst : Nat) (hk : Kept q s) : Kept q (State.join s k p n idx worst) := by
  unfold State.join
  try dsimp only
  repeat' first
    | with_reducible assumption
    | with_reducible apply State.updEntry_kept
    | with_reducible apply State.intake_kept
    | with_reducible apply State.updWin_kept
    | simp only [Kept.mk_iff]
    | with_reducible apply K5.of
    | with_reducible apply K5.step
    | with_reducible exact id
    | exact fun _ => rfl
    | (intro _; try dsimp only)

theorem State.joinShared_kept {q : Q4} (s : State) (k : EKey) (p : BitVec 4) (n : Nat) (idx : List (Nat × Nat)) (worst : Nat) (hk : Kept q s) : Kept q (State.joinShared s k p n idx worst) := by
  unfold State.joinShared
  try dsimp only
  repeat' first
    | with_reducible assumption
    | with_reducible apply Kept.ite
    | with_reducible apply State.closeWin_kept
    | with_reducible apply State.join_kept
    | simp only [Kept.mk_iff]
    | with_reducible apply K5.of
    | with_reducible apply K5.step
    | with_reducible exact id
    | exact fun _ => rfl
    | split
    | refine KeptP.of_eq (by with_reducible assumption) ?_
    | refine Kept.of_pair (by with_reducible assumption) ?_
    | (intro _; try dsimp only)

theorem State.shoalFail_kept {q : Q4} (s : State) (k : EKey) (code : Nat) (index : Option Nat) (hk : Kept q s) : Kept q (State.shoalFail s k code index) := by
  unfold State.shoalFail
  try dsimp only
  repeat' first
    | with_reducible assumption
    | with_reducible apply State.raise_kept
    | with_reducible apply State.refuseLaunch_kept
    | simp only [Kept.mk_iff]
    | with_reducible apply K5.of
    | with_reducible apply K5.step
    | with_reducible exact id
    | with_reducible exact Tbl.wf_filter
    | exact fun _ => rfl
    | split
    | refine KeptP.of_eq (by with_reducible assumption) ?_
    | refine Kept.of_pair (by with_reducible assumption) ?_
    | (intro _; try dsimp only)

theorem State.admitLookup_kept {q : Q4} (s : State) (k : EKey) (p : BitVec 4) (l : Lookup) (hk : Kept q s) : Kept q (State.admitLookup s k p l) := by
  unfold State.admitLookup
  try dsimp only
  repeat' first
    | with_reducible assumption
    | with_reducible apply Kept.ite
    | with_reducible apply State.updLookup_kept
    | with_reducible apply State.closeWin_kept
    | with_reducible apply State.openNew_kept
    | with_reducible apply State.join_kept
    | with_reducible apply State.joinShared_kept
    | simp only [Kept.mk_iff]
    | with_reducible apply K5.of
    | with_reducible apply K5.step
    | with_reducible exact id
    | exact fun _ => rfl
    | split
    | refine KeptP.of_eq (by with_reducible assumption) ?_
    | refine Kept.of_pair (by with_reducible assumption) ?_
    | (intro _; try dsimp only)

theorem execLookupAdmit_kept {q : Q4} (stream : BitVec 14) (s : State) (hk : Kept q s) : KeptO q (execLookupAdmit stream s) := by
  unfold execLookupAdmit
  try dsimp only
  repeat' first
    | with_reducible assumption
    | exact KeptO.fault
    | exact KeptO.refused
    | with_reducible apply KeptO.next
    | with_reducible apply KeptO.ite
    | with_reducible apply Kept.ite
    | with_reducible apply State.bump_kept
    | with_reducible apply State.setErr_kept
    | with_reducible apply State.askLookups_kept
    | with_reducible apply State.shoalFail_kept
    | with_reducible apply State.admitLookup_kept
    | with_reducible apply State.stage_kept
    | simp only [Kept.mk_iff]
    | with_reducible apply K5.of
    | with_reducible apply K5.step
    | with_reducible exact id
    | with_reducible exact Tbl.wf_filter
    | exact fun _ => rfl
    | split
    | refine KeptP.of_eq (by with_reducible assumption) ?_
    | refine Kept.of_pair (by with_reducible assumption) ?_
    | (intro _; try dsimp only)

theorem execWindowTimer_kept {q : Q4} (p : BitVec 4) (s : State) (hk : Kept q s) : KeptO q (execWindowTimer p s) := by
  unfold execWindowTimer
  try dsimp only
  repeat' first
    | with_reducible assumption
    | with_reducible apply KeptO.next
    | with_reducible apply KeptO.ite
    | with_reducible apply Kept.ite
    | with_reducible apply State.closeWin_kept
    | simp only [Kept.mk_iff]
    | with_reducible apply K5.of
    | with_reducible apply K5.step
    | with_reducible exact id
    | exact fun _ => rfl
    | split
    | refine KeptP.of_eq (by with_reducible assumption) ?_
    | refine Kept.of_pair (by with_reducible assumption) ?_
    | (intro _; try dsimp only)

theorem State.insertIdx_kept {q : Q4} (s : State) (w : Win) (k : EKey) (t : Nat) (row : Nat) (hk : Kept q s) : Kept q (State.insertIdx s w k t row) := by
  unfold State.insertIdx
  try dsimp only
  repeat' first
    | with_reducible assumption
    | with_reducible apply Kept.ite
    | with_reducible apply State.bump_kept
    | with_reducible apply State.updWin_kept
    | (with_reducible apply Kept.foldl <;> first | (intro _ _ _; try dsimp only) | skip)
    | (with_reducible apply Kept.foldl_fst <;> first | (intro _ _ _; try dsimp only) | skip)
    | (with_reducible apply Kept.foldl_snd <;> first | (intro _ _ _; try dsimp only) | skip)
    | simp only [Kept.mk_iff]
    | with_reducible apply K5.of
    | with_reducible apply K5.step
    | with_reducible exact id
    | exact fun _ => rfl
    | split
    | refine KeptP.of_eq (by with_reducible assumption) ?_
    | refine Kept.of_pair (by with_reducible assumption) ?_
    | (intro _; try dsimp only)

theorem State.intakeOne_kept {q : Q4} (s : State) (hk : Kept q s) : Kept q (State.intakeOne s) := by
  unfold State.intakeOne
  try dsimp only
  repeat' first
    | with_reducible assumption
    | with_reducible apply Kept.ite
    | with_reducible apply State.intake_kept
    | with_reducible apply State.insertIdx_kept
    | simp only [Kept.mk_iff]
    | with_reducible apply K5.of
    | with_reducible apply K5.step
    | with_reducible exact id
    | exact fun _ => rfl
    | split
    | refine KeptP.of_eq (by with_reducible assumption) ?_
    | refine Kept.of_pair (by with_reducible assumption) ?_
    | (intro _; try dsimp only)

theorem execIndexInsert_kept {q : Q4} (s : State) (hk : Kept q s) : KeptO q (execIndexInsert s) := by
  unfold execIndexInsert
  repeat' first
    | with_reducible assumption
    | with_reducible apply KeptO.next
    | with_reducible apply State.intakeOne_kept

theorem State.releaseMember_kept {q : Q4} (s : State) (m : Member) (hk : Kept q s) : Kept q (State.releaseMember s m) := by
  unfold State.releaseMember
  try dsimp only
  repeat' first
    | with_reducible assumption
    | with_reducible apply Kept.ite
    | with_reducible apply State.updEntry_kept
    | with_reducible apply State.wait8_kept
    | with_reducible apply State.stage_kept
    | simp only [Kept.mk_iff]
    | with_reducible apply K5.of
    | with_reducible apply K5.step
    | with_reducible exact id
    | with_reducible exact Tbl.wf_filter
    | exact fun _ => rfl
    | split
    | refine KeptP.of_eq (by with_reducible assumption) ?_
    | refine Kept.of_pair (by with_reducible assumption) ?_
    | (intro _; try dsimp only)

theorem State.gathersOver_kept {q : Q4} (s : State) (p : BitVec 4) (n : Nat) (hk : Kept q s) : Kept q (State.gathersOver s p n) := by
  unfold State.gathersOver
  try dsimp only
  repeat' first
    | with_reducible assumption
    | with_reducible apply Kept.ite
    | with_reducible apply State.updWin_kept
    | with_reducible apply State.releaseMember_kept
    | (with_reducible apply Kept.foldl <;> first | (intro _ _ _; try dsimp only) | skip)
    | simp only [Kept.mk_iff]
    | with_reducible apply K5.of
    | with_reducible apply K5.step
    | with_reducible exact id
    | exact fun _ => rfl
    | split
    | refine KeptP.of_eq (by with_reducible assumption) ?_
    | refine Kept.of_pair (by with_reducible assumption) ?_
    | (intro _; try dsimp only)

theorem State.tblStart_kept {q : Q4} (s : State) (p : BitVec 4) (hk : Kept q s) : Kept q (State.tblStart s p) := by
  unfold State.tblStart
  try dsimp only
  repeat' first
    | with_reducible assumption
    | with_reducible apply Kept.ite
    | with_reducible apply State.setF_kept
    | with_reducible apply State.setBit_kept
    | with_reducible apply State.readLines_kept
    | simp only [Kept.mk_iff]
    | with_reducible apply K5.of
    | with_reducible apply K5.step
    | with_reducible exact id
    | exact Tbl.wf_set
    | with_reducible exact Tbl.wf_filter
    | exact fun _ => rfl
    | split
    | refine KeptP.of_eq (by with_reducible assumption) ?_
    | refine Kept.of_pair (by with_reducible assumption) ?_
    | (intro _; try dsimp only)

theorem State.gatherDone_kept {q : Q4} (s : State) (p : BitVec 4) (n : Nat) (cmd : Nat) (err : Bool) (hk : Kept q s) : Kept q (State.gatherDone s p n cmd err) := by
  unfold State.gatherDone
  try dsimp only
  repeat' first
    | with_reducible assumption
    | with_reducible apply Kept.ite
    | with_reducible apply State.bump_kept
    | with_reducible apply State.setErr_kept
    | with_reducible apply State.updWin_kept
    | with_reducible apply State.shoalFail_kept
    | with_reducible apply State.gathersOver_kept
    | with_reducible apply State.tblStart_kept
    | with_reducible apply State.stage_kept
    | (with_reducible apply Kept.foldl <;> first | (intro _ _ _; try dsimp only) | skip)
    | (with_reducible apply Kept.foldl_fst <;> first | (intro _ _ _; try dsimp only) | skip)
    | (with_reducible apply Kept.foldl_snd <;> first | (intro _ _ _; try dsimp only) | skip)
    | simp only [Kept.mk_iff]
    | with_reducible apply K5.of
    | with_reducible apply K5.step
    | with_reducible exact id
    | with_reducible exact Tbl.wf_filter
    | exact fun _ => rfl
    | split
    | refine KeptP.of_eq (by with_reducible assumption) ?_
    | refine Kept.of_pair (by with_reducible assumption) ?_
    | (intro _; try dsimp only)

theorem State.gatherCand_kept {q : Q4} (s : State) (w : Win) (n : Nat) (port : Nat) (body : List Dword) (hk : Kept q s) : Kept q (State.gatherCand s w n port body) := by
  unfold State.gatherCand
  try dsimp only
  repeat' first
    | with_reducible assumption
    | with_reducible apply Kept.ite
    | with_reducible apply State.bump_kept
    | simp only [Kept.mk_iff]
    | with_reducible apply K5.of
    | with_reducible apply K5.step
    | with_reducible exact id
    | with_reducible exact Tbl.wf_filter
    | exact fun _ => rfl
    | split
    | (intro _; try dsimp only)

theorem State.writeMap_kept {q : Q4} (s : State) (w : Win) (m : Member) (hk : Kept q s) : Kept q (State.writeMap s w m) := by
  unfold State.writeMap
  try dsimp only
  repeat' first
    | with_reducible assumption
    | with_reducible apply State.writeLines_kept
    | with_reducible apply State.updWin_kept
    | simp only [Kept.mk_iff]
    | with_reducible apply K5.of
    | with_reducible apply K5.step
    | with_reducible exact id
    | exact fun _ => rfl
    | split
    | refine KeptP.of_eq (by with_reducible assumption) ?_
    | refine Kept.of_pair (by with_reducible assumption) ?_
    | (intro _; try dsimp only)

theorem State.sealWin_kept {q : Q4} (s : State) (w : Win) (hk : Kept q s) : Kept q (State.sealWin s w) := by
  unfold State.sealWin
  try dsimp only
  repeat' first
    | with_reducible assumption
    | with_reducible apply State.wr_kept
    | with_reducible apply State.bump_kept
    | with_reducible apply State.askLookups_kept
    | with_reducible apply State.updWin_kept
    | with_reducible apply State.gatherDone_kept
    | with_reducible apply State.gatherCand_kept
    | with_reducible apply State.writeMap_kept
    | (with_reducible apply Kept.foldl <;> first | (intro _ _ _; try dsimp only) | skip)
    | (with_reducible apply Kept.foldl_fst <;> first | (intro _ _ _; try dsimp only) | skip)
    | (with_reducible apply Kept.foldl_snd <;> first | (intro _ _ _; try dsimp only) | skip)
    | simp only [Kept.mk_iff]
    | with_reducible apply K5.of
    | with_reducible apply K5.step
    | with_reducible exact id
    | with_reducible exact Tbl.wf_filter
    | exact fun _ => rfl
    | split
    | (intro _; try dsimp only)

theorem execWindowSeal_kept {q : Q4} (s : State) (hk : Kept q s) : KeptO q (execWindowSeal s) := by
  unfold execWindowSeal
  try dsimp only
  repeat' first
    | with_reducible assumption
    | exact KeptO.fault
    | exact KeptO.refused
    | with_reducible apply KeptO.next
    | with_reducible apply KeptO.ite
    | with_reducible apply Kept.ite
    | with_reducible apply State.tblStart_kept
    | with_reducible apply State.sealWin_kept
    | simp only [Kept.mk_iff]
    | with_reducible apply K5.of
    | with_reducible apply K5.step
    | with_reducible exact id
    | with_reducible exact Tbl.wf_filter
    | exact fun _ => rfl
    | split
    | refine KeptP.of_eq (by with_reducible assumption) ?_
    | refine Kept.of_pair (by with_reducible assumption) ?_
    | (intro _; try dsimp only)

theorem execMapWriteAck_kept {q : Q4} (mtag : BitVec 8) (gen : BitVec 4) (err : Bool) (s : State) (hk : Kept q s) : KeptO q (execMapWriteAck mtag gen err s) := by
  unfold execMapWriteAck
  try dsimp only
  repeat' first
    | with_reducible assumption
    | exact KeptO.fault
    | exact KeptO.refused
    | with_reducible apply KeptO.next
    | with_reducible apply KeptO.ite
    | with_reducible apply Kept.ite
    | with_reducible apply State.answer_kept
    | with_reducible apply State.updWin_kept
    | with_reducible apply State.shoalFail_kept
    | with_reducible apply State.releaseMember_kept
    | with_reducible apply State.stage_kept
    | (with_reducible apply Kept.foldl <;> first | (intro _ _ _; try dsimp only) | skip)
    | (with_reducible apply Kept.foldl_fst <;> first | (intro _ _ _; try dsimp only) | skip)
    | (with_reducible apply Kept.foldl_snd <;> first | (intro _ _ _; try dsimp only) | skip)
    | simp only [Kept.mk_iff]
    | with_reducible apply K5.of
    | with_reducible apply K5.step
    | with_reducible exact id
    | with_reducible exact Tbl.wf_filter
    | exact fun _ => rfl
    | split
    | refine KeptP.of_eq (by with_reducible assumption) ?_
    | refine Kept.of_pair (by with_reducible assumption) ?_
    | (intro _; try dsimp only)

theorem State.tblRead_kept {q : Q4} (s : State) (p : BitVec 4) (cmd : Bool) (hk : Kept q s) : Kept q (State.tblRead s p cmd) := by
  unfold State.tblRead
  try dsimp only
  repeat' first
    | with_reducible assumption
    | with_reducible apply State.tblStart_kept
    | simp only [Kept.mk_iff]
    | with_reducible apply K5.of
    | with_reducible apply K5.step
    | with_reducible exact id
    | exact fun _ => rfl

theorem State.reload_kept {q : Q4} (s : State) (hk : Kept q s) : Kept q (State.reload s) := by
  unfold State.reload
  try dsimp only
  repeat' first
    | with_reducible assumption
    | with_reducible apply Kept.ite
    | with_reducible apply State.setF_kept
    | with_reducible apply State.setBit_kept
    | with_reducible apply State.closeOpen_kept
    | with_reducible apply State.tblRead_kept
    | split

theorem execReloadDone_kept {q : Q4} (mtag : BitVec 8) (gen : BitVec 4) (err : Bool) (lines : List Line) (s : State) (hk : Kept q s) : KeptO q (execReloadDone mtag gen err lines s) := by
  unfold execReloadDone
  try dsimp only
  repeat' first
    | with_reducible assumption
    | exact KeptO.fault
    | with_reducible apply KeptO.next
    | with_reducible apply KeptO.ite
    | with_reducible apply Kept.ite
    | with_reducible apply State.setF_kept
    | with_reducible apply State.setBit_kept
    | with_reducible apply State.answer_kept
    | with_reducible apply State.tblStart_kept
    | simp only [Kept.mk_iff]
    | with_reducible apply K5.of
    | with_reducible apply K5.step
    | with_reducible exact id
    | exact Tbl.wf_set
    | exact fun _ => rfl
    | split
    | refine KeptP.of_eq (by with_reducible assumption) ?_
    | refine Kept.of_pair (by with_reducible assumption) ?_
    | (intro _; try dsimp only)

/-! Functions of Machine/Harbour.lean. -/

theorem State.ctxRecErr_kept {q : Q4} (s : State) (p : BitVec 4) (ctx : BitVec 16) (grave : Bool) (hk : Kept q s) : Kept q (State.ctxRecErr s p ctx grave) := by
  unfold State.ctxRecErr
  try dsimp only
  repeat' first
    | with_reducible assumption
    | with_reducible apply Kept.ite
    | with_reducible apply State.raise_kept
    | simp only [Kept.mk_iff]
    | with_reducible apply K5.of
    | with_reducible apply K5.step
    | with_reducible exact id
    | exact fun _ => rfl
    | split

theorem State.writeStaged_kept {q : Q4} (s : State) (x : Staged) (hk : Kept q s) : Kept q (State.writeStaged s x) := by
  unfold State.writeStaged
  try dsimp only
  repeat' first
    | with_reducible assumption
    | with_reducible apply Kept.ite
    | with_reducible apply State.write_kept
    | split

theorem State.stageLine1_kept {q : Q4} (s : State) (p : BitVec 4) (ctx : BitVec 16) (l : Line) (hk : Kept q s) : Kept q (State.stageLine1 s p ctx l) := by
  unfold State.stageLine1
  try dsimp only
  repeat' first
    | with_reducible assumption
    | with_reducible apply Kept.ite
    | with_reducible apply State.writeStaged_kept
    | simp only [Kept.mk_iff]
    | with_reducible apply K5.of
    | with_reducible apply K5.step
    | with_reducible exact id
    | with_reducible exact Tbl.wf_filter
    | exact fun _ => rfl
    | split
    | (intro _; try dsimp only)

theorem State.mergeStaged_kept {q : Q4} (s : State) (p : BitVec 4) (ctx : BitVec 16) (lines : List Line) (hk : Kept q s) : Kept q (State.mergeStaged s p ctx lines) := by
  unfold State.mergeStaged
  try dsimp only
  repeat' first
    | with_reducible assumption
    | with_reducible apply Kept.ite
    | simp only [Kept.mk_iff]
    | with_reducible apply K5.of
    | with_reducible apply K5.step
    | with_reducible exact id
    | with_reducible exact Tbl.wf_filter
    | exact fun _ => rfl
    | split
    | (intro _; try dsimp only)

theorem State.stage_kept {q : Q4} (s : State) (p : BitVec 4) (ctx : BitVec 16) (lines : List Line) (full : Bool) (hk : Kept q s) : Kept q (State.stage s p ctx lines full) := by
  unfold State.stage
  try dsimp only
  repeat' first
    | with_reducible assumption
    | with_reducible apply Kept.ite
    | with_reducible apply State.writeStaged_kept
    | simp only [Kept.mk_iff]
    | with_reducible apply K5.of
    | with_reducible apply K5.step
    | with_reducible exact id
    | exact fun _ => rfl
    | split
    | refine KeptP.of_eq (by with_reducible assumption) ?_
    | refine Kept.of_pair (by with_reducible assumption) ?_
    | (intro _; try dsimp only)

theorem State.staleHandles_kept {q : Q4} (s : State) (k : Nat) (f : Nat → Bool) (hk : Kept q s) : Kept q (State.staleHandles s k f) := by
  unfold State.staleHandles
  try dsimp only
  repeat' first
    | with_reducible assumption
    | with_reducible apply Kept.ite
    | simp only [Kept.mk_iff]
    | with_reducible apply K5.of
    | with_reducible apply K5.step
    | with_reducible exact id
    | exact fun _ => rfl
    | split
    | refine Kept.of_pair (by with_reducible assumption) ?_
    | (intro _; try dsimp only)

theorem State.freeSlot_kept {q : Q4} (s : State) (k : Nat) (hk : Kept q s) : Kept q (State.freeSlot s k) := by
  unfold State.freeSlot
  try dsimp only
  repeat' first
    | with_reducible assumption
    | with_reducible apply Kept.ite
    | with_reducible apply State.setSlot_kept
    | with_reducible apply State.staleHandles_kept
    | simp only [Kept.mk_iff]
    | with_reducible apply K5.of
    | with_reducible apply K5.step
    | with_reducible exact id
    | with_reducible exact Tbl.wf_filter
    | exact fun _ => rfl
    | exact fun h => Tbl.wf_remap h
    | split
    | refine KeptP.of_eq (by with_reducible assumption) ?_
    | refine Kept.of_pair (by with_reducible assumption) ?_
    | (intro _; try dsimp only)

theorem State.evict_kept {q : Q4} (s : State) (k : Nat) (hk : Kept q s) : Kept q (State.evict s k) := by
  unfold State.evict
  try dsimp only
  repeat' first
    | with_reducible assumption
    | with_reducible apply State.stage_kept
    | with_reducible apply State.freeSlot_kept

theorem State.loadSlot_kept {q : Q4} (s : State) (k : Nat) (p : BitVec 4) (ctx : BitVec 16) (hk : Kept q s) : Kept q (State.loadSlot s k p ctx) := by
  unfold State.loadSlot
  try dsimp only
  repeat' first
    | with_reducible assumption
    | with_reducible apply State.setSlot_kept
    | with_reducible apply State.read_kept
    | simp only [Kept.mk_iff]
    | with_reducible apply K5.of
    | with_reducible apply K5.step
    | with_reducible exact id
    | exact fun _ => rfl
    | split
    | refine KeptP.of_eq (by with_reducible assumption) ?_
    | refine Kept.of_pair (by with_reducible assumption) ?_
    | (intro _; try dsimp only)

theorem State.setCtxCmd_kept {q : Q4} (s : State) (p : BitVec 4) (c : Option CtxCmd) (hk : Kept q s) : Kept q (State.setCtxCmd s p c) := by
  unfold State.setCtxCmd
  try dsimp only
  repeat' first
    | with_reducible assumption
    | simp only [Kept.mk_iff]
    | with_reducible apply K5.of
    | with_reducible apply K5.step
    | with_reducible exact id
    | exact Tbl.wf_set
    | exact fun _ => rfl
    | (intro _; try dsimp only)

theorem State.takeCtx_kept {q : Q4} (s : State) (k : EKey) (p : BitVec 4) (ctx : BitVec 16) (hk : Kept q s) : KeptP q (State.takeCtx s k p ctx) := by
  unfold State.takeCtx
  try dsimp only
  repeat' first
    | with_reducible assumption
    | exact KeptP.none
    | with_reducible apply KeptP.some
    | with_reducible apply Kept.ite
    | with_reducible apply State.updEntry_kept
    | with_reducible apply State.setSlot_kept
    | with_reducible apply State.evict_kept
    | with_reducible apply State.loadSlot_kept
    | simp only [Kept.mk_iff]
    | with_reducible apply K5.of
    | with_reducible apply K5.step
    | with_reducible exact id
    | with_reducible exact Tbl.wf_filter
    | exact fun _ => rfl
    | split
    | refine KeptP.of_eq (by with_reducible assumption) ?_
    | refine Kept.of_pair (by with_reducible assumption) ?_
    | (intro _; try dsimp only)

theorem State.enqueueHarb_kept {q : Q4} (s : State) (k : EKey) (hk : Kept q s) : Kept q (State.enqueueHarb s k) := by
  unfold State.enqueueHarb
  try dsimp only
  repeat' first
    | with_reducible assumption
    | with_reducible apply Kept.ite
    | with_reducible apply State.updStream_kept
    | with_reducible apply State.updEntry_kept
    | with_reducible apply State.writeLines_kept
    | with_reducible apply State.freeChan_kept
    | with_reducible apply State.cbFault_kept
    | with_reducible apply State.park_kept
    | with_reducible apply State.stage_kept
    | simp only [Kept.mk_iff]
    | with_reducible apply K5.of
    | with_reducible apply K5.step
    | with_reducible exact id
    | exact fun _ => rfl
    | split
    | refine KeptP.of_eq (by with_reducible assumption) ?_
    | refine Kept.of_pair (by with_reducible assumption) ?_
    | (intro _; try dsimp only)

theorem State.applyChanges_kept {q : Q4} (s : State) (p : BitVec 4) (ctx : BitVec 16) (l : Line) (hk : Kept q s) : Kept q (State.applyChanges s p ctx l).1 := by
  unfold State.applyChanges
  try dsimp only
  repeat' first
    | with_reducible assumption
    | with_reducible apply Kept.ite
    | with_reducible apply State.bump_kept
    | (with_reducible apply Kept.foldl <;> first | (intro _ _ _; try dsimp only) | skip)
    | (with_reducible apply Kept.foldl_fst <;> first | (intro _ _ _; try dsimp only) | skip)
    | (with_reducible apply Kept.foldl_snd <;> first | (intro _ _ _; try dsimp only) | skip)
    | simp only [Kept.mk_iff]
    | with_reducible apply K5.of
    | with_reducible apply K5.step
    | with_reducible exact id
    | with_reducible exact Tbl.wf_filter
    | exact fun _ => rfl
    | split
    | (intro _; try dsimp only)

theorem execCtxRecordAccessDone_kept {q : Q4} (write : Bool) (mtag : BitVec 8) (gen : BitVec 4) (err : Bool) (lines : List Line) (s : State) (hk : Kept q s) : KeptO q (execCtxRecordAccessDone write mtag gen err lines s) := by
  unfold execCtxRecordAccessDone
  try dsimp only
  repeat' first
    | with_reducible assumption
    | exact KeptO.fault
    | exact KeptO.refused
    | with_reducible apply KeptO.next
    | with_reducible apply KeptO.ite
    | with_reducible apply Kept.ite
    | with_reducible apply State.write_kept
    | with_reducible apply State.answer_kept
    | with_reducible apply State.ctxRecErr_kept
    | with_reducible apply State.writeStaged_kept
    | with_reducible apply State.stageLine1_kept
    | with_reducible apply State.applyChanges_kept
    | with_reducible apply State.stage_kept
    | refine Kept.mk_iff.mpr ?_
    | with_reducible apply K5.of
    | with_reducible apply K5.step
    | with_reducible exact id
    | with_reducible exact Tbl.wf_filter
    | exact fun _ => rfl
    | split
    | refine KeptP.of_eq (by with_reducible assumption) ?_
    | refine Kept.of_pair (by with_reducible assumption) ?_
    | (intro _; try dsimp only)

theorem State.cmdAdd_kept {q : Q4} (s : State) (so : Word) (hk : Kept q s) : Kept q (State.cmdAdd s so) := by
  unfold State.cmdAdd
  repeat' first
    | with_reducible assumption
    | with_reducible apply Kept.ite
    | with_reducible apply State.offer_kept
    | split

theorem State.ctxCmdEnd_kept {q : Q4} (s : State) (p : BitVec 4) (err : BitVec 4) (hk : Kept q s) : Kept q (State.ctxCmdEnd s p err) := by
  unfold State.ctxCmdEnd
  try dsimp only
  repeat' first
    | with_reducible assumption
    | with_reducible apply Kept.ite
    | with_reducible apply State.setF_kept
    | with_reducible apply State.setBit_kept
    | with_reducible apply State.setCtxCmd_kept
    | with_reducible apply State.cmdAdd_kept
    | split

theorem State.ctxCmdWrite_kept {q : Q4} (s : State) (p : BitVec 4) (c : CtxCmd) (lines : List Line) (hk : Kept q s) : Kept q (State.ctxCmdWrite s p c lines) := by
  unfold State.ctxCmdWrite
  try dsimp only
  repeat' first
    | with_reducible assumption
    | with_reducible apply State.write_kept
    | with_reducible apply State.mergeStaged_kept
    | with_reducible apply State.setCtxCmd_kept
    | simp only [Kept.mk_iff]
    | with_reducible apply K5.of
    | with_reducible apply K5.step
    | with_reducible exact id
    | with_reducible exact Tbl.wf_filter
    | exact fun _ => rfl
    | split
    | refine KeptP.of_eq (by with_reducible assumption) ?_
    | refine Kept.of_pair (by with_reducible assumption) ?_
    | (intro _; try dsimp only)

theorem State.destroyTry_kept {q : Q4} (s : State) (p : BitVec 4) (hk : Kept q s) : Kept q (State.destroyTry s p) := by
  unfold State.destroyTry
  try dsimp only
  repeat' first
    | with_reducible assumption
    | with_reducible apply Kept.ite
    | with_reducible apply State.ctxCmdWrite_kept
    | simp only [Kept.mk_iff]
    | with_reducible apply K5.of
    | with_reducible apply K5.step
    | with_reducible exact id
    | with_reducible exact Tbl.wf_filter
    | exact fun _ => rfl
    | split
    | refine KeptP.of_eq (by with_reducible assumption) ?_
    | refine Kept.of_pair (by with_reducible assumption) ?_
    | (intro _; try dsimp only)

theorem State.walkTable_kept {q : Q4} (s : State) (p : BitVec 4) (c : CtxCmd) (hk : Kept q s) : Kept q (State.walkTable s p c) := by
  unfold State.walkTable
  try dsimp only
  repeat' first
    | with_reducible assumption
    | with_reducible apply State.read_kept
    | with_reducible apply State.setCtxCmd_kept
    | with_reducible apply Kept.ite
    | simp only [Kept.mk_iff]
    | with_reducible apply K5.of
    | with_reducible apply K5.step
    | with_reducible exact id
    | with_reducible exact Tbl.wf_filter
    | exact fun _ => rfl
    | split
    | refine KeptP.of_eq (by with_reducible assumption) ?_
    | refine Kept.of_pair (by with_reducible assumption) ?_
    | (intro _; try dsimp only)

theorem State.flushWrite_kept {q : Q4} (s : State) (p : BitVec 4) (c : CtxCmd) (hk : Kept q s) : Kept q (State.flushWrite s p c) := by
  unfold State.flushWrite
  try dsimp only
  repeat' first
    | with_reducible assumption
    | with_reducible apply Kept.ite
    | with_reducible apply State.setSlot_kept
    | with_reducible apply State.read_kept
    | with_reducible apply State.setCtxCmd_kept
    | with_reducible apply State.ctxCmdEnd_kept
    | with_reducible apply State.ctxCmdWrite_kept
    | simp only [Kept.mk_iff]
    | with_reducible apply K5.of
    | with_reducible apply K5.step
    | with_reducible exact id
    | exact fun _ => rfl
    | split
    | refine KeptP.of_eq (by with_reducible assumption) ?_
    | refine Kept.of_pair (by with_reducible assumption) ?_
    | (intro _; try dsimp only)

theorem State.ctxCmdValid_kept {q : Q4} (s : State) (p : BitVec 4) (c : CtxCmd) (l0 : Line) (l1 : Line) (hk : Kept q s) : Kept q (State.ctxCmdValid s p c l0 l1) := by
  unfold State.ctxCmdValid
  try dsimp only
  repeat' first
    | with_reducible assumption
    | with_reducible apply Kept.ite
    | with_reducible apply State.bump_kept
    | with_reducible apply State.setSlot_kept
    | with_reducible apply State.read_kept
    | with_reducible apply State.loseLaunches_kept
    | with_reducible apply State.stageLine1_kept
    | with_reducible apply State.staleHandles_kept
    | with_reducible apply State.setCtxCmd_kept
    | with_reducible apply State.ctxCmdEnd_kept
    | with_reducible apply State.ctxCmdWrite_kept
    | with_reducible apply State.destroyTry_kept
    | with_reducible apply State.walkTable_kept
    | with_reducible apply State.flushWrite_kept
    | simp only [Kept.mk_iff]
    | with_reducible apply K5.of
    | with_reducible apply K5.step
    | with_reducible exact id
    | with_reducible exact Tbl.wf_filter
    | exact fun _ => rfl
    | split
    | refine KeptP.of_eq (by with_reducible assumption) ?_
    | refine Kept.of_pair (by with_reducible assumption) ?_
    | (intro _; try dsimp only)

theorem State.ctxCmdRun_kept {q : Q4} (s : State) (p : BitVec 4) (c : CtxCmd) (hk : Kept q s) : Kept q (State.ctxCmdRun s p c) := by
  unfold State.ctxCmdRun
  try dsimp only
  repeat' first
    | with_reducible assumption
    | with_reducible apply Kept.ite
    | with_reducible apply State.read_kept
    | with_reducible apply State.setCtxCmd_kept
    | with_reducible apply State.ctxCmdValid_kept
    | simp only [Kept.mk_iff]
    | with_reducible apply K5.of
    | with_reducible apply K5.step
    | with_reducible exact id
    | exact fun _ => rfl
    | split
    | refine KeptP.of_eq (by with_reducible assumption) ?_
    | refine Kept.of_pair (by with_reducible assumption) ?_
    | (intro _; try dsimp only)

theorem State.ctxCmdStart_kept {q : Q4} (s : State) (p : BitVec 4) (op : BitVec 4) (bound : Bool) (hk : Kept q s) : Kept q (State.ctxCmdStart s p op bound) := by
  unfold State.ctxCmdStart
  try dsimp only
  repeat' first
    | with_reducible assumption
    | with_reducible apply Kept.ite
    | with_reducible apply State.setF_kept
    | with_reducible apply State.setBit_kept
    | with_reducible apply State.ctxCmdEnd_kept
    | with_reducible apply State.ctxCmdRun_kept
    | split

theorem State.seenLine1_kept {q : Q4} (s : State) (p : BitVec 4) (ctx : BitVec 16) (mem : Line) (hk : Kept q s) : Kept q (State.seenLine1 s p ctx mem).1 := by
  unfold State.seenLine1
  try dsimp only
  repeat' first
    | with_reducible assumption
    | with_reducible apply Kept.ite
    | with_reducible apply State.stageLine1_kept
    | with_reducible apply State.applyChanges_kept
    | simp only [Kept.mk_iff]
    | with_reducible apply K5.of
    | with_reducible apply K5.step
    | with_reducible exact id
    | with_reducible exact Tbl.wf_filter
    | exact fun _ => rfl
    | split
    | refine KeptP.of_eq (by with_reducible assumption) ?_
    | refine Kept.of_pair (by with_reducible assumption) ?_
    | (intro _; try dsimp only)

theorem State.ctxCmdStep_kept {q : Q4} (s : State) (p : BitVec 4) (c : CtxCmd) (write : Bool) (err : Bool) (lines : List Line) (hk : Kept q s) : Kept q (State.ctxCmdStep s p c write err lines) := by
  unfold State.ctxCmdStep
  try dsimp only
  repeat' first
    | with_reducible assumption
    | with_reducible apply Kept.ite
    | with_reducible apply State.setSlot_kept
    | with_reducible apply State.write_kept
    | with_reducible apply State.ctxRecErr_kept
    | with_reducible apply State.staleHandles_kept
    | with_reducible apply State.freeSlot_kept
    | with_reducible apply State.setCtxCmd_kept
    | with_reducible apply State.ctxCmdEnd_kept
    | with_reducible apply State.ctxCmdWrite_kept
    | with_reducible apply State.walkTable_kept
    | with_reducible apply State.flushWrite_kept
    | with_reducible apply State.ctxCmdValid_kept
    | with_reducible apply State.seenLine1_kept
    | simp only [Kept.mk_iff]
    | with_reducible apply K5.of
    | with_reducible apply K5.step
    | with_reducible exact id
    | with_reducible exact Tbl.wf_filter
    | exact fun _ => rfl
    | split
    | refine KeptP.of_eq (by with_reducible assumption) ?_
    | refine Kept.of_pair (by with_reducible assumption) ?_
    | (intro _; try dsimp only)

theorem State.ctxCmdLoaded_kept {q : Q4} (s : State) (p : BitVec 4) (ctx : BitVec 16) (hk : Kept q s) : Kept q (State.ctxCmdLoaded s p ctx) := by
  unfold State.ctxCmdLoaded
  try dsimp only
  repeat' first
    | with_reducible assumption
    | with_reducible apply Kept.ite
    | with_reducible apply State.ctxCmdRun_kept
    | simp only [Kept.mk_iff]
    | with_reducible apply K5.of
    | with_reducible apply K5.step
    | with_reducible exact id
    | exact fun _ => rfl
    | split
    | refine KeptP.of_eq (by with_reducible assumption) ?_
    | refine Kept.of_pair (by with_reducible assumption) ?_
    | (intro _; try dsimp only)

/-! Functions of Machine/Image.lean. -/

/-! Functions of Machine/Template.lean. -/

theorem State.dirPut_kept {q : Q4} (s : State) (p : BitVec 4) (id : BitVec 12) (d : DirEntry) (hk : Kept q s) : Kept q (State.dirPut s p id d) := by
  unfold State.dirPut
  try dsimp only
  repeat' first
    | with_reducible assumption
    | with_reducible apply Kept.ite
    | simp only [Kept.mk_iff]
    | with_reducible apply K5.of
    | with_reducible apply K5.step
    | with_reducible exact id
    | with_reducible exact Tbl.wf_filter
    | exact fun _ => rfl
    | split
    | (intro _; try dsimp only)

theorem State.dirsDrop_kept {q : Q4} (s : State) (p : BitVec 4) (hk : Kept q s) : Kept q (State.dirsDrop s p) := by
  unfold State.dirsDrop
  try dsimp only
  repeat' first
    | with_reducible assumption
    | simp only [Kept.mk_iff]
    | with_reducible apply K5.of
    | with_reducible apply K5.step
    | with_reducible exact id
    | with_reducible exact Tbl.wf_filter
    | exact fun _ => rfl
    | split
    | (intro _; try dsimp only)

theorem State.setPins_kept {q : Q4} (s : State) (p : BitVec 4) (id : BitVec 12) (img : Option (BitVec 16 × List Line)) (hk : Kept q s) : Kept q (State.setPins s p id img) := by
  unfold State.setPins
  try dsimp only
  repeat' first
    | with_reducible assumption
    | simp only [Kept.mk_iff]
    | with_reducible apply K5.of
    | with_reducible apply K5.step
    | with_reducible exact id
    | with_reducible exact Tbl.wf_filter
    | exact fun _ => rfl
    | split
    | refine KeptP.of_eq (by with_reducible assumption) ?_
    | refine Kept.of_pair (by with_reducible assumption) ?_
    | (intro _; try dsimp only)

theorem State.pinEntry_kept {q : Q4} (s : State) (k : EKey) (d : DirEntry) (hk : Kept q s) : Kept q (State.pinEntry s k d) := by
  unfold State.pinEntry
  try dsimp only
  repeat' first
    | with_reducible assumption
    | with_reducible apply State.updEntry_kept
    | simp only [Kept.mk_iff]
    | with_reducible apply K5.of
    | with_reducible apply K5.step
    | with_reducible exact id
    | exact fun _ => rfl
    | (intro _; try dsimp only)

theorem State.pinTmpl_kept {q : Q4} (s : State) (k : EKey) (hk : Kept q s) : Kept q (State.pinTmpl s k) := by
  unfold State.pinTmpl
  try dsimp only
  repeat' first
    | with_reducible assumption
    | with_reducible apply Kept.ite
    | with_reducible apply State.updEntry_kept
    | with_reducible apply State.read_kept
    | with_reducible apply State.dirPut_kept
    | with_reducible apply State.pinEntry_kept
    | simp only [Kept.mk_iff]
    | with_reducible apply K5.of
    | with_reducible apply K5.step
    | with_reducible exact id
    | with_reducible exact Tbl.wf_filter
    | exact fun _ => rfl
    | split
    | refine KeptP.of_eq (by with_reducible assumption) ?_
    | refine Kept.of_pair (by with_reducible assumption) ?_
    | (intro _; try dsimp only)

theorem State.aheadDrop_kept {q : Q4} (s : State) (f : EKey → Bool) (hk : Kept q s) : Kept q (State.aheadDrop s f) := by
  unfold State.aheadDrop
  try dsimp only
  repeat' first
    | with_reducible assumption
    | with_reducible apply Kept.ite
    | simp only [Kept.mk_iff]
    | with_reducible apply K5.of
    | with_reducible apply K5.step
    | with_reducible exact id
    | with_reducible exact Tbl.wf_filter
    | exact fun _ => rfl
    | split
    | refine KeptP.of_eq (by with_reducible assumption) ?_
    | refine Kept.of_pair (by with_reducible assumption) ?_
    | (intro _; try dsimp only)

theorem State.setTmplCmd_kept {q : Q4} (s : State) (p : BitVec 4) (c : Option TmplCmd) (hk : Kept q s) : Kept q (State.setTmplCmd s p c) := by
  unfold State.setTmplCmd
  try dsimp only
  repeat' first
    | with_reducible assumption
    | simp only [Kept.mk_iff]
    | with_reducible apply K5.of
    | with_reducible apply K5.step
    | with_reducible exact id
    | exact Tbl.wf_set
    | exact fun _ => rfl
    | (intro _; try dsimp only)

theorem State.tmplEnd_kept {q : Q4} (s : State) (p : BitVec 4) (err : BitVec 4) (hk : Kept q s) : Kept q (State.tmplEnd s p err) := by
  unfold State.tmplEnd
  try dsimp only
  repeat' first
    | with_reducible assumption
    | with_reducible apply Kept.ite
    | with_reducible apply State.setF_kept
    | with_reducible apply State.setBit_kept
    | with_reducible apply State.cmdAdd_kept
    | with_reducible apply State.setTmplCmd_kept
    | split

theorem State.tmplStart_kept {q : Q4} (s : State) (p : BitVec 4) (op : BitVec 4) (hk : Kept q s) : Kept q (State.tmplStart s p op) := by
  unfold State.tmplStart
  try dsimp only
  repeat' first
    | with_reducible assumption
    | with_reducible apply Kept.ite
    | with_reducible apply State.setF_kept
    | with_reducible apply State.setBit_kept
    | with_reducible apply State.read_kept
    | with_reducible apply State.setTmplCmd_kept
    | with_reducible apply State.tmplEnd_kept
    | split

theorem State.tmplWrite_kept {q : Q4} (s : State) (p : BitVec 4) (c : TmplCmd) (d : DirEntry) (step : Nat) (hk : Kept q s) : Kept q (State.tmplWrite s p c d step) := by
  unfold State.tmplWrite
  try dsimp only
  repeat' first
    | with_reducible assumption
    | with_reducible apply State.write_kept
    | with_reducible apply State.dirPut_kept
    | with_reducible apply State.aheadDrop_kept
    | with_reducible apply State.setTmplCmd_kept
    | simp only [Kept.mk_iff]
    | with_reducible apply K5.of
    | with_reducible apply K5.step
    | with_reducible exact id
    | with_reducible exact Tbl.wf_filter
    | exact fun _ => rfl
    | split
    | refine KeptP.of_eq (by with_reducible assumption) ?_
    | refine Kept.of_pair (by with_reducible assumption) ?_
    | (intro _; try dsimp only)

theorem State.tmplImage_kept {q : Q4} (s : State) (p : BitVec 4) (c : TmplCmd) (hk : Kept q s) : Kept q (State.tmplImage s p c) := by
  unfold State.tmplImage
  try dsimp only
  repeat' first
    | with_reducible assumption
    | with_reducible apply Kept.ite
    | with_reducible apply State.wr_kept
    | with_reducible apply State.setPins_kept
    | with_reducible apply State.tmplEnd_kept
    | with_reducible apply State.tmplWrite_kept
    | simp only [Kept.mk_iff]
    | with_reducible apply K5.of
    | with_reducible apply K5.step
    | with_reducible exact id
    | exact fun _ => rfl
    | split
    | refine KeptP.of_eq (by with_reducible assumption) ?_
    | refine Kept.of_pair (by with_reducible assumption) ?_
    | (intro _; try dsimp only)

theorem State.tmplDir_kept {q : Q4} (s : State) (p : BitVec 4) (c : TmplCmd) (hk : Kept q s) : Kept q (State.tmplDir s p c) := by
  unfold State.tmplDir
  try dsimp only
  repeat' first
    | with_reducible assumption
    | with_reducible apply Kept.ite
    | with_reducible apply State.readLines_kept
    | with_reducible apply State.setPins_kept
    | with_reducible apply State.setTmplCmd_kept
    | with_reducible apply State.tmplEnd_kept
    | with_reducible apply State.tmplWrite_kept
    | simp only [Kept.mk_iff]
    | with_reducible apply K5.of
    | with_reducible apply K5.step
    | with_reducible exact id
    | exact fun _ => rfl
    | split
    | refine KeptP.of_eq (by with_reducible assumption) ?_
    | refine Kept.of_pair (by with_reducible assumption) ?_
    | (intro _; try dsimp only)

theorem State.tmplTry_kept {q : Q4} (s : State) (p : BitVec 4) (hk : Kept q s) : Kept q (State.tmplTry s p) := by
  unfold State.tmplTry
  try dsimp only
  repeat' first
    | with_reducible assumption
    | with_reducible apply Kept.ite
    | with_reducible apply State.tmplEnd_kept
    | with_reducible apply State.tmplWrite_kept
    | simp only [Kept.mk_iff]
    | with_reducible apply K5.of
    | with_reducible apply K5.step
    | with_reducible exact id
    | exact fun _ => rfl
    | split
    | refine KeptP.of_eq (by with_reducible assumption) ?_
    | refine Kept.of_pair (by with_reducible assumption) ?_
    | (intro _; try dsimp only)

theorem State.tmplReset_kept {q : Q4} (s : State) (p : BitVec 4) (hk : Kept q s) : Kept q (State.tmplReset s p) := by
  unfold State.tmplReset
  try dsimp only
  repeat' first
    | with_reducible assumption
    | with_reducible apply Kept.ite
    | with_reducible apply State.orphan_kept
    | with_reducible apply State.tmplEnd_kept
    | with_reducible apply State.tmplTry_kept
    | simp only [Kept.mk_iff]
    | with_reducible apply K5.of
    | with_reducible apply K5.step
    | with_reducible exact id
    | with_reducible exact Tbl.wf_filter
    | exact fun _ => rfl
    | split
    | refine KeptP.of_eq (by with_reducible assumption) ?_
    | refine Kept.of_pair (by with_reducible assumption) ?_
    | (intro _; try dsimp only)

theorem State.tmplStep_kept {q : Q4} (s : State) (p : BitVec 4) (c : TmplCmd) (write : Bool) (err : Bool) (line : Nat) (lines : List Line) (hk : Kept q s) : Kept q (State.tmplStep s p c write err line lines) := by
  unfold State.tmplStep
  try dsimp only
  repeat' first
    | with_reducible assumption
    | with_reducible apply Kept.ite
    | with_reducible apply State.write_kept
    | with_reducible apply State.readLines_kept
    | with_reducible apply State.setTmplCmd_kept
    | with_reducible apply State.tmplEnd_kept
    | with_reducible apply State.tmplImage_kept
    | with_reducible apply State.tmplDir_kept
    | with_reducible apply State.tmplTry_kept
    | simp only [Kept.mk_iff]
    | with_reducible apply K5.of
    | with_reducible apply K5.step
    | with_reducible exact id
    | exact fun _ => rfl
    | split
    | refine KeptP.of_eq (by with_reducible assumption) ?_
    | refine Kept.of_pair (by with_reducible assumption) ?_
    | (intro _; try dsimp only)

theorem State.pinsReload_kept {q : Q4} (s : State) (hk : Kept q s) : Kept q (State.pinsReload s) := by
  unfold State.pinsReload
  try dsimp only
  repeat' first
    | with_reducible assumption
    | with_reducible apply State.read_kept
    | (with_reducible apply Kept.foldl <;> first | (intro _ _ _; try dsimp only) | skip)
    | (with_reducible apply Kept.foldl_fst <;> first | (intro _ _ _; try dsimp only) | skip)
    | (with_reducible apply Kept.foldl_snd <;> first | (intro _ _ _; try dsimp only) | skip)
    | split
    | (intro _; try dsimp only)

theorem State.pinStep_kept {q : Q4} (s : State) (p : BitVec 4) (id : BitVec 12) (off : Nat) (err : Bool) (lines : List Line) (hk : Kept q s) : Kept q (State.pinStep s p id off err lines) := by
  unfold State.pinStep
  try dsimp only
  repeat' first
    | with_reducible assumption
    | with_reducible apply Kept.ite
    | with_reducible apply State.readLines_kept
    | with_reducible apply State.dirPut_kept
    | with_reducible apply State.setPins_kept
    | simp only [Kept.mk_iff]
    | with_reducible apply K5.of
    | with_reducible apply K5.step
    | with_reducible exact id
    | exact fun _ => rfl
    | split
    | refine KeptP.of_eq (by with_reducible assumption) ?_
    | refine Kept.of_pair (by with_reducible assumption) ?_
    | (intro _; try dsimp only)

theorem execTmplCmdDone_kept {q : Q4} (p : BitVec 4) (write : Bool) (mtag : BitVec 8) (gen : BitVec 4) (err : Bool) (lines : List Line) (s : State) (hk : Kept q s) : KeptO q (execTmplCmdDone p write mtag gen err lines s) := by
  unfold execTmplCmdDone
  try dsimp only
  repeat' first
    | with_reducible assumption
    | exact KeptO.fault
    | with_reducible apply KeptO.next
    | with_reducible apply KeptO.ite
    | with_reducible apply Kept.ite
    | with_reducible apply State.write_kept
    | with_reducible apply State.answer_kept
    | with_reducible apply State.tmplStep_kept
    | with_reducible apply State.pinStep_kept
    | simp only [Kept.mk_iff]
    | with_reducible apply K5.of
    | with_reducible apply K5.step
    | with_reducible exact id
    | exact fun _ => rfl
    | split
    | refine KeptP.of_eq (by with_reducible assumption) ?_
    | refine Kept.of_pair (by with_reducible assumption) ?_
    | (intro _; try dsimp only)

/-! Functions of Machine/Ferry.lean. -/

theorem State.unland_kept {q : Q4} (s : State) (k : EKey) (hk : Kept q s) : Kept q (State.unland s k) := by
  unfold State.unland
  try dsimp only
  repeat' first
    | with_reducible assumption
    | with_reducible apply Kept.ite
    | with_reducible apply State.unplace_kept
    | simp only [Kept.mk_iff]
    | with_reducible apply K5.of
    | with_reducible apply K5.step
    | with_reducible exact id
    | exact fun _ => rfl
    | split
    | refine KeptP.of_eq (by with_reducible assumption) ?_
    | refine Kept.of_pair (by with_reducible assumption) ?_
    | (intro _; try dsimp only)

theorem State.ferryFault_kept {q : Q4} (s : State) (k : EKey) (code : Nat) (hk : Kept q s) : Kept q (State.ferryFault s k code) := by
  unfold State.ferryFault
  repeat' first
    | with_reducible assumption
    | with_reducible apply State.cbFault_kept
    | with_reducible apply State.unland_kept

theorem State.relocNote_kept {q : Q4} (s : State) (k : EKey) (e : Entry) (code : Nat) (sev : Nat) (op : Option Nat) (h : Word) (hk : Kept q s) : Kept q (State.relocNote s k e code sev op h) := by
  unfold State.relocNote
  try dsimp only
  repeat' first
    | with_reducible assumption
    | with_reducible apply State.bump_kept
    | with_reducible apply State.setSlot_kept
    | with_reducible apply State.raiseLater_kept
    | simp only [Kept.mk_iff]
    | with_reducible apply K5.of
    | with_reducible apply K5.step
    | with_reducible exact id
    | with_reducible exact Tbl.wf_filter
    | exact fun _ => rfl
    | split
    | refine KeptP.of_eq (by with_reducible assumption) ?_
    | refine Kept.of_pair (by with_reducible assumption) ?_
    | (intro _; try dsimp only)

theorem State.relocWhole_kept {q : Q4} (s : State) (k : EKey) (code : Nat) (op : Option Nat) (h : Word) (hk : Kept q s) : Kept q (State.relocWhole s k code op h) := by
  unfold State.relocWhole
  try dsimp only
  repeat' first
    | with_reducible assumption
    | with_reducible apply Kept.ite
    | with_reducible apply State.updEntry_kept
    | with_reducible apply State.refuseLaunch_kept
    | with_reducible apply State.loseCtx_kept
    | with_reducible apply State.unland_kept
    | with_reducible apply State.relocNote_kept
    | simp only [Kept.mk_iff]
    | with_reducible apply K5.of
    | with_reducible apply K5.step
    | with_reducible exact id
    | with_reducible exact Tbl.wf_filter
    | exact fun _ => rfl
    | split
    | refine KeptP.of_eq (by with_reducible assumption) ?_
    | refine Kept.of_pair (by with_reducible assumption) ?_
    | (intro _; try dsimp only)

theorem State.missWait_kept {q : Q4} (s : State) (k : EKey) (n : Nat) (idx : Nat) (hk : Kept q s) : Kept q (State.missWait s k n idx) := by
  unfold State.missWait
  try dsimp only
  repeat' first
    | with_reducible assumption
    | with_reducible apply Kept.ite
    | with_reducible apply State.setEntry_kept
    | with_reducible apply State.read_kept
    | with_reducible apply State.stage_kept
    | simp only [Kept.mk_iff]
    | with_reducible apply K5.of
    | with_reducible apply K5.step
    | with_reducible exact id
    | with_reducible exact Tbl.wf_filter
    | exact fun _ => rfl
    | split
    | refine KeptP.of_eq (by with_reducible assumption) ?_
    | refine Kept.of_pair (by with_reducible assumption) ?_
    | (intro _; try dsimp only)

theorem State.relocate_kept {q : Q4} (s : State) (k : EKey) (qs : List RReq) (go : State → List Addr → State)
    (hg : ∀ s as, Kept q s → Kept q (go s as)) (hk : Kept q s) : Kept q (s.relocate k qs go) := by
  unfold State.relocate
  repeat' first
    | with_reducible assumption
    | exact hg _ _ (State.setSlot_kept _ _ _ hk)
    | with_reducible apply State.ferryFault_kept
    | with_reducible apply State.relocWhole_kept
    | with_reducible apply State.missWait_kept
    | split

theorem State.issueInput_kept {q : Q4} (s : State) (k : EKey) (part : Nat) (base : Addr) (start : Nat) (n : Nat) (hk : Kept q s) : Kept q (State.issueInput s k part base start n) := by
  unfold State.issueInput
  try dsimp only
  repeat' first
    | with_reducible assumption
    | with_reducible apply State.updEntry_kept
    | with_reducible apply State.readLines_kept
    | simp only [Kept.mk_iff]
    | with_reducible apply K5.of
    | with_reducible apply K5.step
    | with_reducible exact id
    | exact fun _ => rfl
    | split
    | (intro _; try dsimp only)

theorem State.firstReads_kept {q : Q4} (s : State) (k : EKey) (as : List Addr) (hk : Kept q s) : Kept q (State.firstReads s k as) := by
  unfold State.firstReads
  try dsimp only
  repeat' first
    | with_reducible assumption
    | with_reducible apply Kept.ite
    | with_reducible apply State.updEntry_kept
    | with_reducible apply State.addLookup_kept
    | with_reducible apply State.issueInput_kept
    | simp only [Kept.mk_iff]
    | with_reducible apply K5.of
    | with_reducible apply K5.step
    | with_reducible exact id
    | with_reducible exact Tbl.wf_filter
    | exact fun _ => rfl
    | split
    | refine KeptP.of_eq (by with_reducible assumption) ?_
    | refine Kept.of_pair (by with_reducible assumption) ?_
    | (intro _; try dsimp only)

theorem State.headerIn_kept {q : Q4} (s : State) (k : EKey) (e : Entry) (hk : Kept q s) : Kept q (State.headerIn s k e) := by
  unfold State.headerIn
  try dsimp only
  repeat' first
    | with_reducible assumption
    | with_reducible apply Kept.ite
    | with_reducible apply State.updEntry_kept
    | with_reducible apply State.ferryFault_kept
    | with_reducible apply State.relocate_kept
    | with_reducible apply State.issueInput_kept
    | simp only [Kept.mk_iff]
    | with_reducible apply K5.of
    | with_reducible apply K5.step
    | with_reducible exact id
    | with_reducible exact Tbl.wf_filter
    | exact fun _ => rfl
    | split
    | refine KeptP.of_eq (by with_reducible assumption) ?_
    | refine Kept.of_pair (by with_reducible assumption) ?_
    | (intro _; try dsimp only)

theorem State.imageIn_kept {q : Q4} (s : State) (k : EKey) (e : Entry) (hk : Kept q s) : Kept q (State.imageIn s k e) := by
  unfold State.imageIn
  try dsimp only
  repeat' first
    | with_reducible assumption
    | with_reducible apply Kept.ite
    | with_reducible apply State.updEntry_kept
    | with_reducible apply State.ferryFault_kept
    | with_reducible apply State.relocate_kept
    | with_reducible apply State.issueInput_kept
    | simp only [Kept.mk_iff]
    | with_reducible apply K5.of
    | with_reducible apply K5.step
    | with_reducible exact id
    | with_reducible exact Tbl.wf_filter
    | exact fun _ => rfl
    | split
    | refine KeptP.of_eq (by with_reducible assumption) ?_
    | refine Kept.of_pair (by with_reducible assumption) ?_
    | (intro _; try dsimp only)

theorem State.patchBad_kept {q : Q4} (s : State) (k : EKey) (op : Option Nat) (hk : Kept q s) : Kept q (State.patchBad s k op) := by
  unfold State.patchBad
  try dsimp only
  repeat' first
    | with_reducible assumption
    | with_reducible apply State.bump_kept
    | with_reducible apply State.setEntry_kept
    | with_reducible apply State.raiseLater_kept
    | simp only [Kept.mk_iff]
    | with_reducible apply K5.of
    | with_reducible apply K5.step
    | with_reducible exact id
    | with_reducible exact Tbl.wf_filter
    | exact fun _ => rfl
    | split
    | refine KeptP.of_eq (by with_reducible assumption) ?_
    | refine Kept.of_pair (by with_reducible assumption) ?_
    | (intro _; try dsimp only)

theorem State.prepare_kept {q : Q4} (s : State) (k : EKey) (e : Entry) (hk : Kept q s) : Kept q (State.prepare s k e) := by
  unfold State.prepare
  try dsimp only
  repeat' first
    | with_reducible assumption
    | with_reducible apply Kept.ite
    | with_reducible apply State.updEntry_kept
    | with_reducible apply State.stage_kept
    | with_reducible apply State.patchBad_kept
    | (with_reducible apply Kept.foldl <;> first | (intro _ _ _; try dsimp only) | skip)
    | (with_reducible apply Kept.foldl_fst <;> first | (intro _ _ _; try dsimp only) | skip)
    | (with_reducible apply Kept.foldl_snd <;> first | (intro _ _ _; try dsimp only) | skip)
    | simp only [Kept.mk_iff]
    | with_reducible apply K5.of
    | with_reducible apply K5.step
    | with_reducible exact id
    | with_reducible exact Tbl.wf_filter
    | exact fun _ => rfl
    | split
    | refine KeptP.of_eq (by with_reducible assumption) ?_
    | refine Kept.of_pair (by with_reducible assumption) ?_
    | (intro _; try dsimp only)

theorem State.advance1_kept {q : Q4} (s : State) (k : EKey) (hk : Kept q s) : KeptP q (State.advance1 s k) := by
  unfold State.advance1
  try dsimp only
  repeat' first
    | with_reducible assumption
    | exact KeptP.none
    | with_reducible apply KeptP.some
    | with_reducible apply KeptP.map
    | with_reducible apply Kept.ite
    | with_reducible apply State.updEntry_kept
    | with_reducible apply State.raise_kept
    | with_reducible apply State.refuseLaunch_kept
    | with_reducible apply State.stage_kept
    | with_reducible apply State.takeCtx_kept
    | with_reducible apply State.enqueueHarb_kept
    | with_reducible apply State.ferryFault_kept
    | with_reducible apply State.relocate_kept
    | with_reducible apply State.firstReads_kept
    | with_reducible apply State.headerIn_kept
    | with_reducible apply State.imageIn_kept
    | with_reducible apply State.prepare_kept
    | simp only [Kept.mk_iff]
    | with_reducible apply K5.of
    | with_reducible apply K5.step
    | with_reducible exact id
    | with_reducible exact Tbl.wf_filter
    | exact fun _ => rfl
    | split
    | refine KeptP.of_eq (by with_reducible assumption) ?_
    | refine Kept.of_pair (by with_reducible assumption) ?_
    | (intro _; try dsimp only)

theorem State.advanceN_kept {q : Q4} (s : State) (k : EKey) (hk : Kept q s) : ∀ n, Kept q (s.advanceN k n) := by
  intro n
  induction n generalizing s with
  | zero => exact hk
  | succ n ih =>
    unfold State.advanceN
    split
    · exact hk
    · exact ih _ (KeptP.of_eq (by assumption) (State.advance1_kept _ _ hk))

theorem State.advance_kept {q : Q4} (s : State) (k : EKey) (hk : Kept q s) : Kept q (State.advance s k) := by
  unfold State.advance
  repeat' first
    | with_reducible assumption
    | with_reducible apply State.advanceN_kept

theorem State.enter4_kept {q : Q4} (s : State) (k : EKey) (hk : Kept q s) : Kept q (State.enter4 s k) := by
  unfold State.enter4
  try dsimp only
  repeat' first
    | with_reducible assumption
    | with_reducible apply Kept.ite
    | with_reducible apply State.updEntry_kept
    | with_reducible apply State.stage_kept
    | with_reducible apply State.pinTmpl_kept
    | with_reducible apply State.advance_kept
    | simp only [Kept.mk_iff]
    | with_reducible apply K5.of
    | with_reducible apply K5.step
    | with_reducible exact id
    | with_reducible exact Tbl.wf_filter
    | exact fun _ => rfl
    | split
    | refine KeptP.of_eq (by with_reducible assumption) ?_
    | refine Kept.of_pair (by with_reducible assumption) ?_
    | (intro _; try dsimp only)

theorem State.ctxReady_kept {q : Q4} (s : State) (k : EKey) (hk : Kept q s) : Kept q (State.ctxReady s k) := by
  unfold State.ctxReady
  try dsimp only
  repeat' first
    | with_reducible assumption
    | with_reducible apply Kept.ite
    | with_reducible apply State.enter7_kept
    | with_reducible apply State.stage_kept
    | with_reducible apply State.advance_kept
    | simp only [Kept.mk_iff]
    | with_reducible apply K5.of
    | with_reducible apply K5.step
    | with_reducible exact id
    | exact fun _ => rfl
    | split
    | refine KeptP.of_eq (by with_reducible assumption) ?_
    | refine Kept.of_pair (by with_reducible assumption) ?_
    | (intro _; try dsimp only)

theorem State.tideRetire_kept {q : Q4} (s : State) (p : BitVec 4) (hk : Kept q s) : Kept q (State.tideRetire s p) := by
  unfold State.tideRetire
  try dsimp only
  repeat' first
    | with_reducible assumption
    | with_reducible apply Kept.ite
    | with_reducible apply State.setBit_kept
    | with_reducible apply State.headLeaves_kept
    | with_reducible apply State.offer_kept
    | with_reducible apply State.enterLanding_kept
    | with_reducible apply State.stage_kept
    | (with_reducible apply Kept.foldl <;> first | (intro _ _ _; try dsimp only) | skip)
    | (with_reducible apply Kept.foldl_fst <;> first | (intro _ _ _; try dsimp only) | skip)
    | (with_reducible apply Kept.foldl_snd <;> first | (intro _ _ _; try dsimp only) | skip)
    | split
    | (intro _; try dsimp only)

theorem State.settle_kept {q : Q4} (s : State) (hk : Kept q s) : Kept q (State.settle s) := by
  unfold State.settle
  try dsimp only
  repeat' first
    | with_reducible assumption
    | with_reducible apply Kept.ite
    | with_reducible apply State.tryReadback_kept
    | with_reducible apply State.drainPorts_kept
    | with_reducible apply State.stage_kept
    | with_reducible apply State.destroyTry_kept
    | with_reducible apply State.tmplTry_kept
    | with_reducible apply State.advance_kept
    | with_reducible apply State.tideRetire_kept
    | (with_reducible apply Kept.foldl <;> first | (intro _ _ _; try dsimp only) | skip)
    | (with_reducible apply Kept.foldl_fst <;> first | (intro _ _ _; try dsimp only) | skip)
    | (with_reducible apply Kept.foldl_snd <;> first | (intro _ _ _; try dsimp only) | skip)
    | simp only [Kept.mk_iff]
    | with_reducible apply K5.of
    | with_reducible apply K5.step
    | with_reducible exact id
    | exact fun _ => rfl
    | split
    | refine KeptP.of_eq (by with_reducible assumption) ?_
    | refine Kept.of_pair (by with_reducible assumption) ?_
    | (intro _; try dsimp only)

theorem State.emitBlock_kept {q : Q4} (s : State) (k : EKey) (e : Entry) (hk : Kept q s) : Kept q (State.emitBlock s k e) := by
  unfold State.emitBlock
  try dsimp only
  repeat' first
    | with_reducible assumption
    | with_reducible apply State.updEntry_kept
    | with_reducible apply State.placeOn_kept
    | with_reducible apply State.relocate_kept
    | simp only [Kept.mk_iff]
    | with_reducible apply K5.of
    | with_reducible apply K5.step
    | with_reducible exact id
    | exact fun _ => rfl
    | split
    | refine KeptP.of_eq (by with_reducible assumption) ?_
    | refine Kept.of_pair (by with_reducible assumption) ?_
    | (intro _; try dsimp only)

theorem State.emitSkip_kept {q : Q4} (s : State) (k : EKey) (l : Line) (reloc : Bool) (hk : Kept q s) : Kept q (State.emitSkip s k l reloc) := by
  unfold State.emitSkip
  try dsimp only
  repeat' first
    | with_reducible assumption
    | with_reducible apply Kept.ite
    | with_reducible apply State.updEntry_kept
    | simp only [Kept.mk_iff]
    | with_reducible apply K5.of
    | with_reducible apply K5.step
    | with_reducible exact id
    | exact fun _ => rfl
    | split
    | (intro _; try dsimp only)

theorem State.emitOp_kept {q : Q4} (s : State) (k : EKey) (e : Entry) (i : Nat) (hk : Kept q s) : Kept q (State.emitOp s k e i) := by
  unfold State.emitOp
  try dsimp only
  repeat' first
    | with_reducible assumption
    | with_reducible apply Kept.ite
    | with_reducible apply State.bump_kept
    | with_reducible apply State.updEntry_kept
    | with_reducible apply State.setSlot_kept
    | with_reducible apply State.raiseLater_kept
    | with_reducible apply State.relocNote_kept
    | with_reducible apply State.relocWhole_kept
    | with_reducible apply State.missWait_kept
    | with_reducible apply State.emitSkip_kept
    | simp only [Kept.mk_iff]
    | with_reducible apply K5.of
    | with_reducible apply K5.step
    | with_reducible exact id
    | with_reducible exact Tbl.wf_filter
    | exact fun _ => rfl
    | split
    | refine KeptP.of_eq (by with_reducible assumption) ?_
    | refine Kept.of_pair (by with_reducible assumption) ?_
    | (intro _; try dsimp only)

theorem State.emit_kept {q : Q4} (s : State) (k : EKey) (e : Entry) (hk : Kept q s) : Kept q (State.emit s k e) := by
  unfold State.emit
  try dsimp only
  repeat' first
    | with_reducible assumption
    | with_reducible apply Kept.ite
    | with_reducible apply State.updEntry_kept
    | with_reducible apply State.emitBlock_kept
    | with_reducible apply State.emitOp_kept
    | simp only [Kept.mk_iff]
    | with_reducible apply K5.of
    | with_reducible apply K5.step
    | with_reducible exact id
    | exact fun _ => rfl
    | split
    | (intro _; try dsimp only)

theorem State.ferryDone_kept {q : Q4} (s : State) (k : EKey) (hk : Kept q s) : Kept q (State.ferryDone s k) := by
  unfold State.ferryDone
  try dsimp only
  repeat' first
    | with_reducible assumption
    | with_reducible apply Kept.ite
    | with_reducible apply State.bump_kept
    | with_reducible apply State.updEntry_kept
    | with_reducible apply State.setThread_kept
    | with_reducible apply State.freeChan_kept
    | with_reducible apply State.stage6_kept
    | with_reducible apply State.backTo8_kept
    | with_reducible apply State.tryStart_kept
    | with_reducible apply State.stage_kept
    | simp only [Kept.mk_iff]
    | with_reducible apply K5.of
    | with_reducible apply K5.step
    | with_reducible exact id
    | with_reducible exact Tbl.wf_filter
    | exact fun _ => rfl
    | split
    | refine KeptP.of_eq (by with_reducible assumption) ?_
    | refine Kept.of_pair (by with_reducible assumption) ?_
    | (intro _; try dsimp only)

theorem State.storeFull_kept {q : Q4} (s : State) (hk : Kept q s) : Kept q (State.storeFull s) := by
  unfold State.storeFull
  try dsimp only
  repeat' first
    | with_reducible assumption
    | with_reducible apply State.closeOpen_kept
    | with_reducible apply State.stage_kept
    | (with_reducible apply Kept.foldl <;> first | (intro _ _ _; try dsimp only) | skip)
    | (intro _; try dsimp only)

theorem State.aheadIn_kept {q : Q4} (s : State) (k : EKey) (a : Addr) (lines : List Line) (hk : Kept q s) : Kept q (State.aheadIn s k a lines) := by
  unfold State.aheadIn
  try dsimp only
  repeat' first
    | with_reducible assumption
    | with_reducible apply Kept.ite
    | simp only [Kept.mk_iff]
    | with_reducible apply K5.of
    | with_reducible apply K5.step
    | with_reducible exact id
    | exact fun _ => rfl
    | split
    | (intro _; try dsimp only)

theorem execFerryInputReady_kept {q : Q4} (stream : BitVec 14) (mtag : BitVec 8) (gen : BitVec 4) (err : Bool) (lines : List Line) (s : State) (hk : Kept q s) : KeptO q (execFerryInputReady stream mtag gen err lines s) := by
  unfold execFerryInputReady
  try dsimp only
  repeat' first
    | with_reducible assumption
    | exact KeptO.fault
    | exact KeptO.refused
    | with_reducible apply KeptO.next
    | with_reducible apply KeptO.ite
    | with_reducible apply Kept.ite
    | with_reducible apply State.setEntry_kept
    | with_reducible apply State.updEntry_kept
    | with_reducible apply State.answer_kept
    | with_reducible apply State.dirPut_kept
    | with_reducible apply State.pinEntry_kept
    | with_reducible apply State.advance_kept
    | with_reducible apply State.settle_kept
    | with_reducible apply State.aheadIn_kept
    | simp only [Kept.mk_iff]
    | with_reducible apply K5.of
    | with_reducible apply K5.step
    | with_reducible exact id
    | with_reducible exact Tbl.wf_filter
    | exact fun _ => rfl
    | split
    | refine KeptP.of_eq (by with_reducible assumption) ?_
    | refine Kept.of_pair (by with_reducible assumption) ?_
    | (intro _; try dsimp only)

theorem State.leaveQueues_kept {q : Q4} (s : State) (k : EKey) (hk : Kept q s) : Kept q (State.leaveQueues s k) := by
  unfold State.leaveQueues
  try dsimp only
  repeat' first
    | with_reducible assumption
    | with_reducible apply State.updStream_kept
    | simp only [Kept.mk_iff]
    | with_reducible apply K5.of
    | with_reducible apply K5.step
    | with_reducible exact id
    | with_reducible exact Tbl.wf_filter
    | exact fun _ => rfl
    | (intro _; try dsimp only)

theorem execHarbourRecordArrives_kept {q : Q4} (mtag : BitVec 8) (gen : BitVec 4) (err : Bool) (lines : List Line) (s : State) (hk : Kept q s) : KeptO q (execHarbourRecordArrives mtag gen err lines s) := by
  unfold execHarbourRecordArrives
  try dsimp only
  repeat' first
    | with_reducible assumption
    | exact KeptO.fault
    | exact KeptO.refused
    | with_reducible apply KeptO.next
    | with_reducible apply KeptO.ite
    | with_reducible apply Kept.ite
    | with_reducible apply State.setSlot_kept
    | with_reducible apply State.read_kept
    | with_reducible apply State.answer_kept
    | with_reducible apply State.slotIdle_kept
    | with_reducible apply State.refuseLaunch_kept
    | with_reducible apply State.cbFault_kept
    | with_reducible apply State.stageLine1_kept
    | with_reducible apply State.freeSlot_kept
    | with_reducible apply State.applyChanges_kept
    | with_reducible apply State.ctxCmdLoaded_kept
    | with_reducible apply State.ctxReady_kept
    | with_reducible apply State.settle_kept
    | with_reducible apply State.leaveQueues_kept
    | with_reducible apply State.stage_kept
    | (with_reducible apply Kept.foldl <;> first | (intro _ _ _; try dsimp only) | skip)
    | (with_reducible apply Kept.foldl_fst <;> first | (intro _ _ _; try dsimp only) | skip)
    | (with_reducible apply Kept.foldl_snd <;> first | (intro _ _ _; try dsimp only) | skip)
    | simp only [Kept.mk_iff]
    | with_reducible apply K5.of
    | with_reducible apply K5.step
    | with_reducible exact id
    | with_reducible exact Tbl.wf_filter
    | exact fun _ => rfl
    | split
    | refine KeptP.of_eq (by with_reducible assumption) ?_
    | refine Kept.of_pair (by with_reducible assumption) ?_
    | (intro _; try dsimp only)

theorem State.served_kept {q : Q4} (s : State) (k : EKey) (hk : Kept q s) : Kept q (State.served s k) := by
  unfold State.served
  try dsimp only
  repeat' first
    | with_reducible assumption
    | with_reducible apply Kept.ite
    | with_reducible apply State.setEntry_kept
    | with_reducible apply State.stage_kept
    | with_reducible apply State.ctxReady_kept
    | with_reducible apply State.leaveQueues_kept
    | simp only [Kept.mk_iff]
    | with_reducible apply K5.of
    | with_reducible apply K5.step
    | with_reducible exact id
    | exact fun _ => rfl
    | split
    | refine KeptP.of_eq (by with_reducible assumption) ?_
    | refine Kept.of_pair (by with_reducible assumption) ?_
    | (intro _; try dsimp only)

theorem State.serveLost_kept {q : Q4} (s : State) (k : EKey) (hk : Kept q s) : Kept q (State.serveLost s k) := by
  unfold State.serveLost
  try dsimp only
  repeat' first
    | with_reducible assumption
    | with_reducible apply State.refuseLaunch_kept
    | with_reducible apply State.leaveQueues_kept
    | simp only [Kept.mk_iff]
    | with_reducible apply K5.of
    | with_reducible apply K5.step
    | with_reducible exact id
    | with_reducible exact Tbl.wf_filter
    | exact fun _ => rfl
    | split
    | (intro _; try dsimp only)

theorem execHarbourQueueServe_kept {q : Q4} (s : State) (hk : Kept q s) : KeptO q (execHarbourQueueServe s) := by
  unfold execHarbourQueueServe
  split
  · exact .next (State.serveLost_kept _ _ hk)
  split
  · exact .next hk
  · rename_i h
    obtain ⟨k, _, h⟩ := List.exists_of_findSome?_eq_some h
    split at h
    · rename_i e _
      have ht := State.takeCtx_kept (q := q) s k e.part (e.ctx.extractLsb' 0 16) hk
      cases hc : s.takeCtx k e.part (e.ctx.extractLsb' 0 16) with
      | none => simp [hc] at h
      | some t =>
        simp only [hc, Option.map_some, Option.some.injEq, Prod.mk.injEq] at h
        rw [hc] at ht
        rw [← h.2]
        exact .next (State.served_kept _ _ (KeptP.of_eq rfl ht))
    · simp at h

theorem execHandleEntryReturn_kept {q : Q4} (mtag : BitVec 8) (gen : BitVec 4) (err : Bool) (lines : List Line) (s : State) (hk : Kept q s) : KeptO q (execHandleEntryReturn mtag gen err lines s) := by
  unfold execHandleEntryReturn
  try dsimp only
  repeat' first
    | with_reducible assumption
    | exact KeptO.fault
    | exact KeptO.refused
    | with_reducible apply KeptO.next
    | with_reducible apply KeptO.ite
    | with_reducible apply Kept.ite
    | with_reducible apply State.setEntry_kept
    | with_reducible apply State.updEntry_kept
    | with_reducible apply State.setSlot_kept
    | with_reducible apply State.answer_kept
    | with_reducible apply State.stage_kept
    | with_reducible apply State.ferryFault_kept
    | with_reducible apply State.advance_kept
    | with_reducible apply State.settle_kept
    | (with_reducible apply Kept.foldl <;> first | (intro _ _ _; try dsimp only) | skip)
    | (with_reducible apply Kept.foldl_fst <;> first | (intro _ _ _; try dsimp only) | skip)
    | (with_reducible apply Kept.foldl_snd <;> first | (intro _ _ _; try dsimp only) | skip)
    | simp only [Kept.mk_iff]
    | with_reducible apply K5.of
    | with_reducible apply K5.step
    | with_reducible exact id
    | with_reducible exact Tbl.wf_filter
    | exact fun _ => rfl
    | split
    | refine KeptP.of_eq (by with_reducible assumption) ?_
    | refine Kept.of_pair (by with_reducible assumption) ?_
    | (intro _; try dsimp only)

theorem State.parkFail_kept {q : Q4} (s : State) (k : EKey) (hk : Kept q s) : Kept q (State.parkFail s k) := by
  unfold State.parkFail
  try dsimp only
  repeat' first
    | with_reducible assumption
    | with_reducible apply Kept.ite
    | with_reducible apply State.cbFault_kept
    | with_reducible apply State.voidWaiters_kept
    | with_reducible apply State.stage_kept
    | with_reducible apply State.leaveQueues_kept
    | simp only [Kept.mk_iff]
    | with_reducible apply K5.of
    | with_reducible apply K5.step
    | with_reducible exact id
    | exact fun _ => rfl
    | split
    | refine KeptP.of_eq (by with_reducible assumption) ?_
    | refine Kept.of_pair (by with_reducible assumption) ?_
    | (intro _; try dsimp only)

theorem execParkWriteAck_kept {q : Q4} (mtag : BitVec 8) (gen : BitVec 4) (err : Bool) (s : State) (hk : Kept q s) : KeptO q (execParkWriteAck mtag gen err s) := by
  unfold execParkWriteAck
  try dsimp only
  repeat' first
    | with_reducible assumption
    | with_reducible apply KeptO.next
    | with_reducible apply KeptO.ite
    | with_reducible apply Kept.ite
    | with_reducible apply State.updEntry_kept
    | with_reducible apply State.answer_kept
    | with_reducible apply State.park_kept
    | with_reducible apply State.settle_kept
    | with_reducible apply State.parkFail_kept
    | simp only [Kept.mk_iff]
    | with_reducible apply K5.of
    | with_reducible apply K5.step
    | with_reducible exact id
    | exact fun _ => rfl
    | split
    | refine KeptP.of_eq (by with_reducible assumption) ?_
    | refine Kept.of_pair (by with_reducible assumption) ?_
    | (intro _; try dsimp only)

theorem execParkReadbackReturn_kept {q : Q4} (mtag : BitVec 8) (gen : BitVec 4) (err : Bool) (lines : List Line) (s : State) (hk : Kept q s) : KeptO q (execParkReadbackReturn mtag gen err lines s) := by
  unfold execParkReadbackReturn
  try dsimp only
  repeat' first
    | with_reducible assumption
    | exact KeptO.fault
    | exact KeptO.refused
    | with_reducible apply KeptO.next
    | with_reducible apply KeptO.ite
    | with_reducible apply Kept.ite
    | with_reducible apply State.setEntry_kept
    | with_reducible apply State.updEntry_kept
    | with_reducible apply State.answer_kept
    | with_reducible apply State.refuseLaunch_kept
    | with_reducible apply State.stage_kept
    | with_reducible apply State.takeCtx_kept
    | with_reducible apply State.enqueueHarb_kept
    | with_reducible apply State.advance_kept
    | with_reducible apply State.ctxReady_kept
    | with_reducible apply State.settle_kept
    | with_reducible apply State.parkFail_kept
    | simp only [Kept.mk_iff]
    | with_reducible apply K5.of
    | with_reducible apply K5.step
    | with_reducible exact id
    | with_reducible exact Tbl.wf_filter
    | exact fun _ => rfl
    | split
    | refine KeptP.of_eq (by with_reducible assumption) ?_
    | refine Kept.of_pair (by with_reducible assumption) ?_
    | (intro _; try dsimp only)

theorem execCtxCmdDone_kept {q : Q4} (p : BitVec 4) (write : Bool) (mtag : BitVec 8) (gen : BitVec 4) (err : Bool) (lines : List Line) (s : State) (hk : Kept q s) : KeptO q (execCtxCmdDone p write mtag gen err lines s) := by
  unfold execCtxCmdDone
  try dsimp only
  repeat' first
    | with_reducible assumption
    | exact KeptO.fault
    | exact KeptO.refused
    | with_reducible apply KeptO.next
    | with_reducible apply KeptO.ite
    | with_reducible apply Kept.ite
    | with_reducible apply State.write_kept
    | with_reducible apply State.answer_kept
    | with_reducible apply State.ctxCmdStep_kept
    | with_reducible apply State.settle_kept
    | simp only [Kept.mk_iff]
    | with_reducible apply K5.of
    | with_reducible apply K5.step
    | with_reducible exact id
    | with_reducible exact Tbl.wf_filter
    | exact fun _ => rfl
    | split
    | refine KeptP.of_eq (by with_reducible assumption) ?_
    | refine Kept.of_pair (by with_reducible assumption) ?_
    | (intro _; try dsimp only)

/-! Functions of Machine/Streams.lean. -/

theorem State.funcBreak_kept {q : Q4} (s : State) (f : BitVec 12) (hk : Kept q s) : Kept q (State.funcBreak s f) := by
  unfold State.funcBreak
  try dsimp only
  repeat' first
    | with_reducible assumption
    | with_reducible apply State.timingBreak_kept
    | simp only [Kept.mk_iff]
    | with_reducible apply K5.of
    | with_reducible apply K5.step
    | with_reducible exact id
    | exact fun _ => rfl
    | split
    | refine KeptP.of_eq (by with_reducible assumption) ?_
    | refine Kept.of_pair (by with_reducible assumption) ?_
    | (intro _; try dsimp only)

theorem State.ring_kept {q : Q4} (s : State) (n : BitVec 14) (pi : BitVec 16) (hk : Kept q s) : Kept q (State.ring s n pi) := by
  unfold State.ring
  try dsimp only
  repeat' first
    | with_reducible assumption
    | with_reducible apply Kept.ite
    | with_reducible apply State.bump_kept
    | with_reducible apply State.setStream_kept
    | with_reducible apply State.queueReady_kept
    | simp only [Kept.mk_iff]
    | with_reducible apply K5.of
    | with_reducible apply K5.step
    | with_reducible exact id
    | exact fun _ => rfl
    | split

theorem State.doorbell_kept {q : Q4} (s : State) (n : BitVec 14) (pi : BitVec 16) (hk : Kept q s) : Kept q (State.doorbell s n pi) := by
  unfold State.doorbell
  try dsimp only
  repeat' first
    | with_reducible assumption
    | with_reducible apply State.funcBreak_kept
    | with_reducible apply State.ring_kept

theorem State.pauseStream_kept {q : Q4} (s : State) (n : BitVec 14) (hk : Kept q s) : Kept q (State.pauseStream s n) := by
  unfold State.pauseStream
  try dsimp only
  repeat' first
    | with_reducible assumption
    | with_reducible apply Kept.ite
    | with_reducible apply State.setStream_kept
    | with_reducible apply State.unqueue_kept
    | simp only [Kept.mk_iff]
    | with_reducible apply K5.of
    | with_reducible apply K5.step
    | with_reducible exact id
    | exact fun _ => rfl
    | split

theorem State.resumeStream_kept {q : Q4} (s : State) (n : BitVec 14) (hk : Kept q s) : Kept q (State.resumeStream s n) := by
  unfold State.resumeStream
  try dsimp only
  repeat' first
    | with_reducible assumption
    | with_reducible apply Kept.ite
    | with_reducible apply State.setStream_kept
    | with_reducible apply State.updStream_kept
    | with_reducible apply State.queueReady_kept
    | simp only [Kept.mk_iff]
    | with_reducible apply K5.of
    | with_reducible apply K5.step
    | with_reducible exact id
    | exact fun _ => rfl
    | split
    | (intro _; try dsimp only)

theorem State.dropAhead_kept {q : Q4} (s : State) (n : BitVec 14) (hk : Kept q s) : Kept q (State.dropAhead s n) := by
  unfold State.dropAhead
  try dsimp only
  repeat' first
    | with_reducible assumption
    | with_reducible apply Kept.ite
    | with_reducible apply State.ring_kept
    | simp only [Kept.mk_iff]
    | with_reducible apply K5.of
    | with_reducible apply K5.step
    | with_reducible exact id
    | exact fun _ => rfl
    | split
    | refine Kept.of_pair (by with_reducible assumption) ?_
    | (intro _; try dsimp only)

theorem State.invalStream_kept {q : Q4} (s : State) (n : BitVec 14) (hk : Kept q s) : Kept q (State.invalStream s n) := by
  unfold State.invalStream
  try dsimp only
  repeat' first
    | with_reducible assumption
    | with_reducible apply State.aheadDrop_kept
    | with_reducible apply State.dropAhead_kept
    | simp only [Kept.mk_iff]
    | with_reducible apply K5.of
    | with_reducible apply K5.step
    | with_reducible exact id
    | with_reducible exact Tbl.wf_filter
    | exact fun _ => rfl
    | split
    | (intro _; try dsimp only)

theorem State.streamEnable_kept {q : Q4} (s : State) (n : BitVec 14) (hk : Kept q s) : Kept q (State.streamEnable s n) := by
  unfold State.streamEnable
  try dsimp only
  repeat' first
    | with_reducible assumption
    | with_reducible apply Kept.ite
    | with_reducible apply State.setErr_kept
    | with_reducible apply State.setStream_kept
    | with_reducible apply State.invalStream_kept
    | simp only [Kept.mk_iff]
    | with_reducible apply K5.of
    | with_reducible apply K5.step
    | with_reducible exact id
    | with_reducible exact Tbl.wf_filter
    | exact fun _ => rfl
    | split
    | refine KeptP.of_eq (by with_reducible assumption) ?_
    | refine Kept.of_pair (by with_reducible assumption) ?_
    | (intro _; try dsimp only)

theorem State.streamDisable_kept {q : Q4} (s : State) (n : BitVec 14) (hk : Kept q s) : Kept q (State.streamDisable s n) := by
  unfold State.streamDisable
  try dsimp only
  repeat' first
    | with_reducible assumption
    | with_reducible apply Kept.ite
    | with_reducible apply State.setStream_kept
    | with_reducible apply State.unqueue_kept
    | with_reducible apply State.drained_kept
    | simp only [Kept.mk_iff]
    | with_reducible apply K5.of
    | with_reducible apply K5.step
    | with_reducible exact id
    | exact fun _ => rfl
    | split

theorem State.cachePut_kept {q : Q4} (s : State) (n : BitVec 14) (pos : BitVec 16) (l : Line) (hk : Kept q s) : Kept q (State.cachePut s n pos l) := by
  unfold State.cachePut
  try dsimp only
  repeat' first
    | with_reducible assumption
    | with_reducible apply Kept.ite
    | simp only [Kept.mk_iff]
    | with_reducible apply K5.of
    | with_reducible apply K5.step
    | with_reducible exact id
    | with_reducible exact Tbl.wf_filter
    | exact fun _ => rfl
    | split
    | (intro _; try dsimp only)

theorem State.ringRead_kept {q : Q4} (s : State) (n : BitVec 14) (from' : Nat) (units : Nat) (hk : Kept q s) : Kept q (State.ringRead s n from' units) := by
  unfold State.ringRead
  try dsimp only
  repeat' first
    | with_reducible assumption
    | with_reducible apply State.setStream_kept
    | with_reducible apply State.read_kept
    | with_reducible apply State.ring_kept
    | simp only [Kept.mk_iff]
    | with_reducible apply K5.of
    | with_reducible apply K5.step
    | with_reducible exact id
    | exact fun _ => rfl

theorem State.endFetch_kept {q : Q4} (s : State) (n : BitVec 14) (hk : Kept q s) : Kept q (State.endFetch s n) := by
  unfold State.endFetch
  try dsimp only
  repeat' first
    | with_reducible assumption
    | with_reducible apply State.updStream_kept
    | with_reducible apply State.freeChan_kept
    | simp only [Kept.mk_iff]
    | with_reducible apply K5.of
    | with_reducible apply K5.step
    | with_reducible exact id
    | exact fun _ => rfl
    | (intro _; try dsimp only)

theorem State.releaseEntry_kept {q : Q4} (s : State) (n : BitVec 14) (t : EType) (units : List Line) (hk : Kept q s) : Kept q (State.releaseEntry s n t units) := by
  unfold State.releaseEntry
  try dsimp only
  repeat' first
    | with_reducible assumption
    | with_reducible apply Kept.ite
    | with_reducible apply State.setStream_kept
    | with_reducible apply State.updStream_kept
    | with_reducible apply State.setEntry_kept
    | with_reducible apply State.progress_kept
    | with_reducible apply State.write_kept
    | with_reducible apply State.queueReady_kept
    | with_reducible apply State.freeChan_kept
    | with_reducible apply State.drained_kept
    | with_reducible apply State.enterLanding_kept
    | with_reducible apply State.stage6_kept
    | with_reducible apply State.release_kept
    | with_reducible apply State.enter4_kept
    | simp only [Kept.mk_iff]
    | with_reducible apply K5.of
    | with_reducible apply K5.step
    | with_reducible exact id
    | with_reducible exact Tbl.wf_filter
    | exact fun _ => rfl
    | split
    | refine KeptP.of_eq (by with_reducible assumption) ?_
    | refine Kept.of_pair (by with_reducible assumption) ?_
    | (intro _; try dsimp only)

theorem State.unitsIn_kept {q : Q4} (s : State) (n : BitVec 14) (t : EType) (units : List Line) (hk : Kept q s) : Kept q (State.unitsIn s n t units) := by
  unfold State.unitsIn
  try dsimp only
  repeat' first
    | with_reducible assumption
    | with_reducible apply Kept.ite
    | with_reducible apply State.updStream_kept
    | with_reducible apply State.freeChan_kept
    | with_reducible apply State.drained_kept
    | with_reducible apply State.streamFault_kept
    | with_reducible apply State.endFetch_kept
    | with_reducible apply State.releaseEntry_kept
    | simp only [Kept.mk_iff]
    | with_reducible apply K5.of
    | with_reducible apply K5.step
    | with_reducible exact id
    | exact fun _ => rfl
    | split
    | (intro _; try dsimp only)

theorem State.fetchGo_kept {q : Q4} (s : State) (n : BitVec 14) (hk : Kept q s) : Kept q (State.fetchGo s n) := by
  unfold State.fetchGo
  try dsimp only
  repeat' first
    | with_reducible assumption
    | with_reducible apply Kept.ite
    | with_reducible apply State.bump_kept
    | with_reducible apply State.setStream_kept
    | with_reducible apply State.updStream_kept
    | with_reducible apply State.freeChan_kept
    | with_reducible apply State.drained_kept
    | with_reducible apply State.streamFault_kept
    | with_reducible apply State.cachePut_kept
    | with_reducible apply State.ringRead_kept
    | with_reducible apply State.endFetch_kept
    | with_reducible apply State.unitsIn_kept
    | (with_reducible apply Kept.foldl <;> first | (intro _ _ _; try dsimp only) | skip)
    | (with_reducible apply Kept.foldl_fst <;> first | (intro _ _ _; try dsimp only) | skip)
    | (with_reducible apply Kept.foldl_snd <;> first | (intro _ _ _; try dsimp only) | skip)
    | simp only [Kept.mk_iff]
    | with_reducible apply K5.of
    | with_reducible apply K5.step
    | with_reducible exact id
    | exact fun _ => rfl
    | split
    | refine Kept.of_pair (by with_reducible assumption) ?_
    | (intro _; try dsimp only)

theorem State.takeHeader_kept {q : Q4} (s : State) (n : BitVec 14) (hk : Kept q s) : Kept q (State.takeHeader s n) := by
  unfold State.takeHeader
  try dsimp only
  repeat' first
    | with_reducible assumption
    | with_reducible apply Kept.ite
    | with_reducible apply State.setStream_kept
    | with_reducible apply State.updStream_kept
    | with_reducible apply State.ringRead_kept
    | with_reducible apply State.fetchGo_kept
    | simp only [Kept.mk_iff]
    | with_reducible apply K5.of
    | with_reducible apply K5.step
    | with_reducible exact id
    | with_reducible exact Tbl.wf_filter
    | exact fun _ => rfl
    | split
    | refine Kept.of_pair (by with_reducible assumption) ?_
    | (intro _; try dsimp only)

theorem State.setChan_kept {q : Q4} (s : State) (ch : BitVec 4) (n : BitVec 14) (hk : Kept q s) : Kept q (State.setChan s ch n) := by
  unfold State.setChan
  try dsimp only
  repeat' first
    | with_reducible assumption
    | simp only [Kept.mk_iff]
    | with_reducible apply K5.of
    | with_reducible apply K5.step
    | with_reducible exact id
    | exact Tbl.wf_set
    | exact fun _ => rfl
    | (intro _; try dsimp only)

theorem State.chanTake_kept {q : Q4} (s : State) (ch : BitVec 4) (hk : Kept q s) : Kept q (State.chanTake s ch) := by
  unfold State.chanTake
  try dsimp only
  repeat' first
    | with_reducible assumption
    | with_reducible apply Kept.ite
    | with_reducible apply State.updEntry_kept
    | with_reducible apply State.readLines_kept
    | with_reducible apply State.unqueue_kept
    | with_reducible apply State.takeHeader_kept
    | with_reducible apply State.setChan_kept
    | simp only [Kept.mk_iff]
    | with_reducible apply K5.of
    | with_reducible apply K5.step
    | with_reducible exact id
    | with_reducible exact Tbl.wf_filter
    | exact fun _ => rfl
    | split
    | refine KeptP.of_eq (by with_reducible assumption) ?_
    | refine Kept.of_pair (by with_reducible assumption) ?_
    | (intro _; try dsimp only)

theorem execChannelTakeStream_kept {q : Q4} (ch : BitVec 4) (s : State) (hk : Kept q s) : KeptO q (execChannelTakeStream ch s) := by
  unfold execChannelTakeStream
  try dsimp only
  repeat' first
    | with_reducible assumption
    | exact KeptO.fault
    | exact KeptO.refused
    | with_reducible apply KeptO.next
    | with_reducible apply KeptO.ite
    | with_reducible apply State.chanTake_kept
    | with_reducible apply Kept.ite
    | simp only [Kept.mk_iff]
    | with_reducible apply K5.of
    | with_reducible apply K5.step
    | with_reducible exact id
    | with_reducible exact Tbl.wf_filter
    | exact fun _ => rfl
    | split
    | (intro _; try dsimp only)

theorem State.sliceN_kept {q : Q4} (s : State) (ch : BitVec 4) (k : EKey) (hk : Kept q s) : ∀ n, Kept q (s.sliceN ch k n) := by
  intro n
  induction n generalizing s k with
  | zero => exact hk
  | succ n ih =>
    unfold State.sliceN
    dsimp only
    repeat' first
      | with_reducible assumption
      | with_reducible apply ih
      | with_reducible apply State.setEntry_kept
      | with_reducible apply State.emit_kept
      | with_reducible apply State.chanTake_kept
      | with_reducible apply State.ferryDone_kept
      | with_reducible apply State.updEntry_kept
      | split

theorem execFerrySlice_kept {q : Q4} (s : State) (hk : Kept q s) : KeptO q (execFerrySlice s) := by
  unfold execFerrySlice
  try dsimp only
  repeat' first
    | with_reducible assumption
    | exact KeptO.fault
    | exact KeptO.refused
    | with_reducible apply KeptO.next
    | with_reducible apply KeptO.ite
    | with_reducible apply State.bumpWrap_kept
    | with_reducible apply State.updEntry_kept
    | with_reducible apply State.settle_kept
    | with_reducible apply State.storeFull_kept
    | with_reducible apply State.sliceN_kept
    | simp only [Kept.mk_iff]
    | with_reducible apply K5.of
    | with_reducible apply K5.step
    | with_reducible exact id
    | with_reducible exact Tbl.wf_filter
    | exact fun _ => rfl
    | split
    | refine KeptP.of_eq (by with_reducible assumption) ?_
    | refine Kept.of_pair (by with_reducible assumption) ?_
    | (intro _; try dsimp only)

theorem execRingReadReturn_kept {q : Q4} (mtag : BitVec 8) (gen : BitVec 4) (err : Bool) (lines : List Line) (s : State) (hk : Kept q s) : KeptO q (execRingReadReturn mtag gen err lines s) := by
  unfold execRingReadReturn
  try dsimp only
  repeat' first
    | with_reducible assumption
    | exact KeptO.fault
    | with_reducible apply KeptO.next
    | with_reducible apply KeptO.ite
    | with_reducible apply Kept.ite
    | with_reducible apply State.setStream_kept
    | with_reducible apply State.answer_kept
    | with_reducible apply State.freeChan_kept
    | with_reducible apply State.streamFault_kept
    | with_reducible apply State.settle_kept
    | with_reducible apply State.ring_kept
    | with_reducible apply State.cachePut_kept
    | with_reducible apply State.fetchGo_kept
    | (with_reducible apply Kept.foldl <;> first | (intro _ _ _; try dsimp only) | skip)
    | (with_reducible apply Kept.foldl_fst <;> first | (intro _ _ _; try dsimp only) | skip)
    | (with_reducible apply Kept.foldl_snd <;> first | (intro _ _ _; try dsimp only) | skip)
    | simp only [Kept.mk_iff]
    | with_reducible apply K5.of
    | with_reducible apply K5.step
    | with_reducible exact id
    | exact fun _ => rfl
    | split
    | refine KeptP.of_eq (by with_reducible assumption) ?_
    | refine Kept.of_pair (by with_reducible assumption) ?_
    | (intro _; try dsimp only)

theorem State.aheadRead_kept {q : Q4} (s : State) (k : EKey) (a : Addr) (n : Nat) (hk : Kept q s) : Kept q (State.aheadRead s k a n) := by
  unfold State.aheadRead
  try dsimp only
  repeat' first
    | with_reducible assumption
    | with_reducible apply State.readLines_kept
    | with_reducible apply State.read_kept
    | simp only [Kept.mk_iff]
    | with_reducible apply K5.of
    | with_reducible apply K5.step
    | with_reducible exact id
    | with_reducible exact Tbl.wf_filter
    | exact fun _ => rfl
    | split
    | (intro _; try dsimp only)

theorem State.inputAhead_kept {q : Q4} (s : State) (n : BitVec 14) (h : Line) (hk : Kept q s) : Kept q (State.inputAhead s n h) := by
  unfold State.inputAhead
  try dsimp only
  repeat' first
    | with_reducible assumption
    | with_reducible apply Kept.ite
    | with_reducible apply State.aheadRead_kept
    | simp only [Kept.mk_iff]
    | with_reducible apply K5.of
    | with_reducible apply K5.step
    | with_reducible exact id
    | with_reducible exact Tbl.wf_filter
    | exact fun _ => rfl
    | split
    | refine KeptP.of_eq (by with_reducible assumption) ?_
    | refine Kept.of_pair (by with_reducible assumption) ?_
    | (intro _; try dsimp only)

theorem execPrefetch_kept {q : Q4} (stream : BitVec 14) (s : State) (hk : Kept q s) : KeptO q (execPrefetch stream s) := by
  unfold execPrefetch
  try dsimp only
  repeat' first
    | with_reducible assumption
    | exact KeptO.fault
    | exact KeptO.refused
    | with_reducible apply KeptO.next
    | with_reducible apply KeptO.ite
    | with_reducible apply Kept.ite
    | with_reducible apply State.read_kept
    | with_reducible apply State.ring_kept
    | with_reducible apply State.inputAhead_kept
    | simp only [Kept.mk_iff]
    | with_reducible apply K5.of
    | with_reducible apply K5.step
    | with_reducible exact id
    | with_reducible exact Tbl.wf_filter
    | exact fun _ => rfl
    | split
    | refine KeptP.of_eq (by with_reducible assumption) ?_
    | refine Kept.of_pair (by with_reducible assumption) ?_
    | (intro _; try dsimp only)

theorem State.land2Retry_kept {q : Q4} (s : State) (n : BitVec 14) (hk : Kept q s) : Kept q (State.land2Retry s n) := by
  unfold State.land2Retry
  try dsimp only
  repeat' first
    | with_reducible assumption
    | with_reducible apply State.land2_kept
    | with_reducible apply Kept.ite
    | (with_reducible apply Kept.foldl <;> first | (intro _ _ _; try dsimp only) | skip)
    | (with_reducible apply Kept.foldl_fst <;> first | (intro _ _ _; try dsimp only) | skip)
    | (with_reducible apply Kept.foldl_snd <;> first | (intro _ _ _; try dsimp only) | skip)
    | simp only [Kept.mk_iff]
    | with_reducible apply K5.of
    | with_reducible apply K5.step
    | with_reducible exact id
    | with_reducible exact Tbl.wf_filter
    | exact fun _ => rfl
    | split
    | (intro _; try dsimp only)

theorem execReleaseWriteAck_kept {q : Q4} (mtag : BitVec 8) (gen : BitVec 4) (err : Bool) (s : State) (hk : Kept q s) : KeptO q (execReleaseWriteAck mtag gen err s) := by
  unfold execReleaseWriteAck
  try dsimp only
  repeat' first
    | with_reducible assumption
    | with_reducible apply KeptO.next
    | with_reducible apply KeptO.ite
    | with_reducible apply Kept.ite
    | with_reducible apply State.updEntry_kept
    | with_reducible apply State.answer_kept
    | with_reducible apply State.freeChan_kept
    | with_reducible apply State.streamFault_kept
    | with_reducible apply State.release_kept
    | with_reducible apply State.settle_kept
    | with_reducible apply State.land2Retry_kept
    | simp only [Kept.mk_iff]
    | with_reducible apply K5.of
    | with_reducible apply K5.step
    | with_reducible exact id
    | exact fun _ => rfl
    | split
    | refine KeptP.of_eq (by with_reducible assumption) ?_
    | refine Kept.of_pair (by with_reducible assumption) ?_
    | (intro _; try dsimp only)

theorem execSignalEntryApply_kept {q : Q4} (stream : BitVec 14) (s : State) (hk : Kept q s) : KeptO q (execSignalEntryApply stream s) := by
  unfold execSignalEntryApply
  try dsimp only
  repeat' first
    | with_reducible assumption
    | with_reducible apply KeptO.next
    | with_reducible apply KeptO.ite
    | with_reducible apply Kept.ite
    | with_reducible apply State.setStream_kept
    | with_reducible apply State.updStream_kept
    | with_reducible apply State.setEntry_kept
    | with_reducible apply State.queueReady_kept
    | with_reducible apply State.offer_kept
    | with_reducible apply State.enterLanding_kept
    | simp only [Kept.mk_iff]
    | with_reducible apply K5.of
    | with_reducible apply K5.step
    | with_reducible exact id
    | exact fun _ => rfl
    | split
    | refine KeptP.of_eq (by with_reducible assumption) ?_
    | refine Kept.of_pair (by with_reducible assumption) ?_
    | (intro _; try dsimp only)

theorem execBarrierPass_kept {q : Q4} (stream : BitVec 14) (s : State) (hk : Kept q s) : KeptO q (execBarrierPass stream s) := by
  unfold execBarrierPass
  try dsimp only
  repeat' first
    | with_reducible assumption
    | with_reducible apply KeptO.next
    | with_reducible apply KeptO.ite
    | with_reducible apply Kept.ite
    | with_reducible apply State.headLeaves_kept
    | with_reducible apply State.enterLanding_kept
    | with_reducible apply State.stage_kept
    | simp only [Kept.mk_iff]
    | with_reducible apply K5.of
    | with_reducible apply K5.step
    | with_reducible exact id
    | exact fun _ => rfl
    | split
    | refine KeptP.of_eq (by with_reducible assumption) ?_
    | refine Kept.of_pair (by with_reducible assumption) ?_
    | (intro _; try dsimp only)

theorem execStreamTimeout_kept {q : Q4} (stream : BitVec 14) (s : State) (hk : Kept q s) : KeptO q (execStreamTimeout stream s) := by
  unfold execStreamTimeout
  try dsimp only
  repeat' first
    | with_reducible assumption
    | exact KeptO.fault
    | exact KeptO.refused
    | with_reducible apply KeptO.next
    | with_reducible apply KeptO.ite
    | with_reducible apply Kept.ite
    | with_reducible apply State.bump_kept
    | with_reducible apply State.raise_kept
    | with_reducible apply State.timerRestart_kept
    | with_reducible apply State.loseCtx_kept
    | with_reducible apply State.stage_kept
    | simp only [Kept.mk_iff]
    | with_reducible apply K5.of
    | with_reducible apply K5.step
    | with_reducible exact id
    | with_reducible exact Tbl.wf_filter
    | exact fun _ => rfl
    | split
    | refine KeptP.of_eq (by with_reducible assumption) ?_
    | refine Kept.of_pair (by with_reducible assumption) ?_
    | (intro _; try dsimp only)

end Sys2Proof.Machine
end

