-- ==== Sys2Proof/Laws/KeepsBack.lean ====
section
/-! SUPPORT. Every function of the Tide, reports, the Landing, the audit unit, Beacon and Reef keeps the queue, the RTL parameters and the canonical form of the stores (Laws/Kept.lean): one lemma per function. -/
set_option linter.all false
namespace Sys2Proof.Machine

/-! Functions of Machine/Tide.lean. -/

theorem State.hold7_kept {q : Q4} (s : State) (k : EKey) (e : Entry) (hk : Kept q s) : Kept q (State.hold7 s k e) := by
  unfold State.hold7
  try dsimp only
  repeat' first
    | with_reducible assumption
    | with_reducible apply Kept.ite
    | with_reducible apply State.updEntry_kept
    | with_reducible apply State.closeOpen_kept
    | simp only [Kept.mk_iff]
    | with_reducible apply K5.of
    | with_reducible apply K5.step
    | with_reducible exact id
    | exact fun _ => rfl
    | split
    | (intro _; try dsimp only)

theorem execEpochAdvance_kept {q : Q4} (stream : BitVec 14) (s : State) (hk : Kept q s) : KeptO q (execEpochAdvance stream s) := by
  unfold execEpochAdvance
  try dsimp only
  repeat' first
    | with_reducible assumption
    | with_reducible apply KeptO.next
    | with_reducible apply KeptO.ite
    | with_reducible apply Kept.ite
    | with_reducible apply State.setBit_kept
    | with_reducible apply State.updEntry_kept
    | with_reducible apply State.hold7_kept
    | simp only [Kept.mk_iff]
    | with_reducible apply K5.of
    | with_reducible apply K5.step
    | with_reducible exact id
    | exact fun _ => rfl
    | split
    | refine KeptP.of_eq (by with_reducible assumption) ?_
    | refine Kept.of_pair (by with_reducible assumption) ?_
    | (intro _; try dsimp only)

theorem State.refuseAdvance_kept {q : Q4} (s : State) (k : EKey) (p : BitVec 4) (hk : Kept q s) : Kept q (State.refuseAdvance s k p) := by
  unfold State.refuseAdvance
  try dsimp only
  repeat' first
    | with_reducible assumption
    | with_reducible apply State.setBit_kept
    | with_reducible apply State.bump_kept
    | with_reducible apply State.setErr_kept
    | with_reducible apply State.updEntry_kept
    | with_reducible apply State.raise_kept
    | with_reducible apply State.headLeaves_kept
    | with_reducible apply State.enterLanding_kept
    | simp only [Kept.mk_iff]
    | with_reducible apply K5.of
    | with_reducible apply K5.step
    | with_reducible exact id
    | exact fun _ => rfl
    | (intro _; try dsimp only)

theorem State.commitAdvance_kept {q : Q4} (s : State) (k : EKey) (e : Entry) (p : BitVec 4) (hk : Kept q s) : Kept q (State.commitAdvance s k e p) := by
  unfold State.commitAdvance
  try dsimp only
  repeat' first
    | with_reducible assumption
    | with_reducible apply Kept.ite
    | with_reducible apply State.wr_kept
    | with_reducible apply State.setBit_kept
    | with_reducible apply State.bump_kept
    | with_reducible apply State.wr64_kept
    | with_reducible apply State.updEntry_kept
    | with_reducible apply State.headLeaves_kept
    | with_reducible apply State.enterLanding_kept
    | with_reducible apply State.settle_kept
    | simp only [Kept.mk_iff]
    | with_reducible apply K5.of
    | with_reducible apply K5.step
    | with_reducible exact id
    | exact fun _ => rfl
    | split
    | (intro _; try dsimp only)

theorem execEpochCommit_kept {q : Q4} (p : BitVec 4) (s : State) (hk : Kept q s) : KeptO q (execEpochCommit p s) := by
  unfold execEpochCommit
  try dsimp only
  repeat' first
    | with_reducible assumption
    | with_reducible apply KeptO.next
    | with_reducible apply KeptO.ite
    | with_reducible apply Kept.ite
    | with_reducible apply State.settle_kept
    | with_reducible apply State.refuseAdvance_kept
    | with_reducible apply State.commitAdvance_kept
    | simp only [Kept.mk_iff]
    | with_reducible apply K5.of
    | with_reducible apply K5.step
    | with_reducible exact id
    | exact fun _ => rfl
    | split
    | refine KeptP.of_eq (by with_reducible assumption) ?_
    | refine Kept.of_pair (by with_reducible assumption) ?_
    | (intro _; try dsimp only)

theorem execModelSwitch_kept {q : Q4} (stream : BitVec 14) (s : State) (hk : Kept q s) : KeptO q (execModelSwitch stream s) := by
  unfold execModelSwitch
  try dsimp only
  repeat' first
    | with_reducible assumption
    | exact KeptO.fault
    | exact KeptO.refused
    | with_reducible apply KeptO.next
    | with_reducible apply KeptO.ite
    | with_reducible apply Kept.ite
    | with_reducible apply State.setF_kept
    | with_reducible apply State.updEntry_kept
    | with_reducible apply State.unplace_kept
    | with_reducible apply State.backTo8_kept
    | with_reducible apply State.stage_kept
    | with_reducible apply State.hold7_kept
    | (with_reducible apply Kept.foldl <;> first | (intro _ _ _; try dsimp only) | skip)
    | (with_reducible apply Kept.foldl_fst <;> first | (intro _ _ _; try dsimp only) | skip)
    | (with_reducible apply Kept.foldl_snd <;> first | (intro _ _ _; try dsimp only) | skip)
    | simp only [Kept.mk_iff]
    | with_reducible apply K5.of
    | with_reducible apply K5.step
    | with_reducible exact id
    | with_reducible exact Tbl.wf_filter
    | exact fun _ => rfl
    | split
    | refine KeptP.of_eq (by with_reducible assumption) ?_
    | refine Kept.of_pair (by with_reducible assumption) ?_
    | (intro _; try dsimp only)

theorem execModelSwitchDrained_kept {q : Q4} (p : BitVec 4) (s : State) (hk : Kept q s) : KeptO q (execModelSwitchDrained p s) := by
  unfold execModelSwitchDrained
  try dsimp only
  repeat' first
    | with_reducible assumption
    | with_reducible apply KeptO.next
    | with_reducible apply KeptO.ite
    | with_reducible apply Kept.ite
    | with_reducible apply State.setF_kept
    | with_reducible apply State.closeOpen_kept
    | with_reducible apply State.stage_kept
    | split
    | (intro _; try dsimp only)

theorem execModelSwitchComplete_kept {q : Q4} (p : BitVec 4) (s : State) (hk : Kept q s) : KeptO q (execModelSwitchComplete p s) := by
  unfold execModelSwitchComplete
  try dsimp only
  repeat' first
    | with_reducible assumption
    | with_reducible apply KeptO.next
    | with_reducible apply KeptO.ite
    | with_reducible apply Kept.ite
    | with_reducible apply State.wr_kept
    | with_reducible apply State.setF_kept
    | with_reducible apply State.headLeaves_kept
    | with_reducible apply State.enterLanding_kept
    | with_reducible apply State.modelForget_kept
    | with_reducible apply State.settle_kept
    | simp only [Kept.mk_iff]
    | with_reducible apply K5.of
    | with_reducible apply K5.step
    | with_reducible exact id
    | exact fun _ => rfl
    | split
    | refine KeptP.of_eq (by with_reducible assumption) ?_
    | refine Kept.of_pair (by with_reducible assumption) ?_
    | (intro _; try dsimp only)

/-! Functions of Machine/Report.lean. -/

theorem State.credit_kept {q : Q4} (s : State) (g : Nat) (hk : Kept q s) : Kept q (State.credit s g) := by
  unfold State.credit
  try dsimp only
  repeat' first
    | with_reducible assumption
    | with_reducible apply Kept.ite
    | with_reducible apply State.sendDown_kept
    | simp only [Kept.mk_iff]
    | with_reducible apply K5.of
    | with_reducible apply K5.step
    | with_reducible exact id
    | exact Tbl.wf_set
    | with_reducible exact Tbl.wf_filter
    | exact fun _ => rfl
    | split
    | (intro _; try dsimp only)

theorem State.setFifo_kept {q : Q4} (s : State) (g : Nat) (l : List (Report × Nat)) (hk : Kept q s) : Kept q (State.setFifo s g l) := by
  unfold State.setFifo
  try dsimp only
  repeat' first
    | with_reducible assumption
    | simp only [Kept.mk_iff]
    | with_reducible apply K5.of
    | with_reducible apply K5.step
    | with_reducible exact id
    | exact Tbl.wf_set
    | exact fun _ => rfl
    | (intro _; try dsimp only)

theorem State.noteShown_kept {q : Q4} (s : State) (g : Nat) (shown : List Report) (hk : Kept q s) : Kept q (State.noteShown s g shown) := by
  unfold State.noteShown
  try dsimp only
  repeat' first
    | with_reducible assumption
    | with_reducible apply Kept.ite
    | (with_reducible apply Kept.foldl <;> first | (intro _ _ _; try dsimp only) | skip)
    | (with_reducible apply Kept.foldl_fst <;> first | (intro _ _ _; try dsimp only) | skip)
    | (with_reducible apply Kept.foldl_snd <;> first | (intro _ _ _; try dsimp only) | skip)
    | simp only [Kept.mk_iff]
    | with_reducible apply K5.of
    | with_reducible apply K5.step
    | with_reducible exact id
    | exact Tbl.wf_set
    | with_reducible exact Tbl.wf_filter
    | exact fun _ => rfl
    | split
    | (intro _; try dsimp only)

theorem State.shownAt_kept {q : Q4} (s : State) (n : Nat) (hk : Kept q s) : Kept q (State.shownAt s n).1 := by
  unfold State.shownAt
  try dsimp only
  repeat' first
    | with_reducible assumption
    | simp only [Kept.mk_iff]
    | with_reducible apply K5.of
    | with_reducible apply K5.step
    | with_reducible exact id
    | exact Tbl.wf_set
    | with_reducible exact Tbl.wf_filter
    | exact fun _ => rfl
    | split
    | (intro _; try dsimp only)

theorem execReportAccept_kept {q : Q4} (group : BitVec 3) (shown : List Report) (s : State) (hk : Kept q s) : KeptO q (execReportAccept group shown s) := by
  unfold execReportAccept
  try dsimp only
  repeat' first
    | with_reducible assumption
    | exact KeptO.fault
    | exact KeptO.refused
    | with_reducible apply KeptO.next
    | with_reducible apply KeptO.ite
    | with_reducible apply Kept.ite
    | with_reducible apply State.idleExit_kept
    | with_reducible apply State.credit_kept
    | with_reducible apply State.setFifo_kept
    | with_reducible apply State.noteShown_kept
    | with_reducible apply State.shownAt_kept
    | simp only [Kept.mk_iff]
    | with_reducible apply K5.of
    | with_reducible apply K5.step
    | with_reducible exact id
    | exact Tbl.wf_set
    | with_reducible exact Tbl.wf_filter
    | exact fun _ => rfl
    | split
    | refine KeptP.of_eq (by with_reducible assumption) ?_
    | refine Kept.of_pair (by with_reducible assumption) ?_
    | (intro _; try dsimp only)

theorem State.dropCmd_kept {q : Q4} (s : State) (c : Cmd) (hk : Kept q s) : Kept q (State.dropCmd s c) := by
  unfold State.dropCmd
  try dsimp only
  repeat' first
    | with_reducible assumption
    | simp only [Kept.mk_iff]
    | with_reducible apply K5.of
    | with_reducible apply K5.step
    | with_reducible exact id
    | with_reducible exact Tbl.wf_filter
    | exact fun _ => rfl

theorem State.scaleTake_kept {q : Q4} (s : State) (r : Report) (hk : Kept q s) : Kept q (State.scaleTake s r) := by
  unfold State.scaleTake
  try dsimp only
  repeat' first
    | with_reducible assumption
    | with_reducible apply Kept.ite
    | with_reducible apply State.scaleReport_kept
    | simp only [Kept.mk_iff]
    | with_reducible apply K5.of
    | with_reducible apply K5.step
    | with_reducible exact id
    | exact fun _ => rfl
    | split
    | refine KeptP.of_eq (by with_reducible assumption) ?_
    | refine Kept.of_pair (by with_reducible assumption) ?_
    | (intro _; try dsimp only)

theorem State.portEvent_kept {q : Q4} (s : State) (n : Nat) (kind : Nat) (sev : Nat) (k : Option (EKey × Entry)) (hk : Kept q s) : Kept q (State.portEvent s n kind sev k) := by
  unfold State.portEvent
  try dsimp only
  repeat' first
    | with_reducible assumption
    | with_reducible apply State.raise_kept
    | simp only [Kept.mk_iff]
    | with_reducible apply K5.of
    | with_reducible apply K5.step
    | with_reducible exact id
    | with_reducible exact Tbl.wf_filter
    | exact fun _ => rfl
    | split
    | refine KeptP.of_eq (by with_reducible assumption) ?_
    | refine Kept.of_pair (by with_reducible assumption) ?_
    | (intro _; try dsimp only)

theorem State.addBusy_kept {q : Q4} (s : State) (e : Entry) (port : Nat) (busy : Word) (hk : Kept q s) : Kept q (State.addBusy s e port busy) := by
  unfold State.addBusy
  try dsimp only
  repeat' first
    | with_reducible assumption
    | with_reducible apply State.setSlot_kept
    | simp only [Kept.mk_iff]
    | with_reducible apply K5.of
    | with_reducible apply K5.step
    | with_reducible exact id
    | exact fun _ => rfl
    | split
    | refine KeptP.of_eq (by with_reducible assumption) ?_
    | refine Kept.of_pair (by with_reducible assumption) ?_
    | (intro _; try dsimp only)

theorem State.digestTake_kept {q : Q4} (s : State) (k : EKey) (i : Nat) (r : Report) (counts : Bool) (hk : Kept q s) : Kept q (State.digestTake s k i r counts) := by
  unfold State.digestTake
  try dsimp only
  repeat' first
    | with_reducible assumption
    | with_reducible apply Kept.ite
    | with_reducible apply State.updEntry_kept
    | with_reducible apply State.dlogWrite_kept
    | simp only [Kept.mk_iff]
    | with_reducible apply K5.of
    | with_reducible apply K5.step
    | with_reducible exact id
    | exact fun _ => rfl
    | split
    | refine KeptP.of_eq (by with_reducible assumption) ?_
    | refine Kept.of_pair (by with_reducible assumption) ?_
    | (intro _; try dsimp only)

theorem State.retry_kept {q : Q4} (s : State) (c : Cmd) (k : EKey) (e : Entry) (i : Nat) (hk : Kept q s) : Kept q (State.retry s c k e i) := by
  unfold State.retry
  try dsimp only
  repeat' first
    | with_reducible assumption
    | with_reducible apply Kept.ite
    | with_reducible apply State.bump_kept
    | with_reducible apply State.updEntry_kept
    | with_reducible apply State.raise_kept
    | with_reducible apply State.done_kept
    | with_reducible apply State.opError_kept
    | with_reducible apply State.skipOp_kept
    | with_reducible apply State.promote_kept
    | with_reducible apply State.opOver_kept
    | with_reducible apply State.portEvent_kept
    | simp only [Kept.mk_iff]
    | with_reducible apply K5.of
    | with_reducible apply K5.step
    | with_reducible exact id
    | with_reducible exact Tbl.wf_filter
    | exact fun _ => rfl
    | split
    | refine KeptP.of_eq (by with_reducible assumption) ?_
    | refine Kept.of_pair (by with_reducible assumption) ?_
    | (intro _; try dsimp only)

theorem State.opReport_kept {q : Q4} (s : State) (r : Report) (c : Cmd) (k : EKey) (e : Entry) (i : Nat) (hk : Kept q s) : Kept q (State.opReport s r c k e i) := by
  unfold State.opReport
  try dsimp only
  repeat' first
    | with_reducible assumption
    | with_reducible apply Kept.ite
    | with_reducible apply State.bump_kept
    | with_reducible apply State.updEntry_kept
    | with_reducible apply State.done_kept
    | with_reducible apply State.opError_kept
    | with_reducible apply State.opOver_kept
    | with_reducible apply State.portEvent_kept
    | with_reducible apply State.addBusy_kept
    | with_reducible apply State.digestTake_kept
    | with_reducible apply State.retry_kept
    | simp only [Kept.mk_iff]
    | with_reducible apply K5.of
    | with_reducible apply K5.step
    | with_reducible exact id
    | with_reducible exact Tbl.wf_filter
    | exact fun _ => rfl
    | split
    | refine KeptP.of_eq (by with_reducible assumption) ?_
    | refine Kept.of_pair (by with_reducible assumption) ?_
    | (intro _; try dsimp only)

theorem State.retryBreak_kept {q : Q4} (s : State) (r : Report) (hk : Kept q s) : Kept q (State.retryBreak s r) := by
  unfold State.retryBreak
  try dsimp only
  repeat' first
    | with_reducible assumption
    | with_reducible apply Kept.ite
    | with_reducible apply State.timingBreak_kept
    | simp only [Kept.mk_iff]
    | with_reducible apply K5.of
    | with_reducible apply K5.step
    | with_reducible exact id
    | with_reducible exact Tbl.wf_filter
    | exact fun _ => rfl
    | split
    | refine KeptP.of_eq (by with_reducible assumption) ?_
    | refine Kept.of_pair (by with_reducible assumption) ?_
    | (intro _; try dsimp only)

theorem State.mergeOne_kept {q : Q4} (s : State) (r : Report) (hk : Kept q s) : Kept q (State.mergeOne s r) := by
  unfold State.mergeOne
  try dsimp only
  repeat' first
    | with_reducible assumption
    | with_reducible apply Kept.ite
    | with_reducible apply State.bump_kept
    | with_reducible apply State.wr64_kept
    | with_reducible apply State.setErr_kept
    | with_reducible apply State.traceRec_kept
    | with_reducible apply State.progress_kept
    | with_reducible apply State.gatherDone_kept
    | with_reducible apply State.dropCmd_kept
    | with_reducible apply State.portEvent_kept
    | with_reducible apply State.opReport_kept
    | with_reducible apply State.retryBreak_kept
    | simp only [Kept.mk_iff]
    | with_reducible apply K5.of
    | with_reducible apply K5.step
    | with_reducible exact id
    | with_reducible exact Tbl.wf_filter
    | exact fun _ => rfl
    | split
    | refine KeptP.of_eq (by with_reducible assumption) ?_
    | refine Kept.of_pair (by with_reducible assumption) ?_
    | (intro _; try dsimp only)

theorem State.mergeTake_kept {q : Q4} (s : State) (m : Nat) (hk : Kept q s) : Kept q (s.mergeTake m).1 := by
  induction m generalizing s with
  | zero => exact hk
  | succ m ih =>
    unfold State.mergeTake
    split
    · exact hk
    · split
      · exact hk
      · refine ih _ ?_
        simp only [Kept.mk_iff]
        exact K5.of (State.setFifo_kept _ _ _ hk)

theorem execReportMerge_kept {q : Q4} (s : State) (hk : Kept q s) : KeptO q (execReportMerge s) := by
  unfold execReportMerge
  split
  · exact .next hk
  · refine .next (State.settle_kept _ (Kept.foldl (fun s a h => State.mergeOne_kept _ _ h) ?_))
    refine Kept.foldl (fun s a h => State.scaleTake_kept _ _ h) ?_
    exact Kept.foldl (fun s a h => State.maxF_kept _ _ _ _ _ h) (State.mergeTake_kept _ _ hk)

theorem State.failCmds_kept {q : Q4} (s : State) (n : Nat) (code : BitVec 8) (hk : Kept q s) : Kept q (State.failCmds s n code) := by
  unfold State.failCmds
  try dsimp only
  repeat' first
    | with_reducible assumption
    | with_reducible apply Kept.ite
    | with_reducible apply State.done_kept
    | with_reducible apply State.opError_kept
    | with_reducible apply State.opOver_kept
    | with_reducible apply State.gatherDone_kept
    | (with_reducible apply Kept.foldl <;> first | (intro _ _ _; try dsimp only) | skip)
    | simp only [Kept.mk_iff]
    | with_reducible apply K5.of
    | with_reducible apply K5.step
    | with_reducible exact id
    | with_reducible exact Tbl.wf_filter
    | exact fun _ => rfl
    | split
    | refine KeptP.of_eq (by with_reducible assumption) ?_
    | refine Kept.of_pair (by with_reducible assumption) ?_
    | (intro _; try dsimp only)

theorem State.cancelDefer_kept {q : Q4} (s : State) (n : Nat) (hk : Kept q s) : Kept q (State.cancelDefer s n) := by
  unfold State.cancelDefer
  try dsimp only
  repeat' first
    | with_reducible assumption
    | with_reducible apply Kept.ite
    | with_reducible apply State.setF_kept
    | with_reducible apply State.setPort_kept
    | simp only [Kept.mk_iff]
    | with_reducible apply K5.of
    | with_reducible apply K5.step
    | with_reducible exact id
    | exact fun _ => rfl
    | split

theorem State.engDefer_kept {q : Q4} (s : State) (p : BitVec 4) (hk : Kept q s) : Kept q (State.engDefer s p) := by
  unfold State.engDefer
  try dsimp only
  repeat' first
    | with_reducible assumption
    | with_reducible apply State.setBit_kept
    | (intro _; try dsimp only)

theorem State.notResponding_kept {q : Q4} (s : State) (n : Nat) (code : Nat) (hk : Kept q s) : Kept q (State.notResponding s n code) := by
  unfold State.notResponding
  try dsimp only
  repeat' first
    | with_reducible assumption
    | with_reducible apply State.setPort_kept
    | with_reducible apply State.raise_kept
    | with_reducible apply State.ctxFault_kept
    | with_reducible apply State.resetDown_kept
    | with_reducible apply State.settle_kept
    | with_reducible apply State.failCmds_kept
    | with_reducible apply State.cancelDefer_kept
    | with_reducible apply State.engDefer_kept
    | simp only [Kept.mk_iff]
    | with_reducible apply K5.of
    | with_reducible apply K5.step
    | with_reducible exact id
    | with_reducible exact Tbl.wf_filter
    | exact fun _ => rfl
    | split
    | refine KeptP.of_eq (by with_reducible assumption) ?_
    | refine Kept.of_pair (by with_reducible assumption) ?_
    | (intro _; try dsimp only)

theorem execEngineHang_kept {q : Q4} (port : BitVec 7) (s : State) (hk : Kept q s) : KeptO q (execEngineHang port s) := by
  unfold execEngineHang
  try dsimp only
  repeat' first
    | with_reducible assumption
    | with_reducible apply KeptO.next
    | with_reducible apply KeptO.ite
    | with_reducible apply Kept.ite
    | with_reducible apply State.notResponding_kept
    | simp only [Kept.mk_iff]
    | with_reducible apply K5.of
    | with_reducible apply K5.step
    | with_reducible exact id
    | exact fun _ => rfl
    | split
    | refine KeptP.of_eq (by with_reducible assumption) ?_
    | refine Kept.of_pair (by with_reducible assumption) ?_
    | (intro _; try dsimp only)

/-! Functions of Machine/Landing.lean. -/

theorem State.auditKick_kept {q : Q4} (s : State) (hk : Kept q s) : Kept q (State.auditKick s) := by
  unfold State.auditKick
  try dsimp only
  repeat' first
    | with_reducible assumption
    | with_reducible apply State.auditReads_kept
    | (with_reducible apply Kept.foldl <;> first | (intro _ _ _; try dsimp only) | skip)
    | simp only [Kept.mk_iff]
    | with_reducible apply K5.of
    | with_reducible apply K5.step
    | with_reducible exact id
    | exact fun _ => rfl
    | split
    | refine KeptP.of_eq (by with_reducible assumption) ?_
    | refine Kept.of_pair (by with_reducible assumption) ?_
    | (intro _; try dsimp only)

theorem State.fevRetry_kept {q : Q4} (s : State) (hk : Kept q s) : Kept q (State.fevRetry s) := by
  unfold State.fevRetry
  try dsimp only
  repeat' first
    | with_reducible assumption
    | with_reducible apply State.fevMiss_kept
    | (with_reducible apply Kept.foldl <;> first | (intro _ _ _; try dsimp only) | skip)
    | (with_reducible apply Kept.foldl_fst <;> first | (intro _ _ _; try dsimp only) | skip)
    | (with_reducible apply Kept.foldl_snd <;> first | (intro _ _ _; try dsimp only) | skip)
    | simp only [Kept.mk_iff]
    | with_reducible apply K5.of
    | with_reducible apply K5.step
    | with_reducible exact id
    | with_reducible exact Tbl.wf_filter
    | exact fun _ => rfl
    | split
    | refine KeptP.of_eq (by with_reducible assumption) ?_
    | refine Kept.of_pair (by with_reducible assumption) ?_
    | (intro _; try dsimp only)

theorem State.fevEnd_kept {q : Q4} (s : State) (err : BitVec 4) (hk : Kept q s) : Kept q (State.fevEnd s err) := by
  unfold State.fevEnd
  try dsimp only
  repeat' first
    | with_reducible assumption
    | with_reducible apply State.setF_kept
    | with_reducible apply State.setBit_kept
    | simp only [Kept.mk_iff]
    | with_reducible apply K5.of
    | with_reducible apply K5.step
    | with_reducible exact id
    | exact fun _ => rfl

theorem State.refreshTry_kept {q : Q4} (s : State) (hk : Kept q s) : Kept q (State.refreshTry s) := by
  unfold State.refreshTry
  try dsimp only
  repeat' first
    | with_reducible assumption
    | with_reducible apply Kept.ite
    | with_reducible apply State.read_kept
    | with_reducible apply State.fevMiss_kept
    | simp only [Kept.mk_iff]
    | with_reducible apply K5.of
    | with_reducible apply K5.step
    | with_reducible exact id
    | with_reducible exact Tbl.wf_filter
    | exact fun _ => rfl
    | split
    | refine KeptP.of_eq (by with_reducible assumption) ?_
    | refine Kept.of_pair (by with_reducible assumption) ?_
    | (intro _; try dsimp only)

theorem State.flushTry_kept {q : Q4} (s : State) (hk : Kept q s) : Kept q (State.flushTry s) := by
  unfold State.flushTry
  try dsimp only
  repeat' first
    | with_reducible assumption
    | with_reducible apply Kept.ite
    | with_reducible apply State.fevEnd_kept
    | simp only [Kept.mk_iff]
    | with_reducible apply K5.of
    | with_reducible apply K5.step
    | with_reducible exact id
    | exact fun _ => rfl
    | split
    | refine KeptP.of_eq (by with_reducible assumption) ?_
    | refine Kept.of_pair (by with_reducible assumption) ?_
    | (intro _; try dsimp only)

theorem State.landAgain_kept {q : Q4} (s : State) (hk : Kept q s) : Kept q (State.landAgain s) := by
  unfold State.landAgain
  repeat' first
    | with_reducible assumption
    | with_reducible apply State.settle_kept
    | with_reducible apply State.fevRetry_kept
    | with_reducible apply State.refreshTry_kept

theorem execLaunchComplete_kept {q : Q4} (stream : BitVec 14) (seq : BitVec 64) (s : State) (hk : Kept q s) : KeptO q (execLaunchComplete stream seq s) := by
  unfold execLaunchComplete
  try dsimp only
  repeat' first
    | with_reducible assumption
    | exact KeptO.fault
    | exact KeptO.refused
    | with_reducible apply KeptO.next
    | with_reducible apply KeptO.ite
    | with_reducible apply Kept.ite
    | with_reducible apply State.setBit_kept
    | with_reducible apply State.traceRec_kept
    | with_reducible apply State.landIn_kept
    | with_reducible apply State.stage_kept
    | with_reducible apply State.settle_kept
    | with_reducible apply State.auditKick_kept
    | simp only [Kept.mk_iff]
    | with_reducible apply K5.of
    | with_reducible apply K5.step
    | with_reducible exact id
    | with_reducible exact Tbl.wf_filter
    | exact fun _ => rfl
    | split
    | refine KeptP.of_eq (by with_reducible assumption) ?_
    | refine Kept.of_pair (by with_reducible assumption) ?_
    | (intro _; try dsimp only)

theorem State.insLeave_kept {q : Q4} (s : State) (k : EKey) (hk : Kept q s) : Kept q (State.insLeave s k) := by
  unfold State.insLeave
  try dsimp only
  repeat' first
    | with_reducible assumption
    | simp only [Kept.mk_iff]
    | with_reducible apply K5.of
    | with_reducible apply K5.step
    | with_reducible exact id
    | with_reducible exact Tbl.wf_filter
    | exact fun _ => rfl
    | split
    | (intro _; try dsimp only)

theorem State.hashLeaves_kept {q : Q4} (s : State) (k : EKey) (hk : Kept q s) : Kept q (State.hashLeaves s k) := by
  unfold State.hashLeaves
  try dsimp only
  repeat' first
    | with_reducible assumption
    | simp only [Kept.mk_iff]
    | with_reducible apply K5.of
    | with_reducible apply K5.step
    | with_reducible exact id
    | with_reducible exact Tbl.wf_filter
    | exact fun _ => rfl
    | split
    | (intro _; try dsimp only)

theorem State.auditWrite_kept {q : Q4} (s : State) (k : EKey) (e : Entry) (x : AudIn) (hk : Kept q s) : Kept q (State.auditWrite s k e x) := by
  unfold State.auditWrite
  try dsimp only
  repeat' first
    | with_reducible assumption
    | with_reducible apply Kept.ite
    | with_reducible apply State.wr_kept
    | with_reducible apply State.bump_kept
    | with_reducible apply State.bumpF_kept
    | with_reducible apply State.setErr_kept
    | with_reducible apply State.updEntry_kept
    | with_reducible apply State.write_kept
    | with_reducible apply State.land1b_kept
    | with_reducible apply State.settle_kept
    | with_reducible apply State.insLeave_kept
    | (with_reducible apply Kept.foldl <;> first | (intro _ _ _; try dsimp only) | skip)
    | (with_reducible apply Kept.foldl_fst <;> first | (intro _ _ _; try dsimp only) | skip)
    | (with_reducible apply Kept.foldl_snd <;> first | (intro _ _ _; try dsimp only) | skip)
    | simp only [Kept.mk_iff]
    | with_reducible apply K5.of
    | with_reducible apply K5.step
    | with_reducible exact id
    | with_reducible exact Tbl.wf_filter
    | exact fun _ => rfl
    | split
    | refine KeptP.of_eq (by with_reducible assumption) ?_
    | refine Kept.of_pair (by with_reducible assumption) ?_
    | (intro _; try dsimp only)

theorem State.auditGo_kept {q : Q4} (s : State) (k : EKey) (hk : Kept q s) : Kept q (State.auditGo s k) := by
  unfold State.auditGo
  try dsimp only
  repeat' first
    | with_reducible assumption
    | with_reducible apply Kept.ite
    | with_reducible apply State.auditWrite_kept
    | simp only [Kept.mk_iff]
    | with_reducible apply K5.of
    | with_reducible apply K5.step
    | with_reducible exact id
    | with_reducible exact Tbl.wf_filter
    | exact fun _ => rfl
    | split
    | refine KeptP.of_eq (by with_reducible assumption) ?_
    | refine Kept.of_pair (by with_reducible assumption) ?_
    | (intro _; try dsimp only)

theorem State.auditResume_kept {q : Q4} (s : State) (hk : Kept q s) : Kept q (State.auditResume s) := by
  unfold State.auditResume
  try dsimp only
  repeat' first
    | with_reducible assumption
    | with_reducible apply State.auditGo_kept
    | (with_reducible apply Kept.foldl <;> first | (intro _ _ _; try dsimp only) | skip)
    | (with_reducible apply Kept.foldl_fst <;> first | (intro _ _ _; try dsimp only) | skip)
    | (with_reducible apply Kept.foldl_snd <;> first | (intro _ _ _; try dsimp only) | skip)
    | simp only [Kept.mk_iff]
    | with_reducible apply K5.of
    | with_reducible apply K5.step
    | with_reducible exact id
    | with_reducible exact Tbl.wf_filter
    | exact fun _ => rfl
    | split
    | (intro _; try dsimp only)

theorem execAuditDigestDone_kept {q : Q4} (s : State) (hk : Kept q s) : KeptO q (execAuditDigestDone s) := by
  unfold execAuditDigestDone
  try dsimp only
  repeat' first
    | with_reducible assumption
    | exact KeptO.fault
    | exact KeptO.refused
    | with_reducible apply KeptO.next
    | with_reducible apply KeptO.ite
    | with_reducible apply Kept.ite
    | with_reducible apply State.updEntry_kept
    | with_reducible apply State.auditKick_kept
    | with_reducible apply State.hashLeaves_kept
    | with_reducible apply State.auditGo_kept
    | simp only [Kept.mk_iff]
    | with_reducible apply K5.of
    | with_reducible apply K5.step
    | with_reducible exact id
    | with_reducible exact Tbl.wf_filter
    | exact fun _ => rfl
    | split
    | refine KeptP.of_eq (by with_reducible assumption) ?_
    | refine Kept.of_pair (by with_reducible assumption) ?_
    | (intro _; try dsimp only)

theorem State.fevResume_kept {q : Q4} (s : State) (f : BitVec 12) (hk : Kept q s) : Kept q (State.fevResume s f) := by
  unfold State.fevResume
  try dsimp only
  repeat' first
    | with_reducible assumption
    | with_reducible apply Kept.ite
    | with_reducible apply State.land3Go_kept
    | with_reducible apply State.land2_kept
    | with_reducible apply State.land1_kept
    | (with_reducible apply Kept.foldl <;> first | (intro _ _ _; try dsimp only) | skip)
    | (with_reducible apply Kept.foldl_fst <;> first | (intro _ _ _; try dsimp only) | skip)
    | (with_reducible apply Kept.foldl_snd <;> first | (intro _ _ _; try dsimp only) | skip)
    | simp only [Kept.mk_iff]
    | with_reducible apply K5.of
    | with_reducible apply K5.step
    | with_reducible exact id
    | with_reducible exact Tbl.wf_filter
    | exact fun _ => rfl
    | split
    | refine KeptP.of_eq (by with_reducible assumption) ?_
    | refine Kept.of_pair (by with_reducible assumption) ?_
    | (intro _; try dsimp only)

theorem State.noteUsed_kept {q : Q4} (s : State) (f : BitVec 12) (l : Line) (again : Bool) (hk : Kept q s) : Kept q (State.noteUsed s f l again) := by
  unfold State.noteUsed
  try dsimp only
  repeat' first
    | with_reducible assumption
    | with_reducible apply Kept.ite
    | with_reducible apply State.used_kept
    | simp only [Kept.mk_iff]
    | with_reducible apply K5.of
    | with_reducible apply K5.step
    | with_reducible exact id
    | exact Tbl.wf_set
    | with_reducible exact Tbl.wf_filter
    | exact fun _ => rfl
    | split
    | refine KeptP.of_eq (by with_reducible assumption) ?_
    | refine Kept.of_pair (by with_reducible assumption) ?_
    | (intro _; try dsimp only)

theorem State.fevFill_kept {q : Q4} (s : State) (f : BitVec 12) (lines : List Line) (hk : Kept q s) : Kept q (State.fevFill s f lines) := by
  unfold State.fevFill
  try dsimp only
  repeat' first
    | with_reducible assumption
    | with_reducible apply State.updFev_kept
    | with_reducible apply State.faultVec_kept
    | with_reducible apply State.fevResume_kept
    | with_reducible apply State.noteUsed_kept
    | (with_reducible apply Kept.foldl <;> first | (intro _ _ _; try dsimp only) | skip)
    | (with_reducible apply Kept.foldl_fst <;> first | (intro _ _ _; try dsimp only) | skip)
    | (with_reducible apply Kept.foldl_snd <;> first | (intro _ _ _; try dsimp only) | skip)
    | simp only [Kept.mk_iff]
    | with_reducible apply K5.of
    | with_reducible apply K5.step
    | with_reducible exact id
    | with_reducible exact Tbl.wf_filter
    | exact fun _ => rfl
    | split
    | (intro _; try dsimp only)

theorem State.fevErr_kept {q : Q4} (s : State) (f : BitVec 12) (hk : Kept q s) : Kept q (State.fevErr s f) := by
  unfold State.fevErr
  try dsimp only
  repeat' first
    | with_reducible assumption
    | with_reducible apply State.bump_kept
    | with_reducible apply State.raise_kept
    | simp only [Kept.mk_iff]
    | with_reducible apply K5.of
    | with_reducible apply K5.step
    | with_reducible exact id
    | with_reducible exact Tbl.wf_filter
    | exact fun _ => rfl
    | split
    | refine KeptP.of_eq (by with_reducible assumption) ?_
    | refine Kept.of_pair (by with_reducible assumption) ?_
    | (intro _; try dsimp only)

theorem State.fevFail_kept {q : Q4} (s : State) (f : BitVec 12) (hk : Kept q s) : Kept q (State.fevFail s f) := by
  unfold State.fevFail
  try dsimp only
  repeat' first
    | with_reducible assumption
    | with_reducible apply Kept.ite
    | with_reducible apply State.signalsLeft_kept
    | with_reducible apply State.landSignals_kept
    | with_reducible apply State.fevErr_kept
    | (with_reducible apply Kept.foldl <;> first | (intro _ _ _; try dsimp only) | skip)
    | (with_reducible apply Kept.foldl_fst <;> first | (intro _ _ _; try dsimp only) | skip)
    | (with_reducible apply Kept.foldl_snd <;> first | (intro _ _ _; try dsimp only) | skip)
    | simp only [Kept.mk_iff]
    | with_reducible apply K5.of
    | with_reducible apply K5.step
    | with_reducible exact id
    | with_reducible exact Tbl.wf_filter
    | exact fun _ => rfl
    | split
    | refine KeptP.of_eq (by with_reducible assumption) ?_
    | refine Kept.of_pair (by with_reducible assumption) ?_
    | (intro _; try dsimp only)

theorem State.refreshIn_kept {q : Q4} (s : State) (f : BitVec 12) (lines : List Line) (hk : Kept q s) : Kept q (State.refreshIn s f lines) := by
  unfold State.refreshIn
  try dsimp only
  repeat' first
    | with_reducible assumption
    | with_reducible apply Kept.ite
    | with_reducible apply State.used_kept
    | with_reducible apply State.updFev_kept
    | with_reducible apply State.setVec_kept
    | with_reducible apply State.tryMessageAt_kept
    | with_reducible apply State.vecEvent_kept
    | with_reducible apply State.fevEnd_kept
    | with_reducible apply State.fevResume_kept
    | with_reducible apply State.noteUsed_kept
    | (with_reducible apply Kept.foldl <;> first | (intro _ _ _; try dsimp only) | skip)
    | (with_reducible apply Kept.foldl_fst <;> first | (intro _ _ _; try dsimp only) | skip)
    | (with_reducible apply Kept.foldl_snd <;> first | (intro _ _ _; try dsimp only) | skip)
    | simp only [Kept.mk_iff]
    | with_reducible apply K5.of
    | with_reducible apply K5.step
    | with_reducible exact id
    | with_reducible exact Tbl.wf_filter
    | exact fun _ => rfl
    | split
    | refine KeptP.of_eq (by with_reducible assumption) ?_
    | refine Kept.of_pair (by with_reducible assumption) ?_
    | (intro _; try dsimp only)

theorem State.progIn_kept {q : Q4} (s : State) (k : EKey) (l : Line) (hk : Kept q s) : Kept q (State.progIn s k l) := by
  unfold State.progIn
  try dsimp only
  repeat' first
    | with_reducible assumption
    | with_reducible apply Kept.ite
    | simp only [Kept.mk_iff]
    | with_reducible apply K5.of
    | with_reducible apply K5.step
    | with_reducible exact id
    | exact fun _ => rfl
    | split
    | (intro _; try dsimp only)

theorem State.modelIn_kept {q : Q4} (s : State) (p : BitVec 4) (err : Bool) (l : Line) (hk : Kept q s) : Kept q (State.modelIn s p err l) := by
  unfold State.modelIn
  try dsimp only
  repeat' first
    | with_reducible assumption
    | with_reducible apply Kept.ite
    | simp only [Kept.mk_iff]
    | with_reducible apply K5.of
    | with_reducible apply K5.step
    | with_reducible exact id
    | exact Tbl.wf_set
    | exact fun _ => rfl
    | split
    | refine KeptP.of_eq (by with_reducible assumption) ?_
    | refine Kept.of_pair (by with_reducible assumption) ?_
    | (intro _; try dsimp only)

theorem execFevReadReturn_kept {q : Q4} (mtag : BitVec 8) (gen : BitVec 4) (err : Bool) (lines : List Line) (s : State) (hk : Kept q s) : KeptO q (execFevReadReturn mtag gen err lines s) := by
  unfold execFevReadReturn
  try dsimp only
  repeat' first
    | with_reducible assumption
    | exact KeptO.fault
    | exact KeptO.refused
    | with_reducible apply KeptO.next
    | with_reducible apply KeptO.ite
    | with_reducible apply Kept.ite
    | with_reducible apply State.answer_kept
    | with_reducible apply State.auditKick_kept
    | with_reducible apply State.fevEnd_kept
    | with_reducible apply State.landAgain_kept
    | with_reducible apply State.auditResume_kept
    | with_reducible apply State.fevResume_kept
    | with_reducible apply State.fevFill_kept
    | with_reducible apply State.fevErr_kept
    | with_reducible apply State.fevFail_kept
    | with_reducible apply State.refreshIn_kept
    | with_reducible apply State.progIn_kept
    | with_reducible apply State.modelIn_kept
    | simp only [Kept.mk_iff]
    | with_reducible apply K5.of
    | with_reducible apply K5.step
    | with_reducible exact id
    | with_reducible exact Tbl.wf_filter
    | exact fun _ => rfl
    | split
    | refine KeptP.of_eq (by with_reducible assumption) ?_
    | refine Kept.of_pair (by with_reducible assumption) ?_
    | (intro _; try dsimp only)

theorem execRecordWriteAck_kept {q : Q4} (mtag : BitVec 8) (gen : BitVec 4) (err : Bool) (s : State) (hk : Kept q s) : KeptO q (execRecordWriteAck mtag gen err s) := by
  unfold execRecordWriteAck
  try dsimp only
  repeat' first
    | with_reducible assumption
    | with_reducible apply KeptO.next
    | with_reducible apply KeptO.ite
    | with_reducible apply Kept.ite
    | with_reducible apply State.progress_kept
    | with_reducible apply State.answer_kept
    | with_reducible apply State.landErr_kept
    | with_reducible apply State.recPassed_kept
    | with_reducible apply State.land3_kept
    | with_reducible apply State.land2Retry_kept
    | with_reducible apply State.landAgain_kept
    | simp only [Kept.mk_iff]
    | with_reducible apply K5.of
    | with_reducible apply K5.step
    | with_reducible exact id
    | exact fun _ => rfl
    | split
    | refine KeptP.of_eq (by with_reducible assumption) ?_
    | refine Kept.of_pair (by with_reducible assumption) ?_
    | (intro _; try dsimp only)

theorem execFenceWriteAck_kept {q : Q4} (fab : Bool) (mtag : BitVec 8) (gen : BitVec 4) (err : Bool) (old : BitVec 64) (s : State) (hk : Kept q s) : KeptO q (execFenceWriteAck fab mtag gen err old s) := by
  unfold execFenceWriteAck
  try dsimp only
  repeat' first
    | with_reducible assumption
    | with_reducible apply KeptO.next
    | with_reducible apply KeptO.ite
    | with_reducible apply Kept.ite
    | with_reducible apply State.answerAtom_kept
    | with_reducible apply State.landErr_kept
    | with_reducible apply State.land4_kept
    | with_reducible apply State.fenceWritten_kept
    | with_reducible apply State.landAgain_kept
    | simp only [Kept.mk_iff]
    | with_reducible apply K5.of
    | with_reducible apply K5.step
    | with_reducible exact id
    | exact fun _ => rfl
    | split
    | refine KeptP.of_eq (by with_reducible assumption) ?_
    | refine Kept.of_pair (by with_reducible assumption) ?_
    | (intro _; try dsimp only)

theorem execMsgWriteAck_kept {q : Q4} (mtag : BitVec 8) (gen : BitVec 4) (err : Bool) (s : State) (hk : Kept q s) : KeptO q (execMsgWriteAck mtag gen err s) := by
  unfold execMsgWriteAck
  try dsimp only
  repeat' first
    | with_reducible assumption
    | exact KeptO.fault
    | exact KeptO.refused
    | with_reducible apply KeptO.next
    | with_reducible apply KeptO.ite
    | with_reducible apply Kept.ite
    | with_reducible apply State.bump_kept
    | with_reducible apply State.setErr_kept
    | with_reducible apply State.raise_kept
    | with_reducible apply State.answer_kept
    | with_reducible apply State.message_kept
    | with_reducible apply State.flushTry_kept
    | with_reducible apply State.landAgain_kept
    | simp only [Kept.mk_iff]
    | with_reducible apply K5.of
    | with_reducible apply K5.step
    | with_reducible exact id
    | with_reducible exact Tbl.wf_filter
    | exact fun _ => rfl
    | split
    | refine KeptP.of_eq (by with_reducible assumption) ?_
    | refine Kept.of_pair (by with_reducible assumption) ?_
    | (intro _; try dsimp only)

theorem execAuditWriteAck_kept {q : Q4} (mtag : BitVec 8) (gen : BitVec 4) (err : Bool) (s : State) (hk : Kept q s) : KeptO q (execAuditWriteAck mtag gen err s) := by
  unfold execAuditWriteAck
  try dsimp only
  repeat' first
    | with_reducible assumption
    | with_reducible apply KeptO.next
    | with_reducible apply KeptO.ite
    | with_reducible apply Kept.ite
    | with_reducible apply State.bump_kept
    | with_reducible apply State.updEntry_kept
    | with_reducible apply State.raise_kept
    | with_reducible apply State.answer_kept
    | with_reducible apply State.land2_kept
    | with_reducible apply State.land1b_kept
    | with_reducible apply State.landAgain_kept
    | simp only [Kept.mk_iff]
    | with_reducible apply K5.of
    | with_reducible apply K5.step
    | with_reducible exact id
    | exact fun _ => rfl
    | split
    | refine KeptP.of_eq (by with_reducible assumption) ?_
    | refine Kept.of_pair (by with_reducible assumption) ?_
    | (intro _; try dsimp only)

theorem execMsgHoldoffTick_kept {q : Q4} (s : State) (hk : Kept q s) : KeptO q (execMsgHoldoffTick s) := by
  unfold execMsgHoldoffTick
  try dsimp only
  repeat' first
    | with_reducible assumption
    | exact KeptO.fault
    | exact KeptO.refused
    | with_reducible apply KeptO.next
    | with_reducible apply KeptO.ite
    | with_reducible apply State.tryMessageAt_kept
    | with_reducible apply State.fevRetry_kept
    | (with_reducible apply Kept.foldl <;> first | (intro _ _ _; try dsimp only) | skip)
    | (with_reducible apply Kept.foldl_fst <;> first | (intro _ _ _; try dsimp only) | skip)
    | (with_reducible apply Kept.foldl_snd <;> first | (intro _ _ _; try dsimp only) | skip)
    | simp only [Kept.mk_iff]
    | with_reducible apply K5.of
    | with_reducible apply K5.step
    | with_reducible exact id
    | with_reducible exact Tbl.wf_filter
    | exact fun _ => rfl
    | split
    | refine KeptP.of_eq (by with_reducible assumption) ?_
    | refine Kept.of_pair (by with_reducible assumption) ?_
    | (intro _; try dsimp only)

theorem State.fevCmd_kept {q : Q4} (s : State) (op : BitVec 4) (hk : Kept q s) : Kept q (State.fevCmd s op) := by
  unfold State.fevCmd
  try dsimp only
  repeat' first
    | with_reducible assumption
    | with_reducible apply Kept.ite
    | with_reducible apply State.setF_kept
    | with_reducible apply State.setBit_kept
    | with_reducible apply State.setErr_kept
    | with_reducible apply State.fevBack_kept
    | with_reducible apply State.fevEnd_kept
    | with_reducible apply State.refreshTry_kept
    | with_reducible apply State.flushTry_kept
    | (with_reducible apply Kept.foldl <;> first | (intro _ _ _; try dsimp only) | skip)
    | (with_reducible apply Kept.foldl_fst <;> first | (intro _ _ _; try dsimp only) | skip)
    | (with_reducible apply Kept.foldl_snd <;> first | (intro _ _ _; try dsimp only) | skip)
    | simp only [Kept.mk_iff]
    | with_reducible apply K5.of
    | with_reducible apply K5.step
    | with_reducible exact id
    | with_reducible exact Tbl.wf_filter
    | exact fun _ => rfl
    | split
    | refine KeptP.of_eq (by with_reducible assumption) ?_
    | refine Kept.of_pair (by with_reducible assumption) ?_
    | (intro _; try dsimp only)

/-! Functions of Machine/Audit.lean. -/

theorem State.digEnd_kept {q : Q4} (s : State) (err : BitVec 4) (hk : Kept q s) : Kept q (State.digEnd s err) := by
  unfold State.digEnd
  try dsimp only
  repeat' first
    | with_reducible assumption
    | with_reducible apply Kept.ite
    | with_reducible apply State.setF_kept
    | with_reducible apply State.setBit_kept
    | with_reducible apply State.setErr_kept
    | with_reducible apply State.cmdAdd_kept
    | simp only [Kept.mk_iff]
    | with_reducible apply K5.of
    | with_reducible apply K5.step
    | with_reducible exact id
    | exact fun _ => rfl
    | split

theorem State.digRead_kept {q : Q4} (s : State) (c : DigCmd) (hk : Kept q s) : Kept q (State.digRead s c) := by
  unfold State.digRead
  try dsimp only
  repeat' first
    | with_reducible assumption
    | with_reducible apply State.read_kept
    | simp only [Kept.mk_iff]
    | with_reducible apply K5.of
    | with_reducible apply K5.step
    | with_reducible exact id
    | exact fun _ => rfl

theorem State.digWrite_kept {q : Q4} (s : State) (c : DigCmd) (l : Line) (hk : Kept q s) : Kept q (State.digWrite s c l) := by
  unfold State.digWrite
  try dsimp only
  repeat' first
    | with_reducible assumption
    | with_reducible apply State.write_kept
    | simp only [Kept.mk_iff]
    | with_reducible apply K5.of
    | with_reducible apply K5.step
    | with_reducible exact id
    | exact fun _ => rfl

theorem State.digCmd_kept {q : Q4} (s : State) (op : BitVec 4) (hk : Kept q s) : Kept q (State.digCmd s op) := by
  unfold State.digCmd
  try dsimp only
  repeat' first
    | with_reducible assumption
    | with_reducible apply Kept.ite
    | with_reducible apply State.setF_kept
    | with_reducible apply State.setBit_kept
    | with_reducible apply State.setErr_kept
    | with_reducible apply State.read_kept
    | with_reducible apply State.digEnd_kept
    | with_reducible apply State.digRead_kept
    | simp only [Kept.mk_iff]
    | with_reducible apply K5.of
    | with_reducible apply K5.step
    | with_reducible exact id
    | exact fun _ => rfl
    | split

theorem State.digStep_kept {q : Q4} (s : State) (c : DigCmd) (lines : List Line) (hk : Kept q s) : Kept q (State.digStep s c lines) := by
  unfold State.digStep
  try dsimp only
  repeat' first
    | with_reducible assumption
    | with_reducible apply Kept.ite
    | with_reducible apply State.wr_kept
    | with_reducible apply State.digEnd_kept
    | with_reducible apply State.digRead_kept
    | with_reducible apply State.digWrite_kept
    | (with_reducible apply Kept.foldl <;> first | (intro _ _ _; try dsimp only) | skip)
    | (with_reducible apply Kept.foldl_fst <;> first | (intro _ _ _; try dsimp only) | skip)
    | (with_reducible apply Kept.foldl_snd <;> first | (intro _ _ _; try dsimp only) | skip)
    | simp only [Kept.mk_iff]
    | with_reducible apply K5.of
    | with_reducible apply K5.step
    | with_reducible exact id
    | exact fun _ => rfl
    | split
    | (intro _; try dsimp only)

theorem execDigCmdDone_kept {q : Q4} (write : Bool) (mtag : BitVec 8) (gen : BitVec 4) (err : Bool) (lines : List Line) (s : State) (hk : Kept q s) : KeptO q (execDigCmdDone write mtag gen err lines s) := by
  unfold execDigCmdDone
  try dsimp only
  repeat' first
    | with_reducible assumption
    | exact KeptO.fault
    | with_reducible apply KeptO.next
    | with_reducible apply KeptO.ite
    | with_reducible apply Kept.ite
    | with_reducible apply State.write_kept
    | with_reducible apply State.answer_kept
    | with_reducible apply State.modelForget_kept
    | with_reducible apply State.digEnd_kept
    | with_reducible apply State.digCmd_kept
    | with_reducible apply State.digStep_kept
    | simp only [Kept.mk_iff]
    | with_reducible apply K5.of
    | with_reducible apply K5.step
    | with_reducible exact id
    | exact fun _ => rfl
    | split
    | refine KeptP.of_eq (by with_reducible assumption) ?_
    | refine Kept.of_pair (by with_reducible assumption) ?_
    | (intro _; try dsimp only)

theorem State.reproEnd_kept {q : Q4} (s : State) (err : BitVec 4) (hk : Kept q s) : Kept q (State.reproEnd s err) := by
  unfold State.reproEnd
  repeat' first
    | with_reducible assumption
    | with_reducible apply State.setF_kept
    | with_reducible apply State.setBit_kept

theorem State.reproCmd_kept {q : Q4} (s : State) (op : BitVec 4) (hk : Kept q s) : Kept q (State.reproCmd s op) := by
  unfold State.reproCmd
  try dsimp only
  repeat' first
    | with_reducible assumption
    | with_reducible apply Kept.ite
    | with_reducible apply State.wr_kept
    | with_reducible apply State.setF_kept
    | with_reducible apply State.setBit_kept
    | with_reducible apply State.setErr_kept
    | with_reducible apply State.reproEnd_kept
    | simp only [Kept.mk_iff]
    | with_reducible apply K5.of
    | with_reducible apply K5.step
    | with_reducible exact id
    | exact fun _ => rfl
    | split

theorem State.armQueues_kept {q : Q4} (s : State) (hk : Kept q s) : Kept q (State.armQueues s) := by
  unfold State.armQueues
  try dsimp only
  repeat' first
    | with_reducible assumption
    | with_reducible apply State.evict_kept
    | (with_reducible apply Kept.foldl <;> first | (intro _ _ _; try dsimp only) | skip)
    | (with_reducible apply Kept.foldl_fst <;> first | (intro _ _ _; try dsimp only) | skip)
    | (with_reducible apply Kept.foldl_snd <;> first | (intro _ _ _; try dsimp only) | skip)
    | simp only [Kept.mk_iff]
    | with_reducible apply K5.of
    | with_reducible apply K5.step
    | with_reducible exact id
    | with_reducible exact Tbl.wf_filter
    | exact fun _ => rfl
    | (intro _; try dsimp only)

theorem State.armCores_kept {q : Q4} (s : State) (hk : Kept q s) : Kept q (State.armCores s) := by
  unfold State.armCores
  try dsimp only
  repeat' first
    | with_reducible assumption
    | with_reducible apply State.setCore_kept
    | (with_reducible apply Kept.foldl <;> first | (intro _ _ _; try dsimp only) | skip)
    | (with_reducible apply Kept.foldl_fst <;> first | (intro _ _ _; try dsimp only) | skip)
    | (with_reducible apply Kept.foldl_snd <;> first | (intro _ _ _; try dsimp only) | skip)
    | exact Kept.threads (by with_reducible assumption) _
    | (simp only [Core.setBank_threads]; exact Kept.threads (by with_reducible assumption) _)
    | refine Kept.threads (q := q) ?_ _
    | exact (rfl : Tbl.wf (fun _ => Thread.reset) Core.reset.threads = true)
    | simp only [Kept.mk_iff]
    | with_reducible apply K5.of
    | with_reducible apply K5.step
    | with_reducible exact id
    | exact fun _ => rfl
    | (intro _; try dsimp only)

theorem State.armLanding_kept {q : Q4} (s : State) (hk : Kept q s) : Kept q (State.armLanding s) := by
  unfold State.armLanding
  try dsimp only
  repeat' first
    | with_reducible assumption
    | with_reducible apply State.fevBack_kept
    | (with_reducible apply Kept.foldl <;> first | (intro _ _ _; try dsimp only) | skip)
    | (with_reducible apply Kept.foldl_fst <;> first | (intro _ _ _; try dsimp only) | skip)
    | (with_reducible apply Kept.foldl_snd <;> first | (intro _ _ _; try dsimp only) | skip)
    | simp only [Kept.mk_iff]
    | with_reducible apply K5.of
    | with_reducible apply K5.step
    | with_reducible exact id
    | with_reducible exact Tbl.wf_filter
    | exact fun _ => rfl
    | split
    | (intro _; try dsimp only)

theorem State.armReset_kept {q : Q4} (s : State) (hk : Kept q s) : Kept q (State.armReset s) := by
  unfold State.armReset
  repeat' first
    | with_reducible assumption
    | with_reducible apply State.armQueues_kept
    | with_reducible apply State.armCores_kept
    | with_reducible apply State.armLanding_kept

theorem execArmDone_kept {q : Q4} (s : State) (hk : Kept q s) : KeptO q (execArmDone s) := by
  unfold execArmDone
  repeat' first
    | with_reducible assumption
    | with_reducible apply KeptO.next
    | with_reducible apply KeptO.ite
    | with_reducible apply Kept.ite
    | with_reducible apply State.setF_kept
    | with_reducible apply State.reproEnd_kept
    | with_reducible apply State.armReset_kept
    | split

theorem execRunStart_kept {q : Q4} (s : State) (hk : Kept q s) : KeptO q (execRunStart s) := by
  unfold execRunStart
  try dsimp only
  repeat' first
    | with_reducible assumption
    | with_reducible apply KeptO.next
    | with_reducible apply KeptO.ite
    | with_reducible apply Kept.ite
    | with_reducible apply State.setF_kept
    | with_reducible apply State.wr64_kept
    | with_reducible apply State.resumeStream_kept
    | with_reducible apply State.reproEnd_kept
    | (with_reducible apply Kept.foldl <;> first | (intro _ _ _; try dsimp only) | skip)
    | (with_reducible apply Kept.foldl_fst <;> first | (intro _ _ _; try dsimp only) | skip)
    | (with_reducible apply Kept.foldl_snd <;> first | (intro _ _ _; try dsimp only) | skip)
    | simp only [Kept.mk_iff]
    | with_reducible apply K5.of
    | with_reducible apply K5.step
    | with_reducible exact id
    | with_reducible exact Tbl.wf_filter
    | exact fun _ => rfl
    | split
    | refine KeptP.of_eq (by with_reducible assumption) ?_
    | refine Kept.of_pair (by with_reducible assumption) ?_
    | (intro _; try dsimp only)

theorem State.runEnds_kept {q : Q4} (s : State) (hk : Kept q s) : Kept q (State.runEnds s) := by
  unfold State.runEnds
  try dsimp only
  repeat' first
    | with_reducible assumption
    | with_reducible apply Kept.ite
    | with_reducible apply State.wr_kept
    | with_reducible apply State.setBit_kept
    | simp only [Kept.mk_iff]
    | with_reducible apply K5.of
    | with_reducible apply K5.step
    | with_reducible exact id
    | exact fun _ => rfl
    | split

/-! Functions of Machine/Beacon.lean. -/

theorem execSourceAssert_kept {q : Q4} (source : BitVec 9) (level : Bool) (s : State) (hk : Kept q s) : KeptO q (execSourceAssert source level s) := by
  unfold execSourceAssert
  try dsimp only
  repeat' first
    | with_reducible assumption
    | with_reducible apply KeptO.next
    | with_reducible apply KeptO.ite
    | with_reducible apply Kept.ite
    | with_reducible apply State.idleExit_kept
    | simp only [Kept.mk_iff]
    | with_reducible apply K5.of
    | with_reducible apply K5.step
    | with_reducible exact id
    | exact Tbl.wf_set
    | exact fun _ => rfl
    | split
    | (intro _; try dsimp only)

theorem State.claimRead_kept {q : Q4} (s : State) (t : Nat) (hk : Kept q s) : Kept q (State.claimRead s t).1 := by
  unfold State.claimRead
  try dsimp only
  repeat' first
    | with_reducible assumption
    | with_reducible apply Kept.ite
    | with_reducible apply State.setBit_kept
    | with_reducible apply State.bump_kept
    | simp only [Kept.mk_iff]
    | with_reducible apply K5.of
    | with_reducible apply K5.step
    | with_reducible exact id
    | exact Tbl.wf_set
    | exact fun _ => rfl
    | split
    | refine KeptP.of_eq (by with_reducible assumption) ?_
    | refine Kept.of_pair (by with_reducible assumption) ?_
    | (intro _; try dsimp only)

theorem State.completeWrite_kept {q : Q4} (s : State) (t : Nat) (n : Nat) (hk : Kept q s) : Kept q (State.completeWrite s t n) := by
  unfold State.completeWrite
  try dsimp only
  repeat' first
    | with_reducible assumption
    | with_reducible apply Kept.ite
    | with_reducible apply State.bump_kept
    | with_reducible apply State.setErr_kept
    | simp only [Kept.mk_iff]
    | with_reducible apply K5.of
    | with_reducible apply K5.step
    | with_reducible exact id
    | exact Tbl.wf_set
    | exact fun _ => rfl
    | split
    | (intro _; try dsimp only)

theorem execHoldoffExpire_kept {q : Q4} (group : BitVec 5) (s : State) (hk : Kept q s) : KeptO q (execHoldoffExpire group s) := by
  unfold execHoldoffExpire
  try dsimp only
  repeat' first
    | with_reducible assumption
    | with_reducible apply KeptO.next
    | with_reducible apply KeptO.ite
    | with_reducible apply Kept.ite
    | simp only [Kept.mk_iff]
    | with_reducible apply K5.of
    | with_reducible apply K5.step
    | with_reducible exact id
    | exact Tbl.wf_set
    | exact fun _ => rfl
    | split
    | (intro _; try dsimp only)

theorem State.swSet_kept {q : Q4} (s : State) (j : Nat) (v : Word) (hk : Kept q s) : Kept q (State.swSet s j v) := by
  unfold State.swSet
  repeat' first
    | with_reducible assumption
    | with_reducible apply State.wr_kept

theorem State.swClear_kept {q : Q4} (s : State) (j : Nat) (v : Word) (hk : Kept q s) : Kept q (State.swClear s j v) := by
  unfold State.swClear
  repeat' first
    | with_reducible assumption
    | with_reducible apply State.wr_kept

theorem State.srcEvaluate_kept {q : Q4} (s : State) (hk : Kept q s) : Kept q (State.srcEvaluate s) := by
  unfold State.srcEvaluate
  try dsimp only
  repeat' first
    | with_reducible assumption
    | with_reducible apply Kept.ite
    | simp only [Kept.mk_iff]
    | with_reducible apply K5.of
    | with_reducible apply K5.step
    | with_reducible exact id
    | with_reducible exact Tbl.wf_filter
    | exact fun _ => rfl
    | split
    | (intro _; try dsimp only)

theorem State.beaconClear_kept {q : Q4} (s : State) (hk : Kept q s) : Kept q (State.beaconClear s) := by
  unfold State.beaconClear
  try dsimp only
  repeat' first
    | with_reducible assumption
    | with_reducible apply State.wr_kept
    | with_reducible apply State.srcEvaluate_kept
    | (with_reducible apply Kept.foldl <;> first | (intro _ _ _; try dsimp only) | skip)
    | (with_reducible apply Kept.foldl_fst <;> first | (intro _ _ _; try dsimp only) | skip)
    | (with_reducible apply Kept.foldl_snd <;> first | (intro _ _ _; try dsimp only) | skip)
    | simp only [Kept.mk_iff]
    | with_reducible apply K5.of
    | with_reducible apply K5.step
    | with_reducible exact id
    | exact fun _ => rfl
    | (intro _; try dsimp only)

theorem State.beaconReset_kept {q : Q4} (s : State) (hk : Kept q s) : Kept q (State.beaconReset s) := by
  unfold State.beaconReset
  repeat' first
    | with_reducible assumption
    | with_reducible apply State.wr_kept
    | with_reducible apply State.beaconClear_kept

theorem State.beaconRestore_kept {q : Q4} (s : State) (hk : Kept q s) : Kept q (State.beaconRestore s) := by
  unfold State.beaconRestore
  try dsimp only
  repeat' first
    | with_reducible assumption
    | with_reducible apply State.srcEvaluate_kept
    | simp only [Kept.mk_iff]
    | with_reducible apply K5.of
    | with_reducible apply K5.step
    | with_reducible exact id
    | with_reducible exact Tbl.wf_filter
    | exact fun _ => rfl
    | (intro _; try dsimp only)

/-! Functions of Machine/Reef.lean. -/

theorem State.quietStart_kept {q : Q4} (s : State) (hk : Kept q s) : Kept q (State.quietStart s) := by
  unfold State.quietStart
  try dsimp only
  repeat' first
    | with_reducible assumption
    | simp only [Kept.mk_iff]
    | with_reducible apply K5.of
    | with_reducible apply K5.step
    | with_reducible exact id
    | exact fun _ => rfl

theorem State.quietRelease_kept {q : Q4} (s : State) (hk : Kept q s) : Kept q (State.quietRelease s) := by
  unfold State.quietRelease
  try dsimp only
  repeat' first
    | with_reducible assumption
    | with_reducible apply Kept.ite
    | simp only [Kept.mk_iff]
    | with_reducible apply K5.of
    | with_reducible apply K5.step
    | with_reducible exact id
    | exact fun _ => rfl
    | split

theorem State.reefRecord_kept {q : Q4} (s : State) (e : Event) (hk : Kept q s) : Kept q (State.reefRecord s e) := by
  unfold State.reefRecord
  try dsimp only
  repeat' first
    | with_reducible assumption
    | with_reducible apply Kept.ite
    | with_reducible apply State.setF_kept
    | with_reducible apply State.setBit_kept
    | with_reducible apply State.bump_kept
    | with_reducible apply State.bumpWrap_kept
    | with_reducible apply State.bumpF_kept
    | with_reducible apply State.traceRec_kept
    | with_reducible apply State.quietStart_kept
    | simp only [Kept.mk_iff]
    | with_reducible apply K5.of
    | with_reducible apply K5.step
    | with_reducible exact id
    | exact Tbl.wf_set
    | exact fun _ => rfl
    | split
    | (intro _; try dsimp only)

theorem State.aliveStop_kept {q : Q4} (s : State) (hk : Kept q s) : Kept q (State.aliveStop s) := by
  unfold State.aliveStop
  try dsimp only
  repeat' first
    | with_reducible assumption
    | simp only [Kept.mk_iff]
    | with_reducible apply K5.of
    | with_reducible apply K5.step
    | with_reducible exact id
    | exact fun _ => rfl

theorem State.reefTake_kept {q : Q4} (s : State) (hk : Kept q s) : Kept q (State.reefTake s) := by
  unfold State.reefTake
  try dsimp only
  repeat' first
    | with_reducible assumption
    | with_reducible apply Kept.ite
    | with_reducible apply State.setBit_kept
    | with_reducible apply State.meetLater_kept
    | with_reducible apply State.reefRecord_kept
    | with_reducible apply State.aliveStop_kept
    | simp only [Kept.mk_iff]
    | with_reducible apply K5.of
    | with_reducible apply K5.step
    | with_reducible exact id
    | exact fun _ => rfl
    | split
    | refine KeptP.of_eq (by with_reducible assumption) ?_
    | refine Kept.of_pair (by with_reducible assumption) ?_
    | (intro _; try dsimp only)

theorem execReefTakeEvent_kept {q : Q4} (s : State) (hk : Kept q s) : KeptO q (execReefTakeEvent s) := by
  unfold execReefTakeEvent
  repeat' first
    | with_reducible assumption
    | with_reducible apply KeptO.next
    | with_reducible apply State.reefTake_kept

theorem execQuietTimerExpire_kept {q : Q4} (s : State) (hk : Kept q s) : KeptO q (execQuietTimerExpire s) := by
  unfold execQuietTimerExpire
  try dsimp only
  repeat' first
    | with_reducible assumption
    | with_reducible apply KeptO.next
    | with_reducible apply KeptO.ite
    | with_reducible apply Kept.ite
    | with_reducible apply State.setBit_kept
    | with_reducible apply State.bump_kept
    | simp only [Kept.mk_iff]
    | with_reducible apply K5.of
    | with_reducible apply K5.step
    | with_reducible exact id
    | exact fun _ => rfl
    | split

theorem execPageFaultTimerExpire_kept {q : Q4} (page : BitVec 8) (s : State) (hk : Kept q s) : KeptO q (execPageFaultTimerExpire page s) := by
  unfold execPageFaultTimerExpire
  try dsimp only
  repeat' first
    | with_reducible assumption
    | with_reducible apply KeptO.next
    | with_reducible apply KeptO.ite
    | with_reducible apply Kept.ite
    | simp only [Kept.mk_iff]
    | with_reducible apply K5.of
    | with_reducible apply K5.step
    | with_reducible exact id
    | exact Tbl.wf_set
    | exact fun _ => rfl
    | split
    | (intro _; try dsimp only)

theorem State.reefInject_kept {q : Q4} (s : State) (sev : Nat) (hk : Kept q s) : Kept q (State.reefInject s sev) := by
  unfold State.reefInject
  repeat' first
    | with_reducible assumption
    | with_reducible apply Kept.ite
    | with_reducible apply State.setErr_kept
    | with_reducible apply State.intake_kept
    | split

theorem State.scrubEvent_kept {q : Q4} (s : State) (e : Event) (hk : Kept q s) : Kept q (State.scrubEvent s e) := by
  unfold State.scrubEvent
  repeat' first
    | with_reducible assumption
    | with_reducible apply State.raise_kept
    | with_reducible apply State.reefTake_kept

theorem State.scrubFixed_kept {q : Q4} (s : State) (e : Event) (hk : Kept q s) : Kept q (State.scrubFixed s e) := by
  unfold State.scrubFixed
  repeat' first
    | with_reducible assumption
    | with_reducible apply State.bump_kept
    | with_reducible apply State.setErr_kept
    | with_reducible apply State.scrubEvent_kept

theorem State.mapMended_kept {q : Q4} (s : State) (pm : Bool) (b : Bool) (i : Nat) (hk : Kept q s) : Kept q (State.mapMended s pm b i) := by
  unfold State.mapMended
  try dsimp only
  repeat' first
    | with_reducible assumption
    | simp only [Kept.mk_iff]
    | with_reducible apply K5.of
    | with_reducible apply K5.step
    | with_reducible exact id
    | with_reducible exact Tbl.wf_filter
    | exact fun _ => rfl

theorem State.putFpm_kept {q : Q4} (s : State) (b : Bool) (f : Nat) (v : BitVec 16) (hk : Kept q s) : Kept q (State.putFpm s b f v) := by
  unfold State.putFpm
  try dsimp only
  repeat' first
    | with_reducible assumption
    | with_reducible apply Kept.ite
    | with_reducible apply State.mapMended_kept
    | simp only [Kept.mk_iff]
    | with_reducible apply K5.of
    | with_reducible apply K5.step
    | with_reducible exact id
    | exact Tbl.wf_set
    | exact fun _ => rfl
    | split
    | (intro _; try dsimp only)

theorem State.putPmap_kept {q : Q4} (s : State) (b : Bool) (p : Nat) (v : BitVec 256) (hk : Kept q s) : Kept q (State.putPmap s b p v) := by
  unfold State.putPmap
  try dsimp only
  repeat' first
    | with_reducible assumption
    | with_reducible apply Kept.ite
    | with_reducible apply State.mapMended_kept
    | simp only [Kept.mk_iff]
    | with_reducible apply K5.of
    | with_reducible apply K5.step
    | with_reducible exact id
    | exact Tbl.wf_set
    | exact fun _ => rfl
    | split
    | (intro _; try dsimp only)

theorem State.scrubFpm_kept {q : Q4} (s : State) (f : Nat) (hk : Kept q s) : Kept q (State.scrubFpm s f) := by
  unfold State.scrubFpm
  try dsimp only
  repeat' first
    | with_reducible assumption
    | with_reducible apply State.scrubEvent_kept
    | with_reducible apply State.scrubFixed_kept
    | with_reducible apply State.putFpm_kept
    | simp only [Kept.mk_iff]
    | with_reducible apply K5.of
    | with_reducible apply K5.step
    | with_reducible exact id
    | exact fun _ => rfl
    | split
    | refine KeptP.of_eq (by with_reducible assumption) ?_
    | refine Kept.of_pair (by with_reducible assumption) ?_
    | (intro _; try dsimp only)

theorem State.scrubPmap_kept {q : Q4} (s : State) (p : Nat) (hk : Kept q s) : Kept q (State.scrubPmap s p) := by
  unfold State.scrubPmap
  try dsimp only
  repeat' first
    | with_reducible assumption
    | with_reducible apply State.scrubEvent_kept
    | with_reducible apply State.scrubFixed_kept
    | with_reducible apply State.putPmap_kept
    | simp only [Kept.mk_iff]
    | with_reducible apply K5.of
    | with_reducible apply K5.step
    | with_reducible exact id
    | exact fun _ => rfl
    | split
    | refine KeptP.of_eq (by with_reducible assumption) ?_
    | refine Kept.of_pair (by with_reducible assumption) ?_
    | (intro _; try dsimp only)

theorem State.scrubPass_kept {q : Q4} (s : State) (hk : Kept q s) : Kept q (State.scrubPass s) := by
  unfold State.scrubPass
  try dsimp only
  repeat' first
    | with_reducible assumption
    | with_reducible apply State.bump_kept
    | with_reducible apply State.scrubFpm_kept
    | with_reducible apply State.scrubPmap_kept
    | (with_reducible apply Kept.foldl <;> first | (intro _ _ _; try dsimp only) | skip)

theorem execScrubPass_kept {q : Q4} (s : State) (hk : Kept q s) : KeptO q (execScrubPass s) := by
  unfold execScrubPass
  repeat' first
    | with_reducible assumption
    | with_reducible apply KeptO.next
    | with_reducible apply KeptO.ite
    | with_reducible apply Kept.ite
    | with_reducible apply State.idleExit_kept
    | with_reducible apply State.scrubPass_kept
    | split

theorem State.landSram_kept {q : Q4} (s : State) (site : SramSite) (hk : Kept q s) : Kept q (State.landSram s site) := by
  unfold State.landSram
  try dsimp only
  repeat' first
    | with_reducible assumption
    | with_reducible apply State.bump_kept
    | simp only [Kept.mk_iff]
    | with_reducible apply K5.of
    | with_reducible apply K5.step
    | with_reducible exact id
    | with_reducible exact Tbl.wf_filter
    | exact fun _ => rfl
    | split
    | refine KeptP.of_eq (by with_reducible assumption) ?_
    | refine Kept.of_pair (by with_reducible assumption) ?_
    | (intro _; try dsimp only)

theorem execSramSbe_kept {q : Q4} (site : SramSite) (s : State) (hk : Kept q s) : KeptO q (execSramSbe site s) := by
  unfold execSramSbe
  try dsimp only
  repeat' first
    | with_reducible assumption
    | exact KeptO.fault
    | exact KeptO.refused
    | with_reducible apply KeptO.next
    | with_reducible apply KeptO.ite
    | with_reducible apply Kept.ite
    | with_reducible apply State.timingBreak_kept
    | with_reducible apply State.raise_kept
    | with_reducible apply State.landSram_kept
    | (with_reducible apply Kept.foldl <;> first | (intro _ _ _; try dsimp only) | skip)
    | (with_reducible apply Kept.foldl_fst <;> first | (intro _ _ _; try dsimp only) | skip)
    | (with_reducible apply Kept.foldl_snd <;> first | (intro _ _ _; try dsimp only) | skip)
    | simp only [Kept.mk_iff]
    | with_reducible apply K5.of
    | with_reducible apply K5.step
    | with_reducible exact id
    | with_reducible exact Tbl.wf_filter
    | exact fun _ => rfl
    | split
    | refine KeptP.of_eq (by with_reducible assumption) ?_
    | refine Kept.of_pair (by with_reducible assumption) ?_
    | (intro _; try dsimp only)

theorem State.eccLose_kept {q : Q4} (s : State) (site : SramSite) (k : EKey) (hk : Kept q s) : Kept q (State.eccLose s site k) := by
  unfold State.eccLose
  try dsimp only
  repeat' first
    | with_reducible assumption
    | with_reducible apply State.ctxFault_kept
    | simp only [Kept.mk_iff]
    | with_reducible apply K5.of
    | with_reducible apply K5.step
    | with_reducible exact id
    | exact fun _ => rfl
    | split
    | refine KeptP.of_eq (by with_reducible assumption) ?_
    | refine Kept.of_pair (by with_reducible assumption) ?_
    | (intro _; try dsimp only)

theorem State.dbe_kept {q : Q4} (s : State) (site : SramSite) (hk : Kept q s) : Kept q (State.dbe s site) := by
  unfold State.dbe
  try dsimp only
  repeat' first
    | with_reducible assumption
    | with_reducible apply Kept.ite
    | with_reducible apply State.setBit_kept
    | with_reducible apply State.setErr_kept
    | with_reducible apply State.setCore_kept
    | with_reducible apply State.raise_kept
    | with_reducible apply State.issueFap_kept
    | with_reducible apply State.setObj_kept
    | with_reducible apply State.soEvent_kept
    | with_reducible apply State.setWatch_kept
    | with_reducible apply State.setScale_kept
    | with_reducible apply State.settle_kept
    | with_reducible apply State.landSram_kept
    | with_reducible apply State.eccLose_kept
    | exact Kept.threads (by with_reducible assumption) _
    | (simp only [Core.setBank_threads]; exact Kept.threads (by with_reducible assumption) _)
    | refine Kept.threads (q := q) ?_ _
    | exact (rfl : Tbl.wf (fun _ => Thread.reset) Core.reset.threads = true)
    | simp only [Kept.mk_iff]
    | with_reducible apply K5.of
    | with_reducible apply K5.step
    | with_reducible exact id
    | with_reducible exact Tbl.wf_filter
    | exact fun _ => rfl
    | split
    | refine KeptP.of_eq (by with_reducible assumption) ?_
    | refine Kept.of_pair (by with_reducible assumption) ?_
    | (intro _; try dsimp only)

theorem execSramDbe_kept {q : Q4} (site : SramSite) (s : State) (hk : Kept q s) : KeptO q (execSramDbe site s) := by
  unfold execSramDbe
  repeat' first
    | with_reducible assumption
    | with_reducible apply KeptO.next
    | with_reducible apply KeptO.ite
    | with_reducible apply Kept.ite
    | with_reducible apply State.dbe_kept
    | split

theorem State.heartbeat_kept {q : Q4} (s : State) (hk : Kept q s) : Kept q (State.heartbeat s) := by
  unfold State.heartbeat
  try dsimp only
  repeat' first
    | with_reducible assumption
    | with_reducible apply State.setBit_kept
    | with_reducible apply State.bumpWrap_kept
    | simp only [Kept.mk_iff]
    | with_reducible apply K5.of
    | with_reducible apply K5.step
    | with_reducible exact id
    | exact fun _ => rfl

theorem execHeartbeatLost_kept {q : Q4} (s : State) (hk : Kept q s) : KeptO q (execHeartbeatLost s) := by
  unfold execHeartbeatLost
  try dsimp only
  repeat' first
    | with_reducible assumption
    | with_reducible apply KeptO.next
    | with_reducible apply KeptO.ite
    | with_reducible apply Kept.ite
    | with_reducible apply State.setBit_kept
    | with_reducible apply State.setErr_kept
    | with_reducible apply State.raise_kept
    | with_reducible apply State.aliveStop_kept
    | split

theorem execAliveToggle_kept {q : Q4} (s : State) (hk : Kept q s) : KeptO q (execAliveToggle s) := by
  unfold execAliveToggle
  try dsimp only
  repeat' first
    | with_reducible assumption
    | with_reducible apply KeptO.next
    | with_reducible apply KeptO.ite
    | with_reducible apply Kept.ite
    | simp only [Kept.mk_iff]
    | with_reducible apply K5.of
    | with_reducible apply K5.step
    | with_reducible exact id
    | exact fun _ => rfl
    | split

theorem execHaltChange_kept {q : Q4} (a : Bool) (b : Bool) (s : State) (hk : Kept q s) : KeptO q (execHaltChange a b s) := by
  unfold execHaltChange
  try dsimp only
  repeat' first
    | with_reducible assumption
    | with_reducible apply KeptO.next
    | with_reducible apply KeptO.ite
    | with_reducible apply Kept.ite
    | with_reducible apply State.bump_kept
    | with_reducible apply State.timingBreakAll_kept
    | with_reducible apply State.quiesceAll_kept
    | with_reducible apply State.unquiesceAll_kept
    | simp only [Kept.mk_iff]
    | with_reducible apply K5.of
    | with_reducible apply K5.step
    | with_reducible exact id
    | exact fun _ => rfl
    | split

theorem State.discTick_kept {q : Q4} (s : State) (hk : Kept q s) : Kept q (State.discTick s) := by
  unfold State.discTick
  try dsimp only
  repeat' first
    | with_reducible assumption
    | with_reducible apply Kept.ite
    | with_reducible apply State.maxF_kept
    | simp only [Kept.mk_iff]
    | with_reducible apply K5.of
    | with_reducible apply K5.step
    | with_reducible exact id
    | exact fun _ => rfl
    | split

theorem execHaltDisc_kept {q : Q4} (s : State) (hk : Kept q s) : KeptO q (execHaltDisc s) := by
  unfold execHaltDisc
  try dsimp only
  repeat' first
    | with_reducible assumption
    | with_reducible apply KeptO.next
    | with_reducible apply KeptO.ite
    | with_reducible apply Kept.ite
    | with_reducible apply State.setErr_kept
    | with_reducible apply State.raise_kept
    | simp only [Kept.mk_iff]
    | with_reducible apply K5.of
    | with_reducible apply K5.step
    | with_reducible exact id
    | exact fun _ => rfl
    | split

end Sys2Proof.Machine
end

