-- ==== Sys2Proof/Laws/KeepsSystem.lean ====
section
/-! SUPPORT. Every function of the dump, the resets, power, clocks, the Keeper, debug, the RDP port, wakes and the tick keeps the queue, the RTL parameters and the canonical form of the stores (Laws/Kept.lean): one lemma per function. -/
set_option linter.all false
namespace Sys2Proof.Machine

/-! Functions of Machine/Dump.lean. -/

theorem State.setDump_kept {q : Q4} (s : State) (d : Option Dump) (hk : Kept q s) : Kept q (State.setDump s d) := by
  unfold State.setDump
  try dsimp only
  repeat' first
    | with_reducible assumption
    | simp only [Kept.mk_iff]
    | with_reducible apply K5.of
    | with_reducible apply K5.step
    | with_reducible exact id
    | exact fun _ => rfl

theorem State.dumpLines_kept {q : Q4} (s : State) (addr : Addr) (ls : List Line) (hk : Kept q s) : Kept q (State.dumpLines s addr ls) := by
  unfold State.dumpLines
  try dsimp only
  repeat' first
    | with_reducible assumption
    | with_reducible apply State.issue_kept
    | with_reducible apply State.write_kept
    | (with_reducible apply Kept.foldl <;> first | (intro _ _ _; try dsimp only) | skip)
    | (intro _; try dsimp only)

theorem State.usedBy_kept {q : Q4} (s : State) (n : Nat) (hk : Kept q s) : Kept q (State.usedBy s n) := by
  unfold State.usedBy
  try dsimp only
  repeat' first
    | with_reducible assumption
    | simp only [Kept.mk_iff]
    | with_reducible apply K5.of

theorem State.dumpGo_kept {q : Q4} (s : State) (hk : Kept q s) : Kept q (State.dumpGo s) := by
  unfold State.dumpGo
  try dsimp only
  repeat' first
    | with_reducible assumption
    | with_reducible apply Kept.ite
    | with_reducible apply State.stage_kept
    | with_reducible apply State.setDump_kept
    | with_reducible apply State.usedBy_kept
    | with_reducible apply State.dumpLines_kept
    | simp only [Kept.mk_iff]
    | with_reducible apply K5.of
    | with_reducible apply K5.step
    | with_reducible exact id
    | exact fun _ => rfl
    | split
    | refine KeptP.of_eq (by with_reducible assumption) ?_
    | refine Kept.of_pair (by with_reducible assumption) ?_
    | (intro _; try dsimp only)

theorem State.dumpSkipped_kept {q : Q4} (s : State) (hk : Kept q s) : Kept q (State.dumpSkipped s) := by
  unfold State.dumpSkipped
  repeat' first
    | with_reducible assumption
    | with_reducible apply State.bumpF_kept
    | with_reducible apply State.setErr_kept
    | with_reducible apply State.raise_kept

theorem State.dumpStart_kept {q : Q4} (s : State) (part : Option (BitVec 4)) (cause : Cause) (hk : Kept q s) : Kept q (State.dumpStart s part cause) := by
  unfold State.dumpStart
  try dsimp only
  repeat' first
    | with_reducible assumption
    | with_reducible apply Kept.ite
    | with_reducible apply State.setBit_kept
    | with_reducible apply State.sendDown_kept
    | with_reducible apply State.setDump_kept
    | with_reducible apply State.dumpGo_kept
    | (with_reducible apply Kept.foldl <;> first | (intro _ _ _; try dsimp only) | skip)
    | (with_reducible apply Kept.foldl_fst <;> first | (intro _ _ _; try dsimp only) | skip)
    | (with_reducible apply Kept.foldl_snd <;> first | (intro _ _ _; try dsimp only) | skip)
    | simp only [Kept.mk_iff]
    | with_reducible apply K5.of
    | with_reducible apply K5.step
    | with_reducible exact id
    | with_reducible exact Tbl.wf_filter
    | exact fun _ => rfl
    | split
    | refine KeptP.of_eq (by with_reducible assumption) ?_
    | refine Kept.of_pair (by with_reducible assumption) ?_
    | (intro _; try dsimp only)

theorem execDumpBeat_kept {q : Q4} (port : BitVec 7) (last : Bool) (data : BitVec 256) (s : State) (hk : Kept q s) : KeptO q (execDumpBeat port last data s) := by
  unfold execDumpBeat
  try dsimp only
  repeat' first
    | with_reducible assumption
    | with_reducible apply KeptO.next
    | with_reducible apply KeptO.ite
    | with_reducible apply Kept.ite
    | with_reducible apply State.credit_kept
    | with_reducible apply State.setDump_kept
    | with_reducible apply State.dumpGo_kept
    | simp only [Kept.mk_iff]
    | with_reducible apply K5.of
    | with_reducible apply K5.step
    | with_reducible exact id
    | exact fun _ => rfl
    | split
    | refine KeptP.of_eq (by with_reducible assumption) ?_
    | refine Kept.of_pair (by with_reducible assumption) ?_
    | (intro _; try dsimp only)

theorem execDumpBeatTimeout_kept {q : Q4} (port : BitVec 7) (s : State) (hk : Kept q s) : KeptO q (execDumpBeatTimeout port s) := by
  unfold execDumpBeatTimeout
  try dsimp only
  repeat' first
    | with_reducible assumption
    | with_reducible apply KeptO.next
    | with_reducible apply KeptO.ite
    | with_reducible apply Kept.ite
    | with_reducible apply State.setDump_kept
    | with_reducible apply State.dumpGo_kept
    | simp only [Kept.mk_iff]
    | with_reducible apply K5.of
    | with_reducible apply K5.step
    | with_reducible exact id
    | exact fun _ => rfl
    | split
    | refine KeptP.of_eq (by with_reducible assumption) ?_
    | refine Kept.of_pair (by with_reducible assumption) ?_
    | (intro _; try dsimp only)

theorem State.dumpOver_kept {q : Q4} (s : State) (d : Dump) (hk : Kept q s) : Kept q (State.dumpOver s d) := by
  unfold State.dumpOver
  try dsimp only
  repeat' first
    | with_reducible assumption
    | with_reducible apply State.wr_kept
    | with_reducible apply State.setDump_kept

/-! Functions of Machine/Resets.lean. -/

theorem State.rstErr_kept {q : Q4} (s : State) (e : BitVec 4) (hk : Kept q s) : Kept q (State.rstErr s e) := by
  unfold State.rstErr
  repeat' first
    | with_reducible assumption
    | with_reducible apply State.setF_kept

theorem State.engineAsk_kept {q : Q4} (s : State) (n : Nat) (back : Nat) (hk : Kept q s) : Kept q (State.engineAsk s n back) := by
  unfold State.engineAsk
  try dsimp only
  repeat' first
    | with_reducible assumption
    | with_reducible apply State.setPort_kept
    | with_reducible apply State.resetDown_kept
    | simp only [Kept.mk_iff]
    | with_reducible apply K5.of
    | with_reducible apply K5.step
    | with_reducible exact id
    | with_reducible exact Tbl.wf_filter
    | exact fun _ => rfl
    | split
    | refine KeptP.of_eq (by with_reducible assumption) ?_
    | refine Kept.of_pair (by with_reducible assumption) ?_
    | (intro _; try dsimp only)

theorem State.genUp_kept {q : Q4} (s : State) (n : Nat) (hk : Kept q s) : Kept q (State.genUp s n) := by
  unfold State.genUp
  try dsimp only
  repeat' first
    | with_reducible assumption
    | with_reducible apply State.setPort_kept
    | simp only [Kept.mk_iff]
    | with_reducible apply K5.of
    | with_reducible apply K5.step
    | with_reducible exact id
    | exact fun _ => rfl

theorem State.portChange_kept {q : Q4} (s : State) (n : Nat) (op : Nat) (hk : Kept q s) : Kept q (State.portChange s n op) := by
  unfold State.portChange
  try dsimp only
  repeat' first
    | with_reducible assumption
    | with_reducible apply Kept.ite
    | with_reducible apply State.setPort_kept
    | with_reducible apply State.drainPorts_kept
    | with_reducible apply State.rstErr_kept
    | simp only [Kept.mk_iff]
    | with_reducible apply K5.of
    | with_reducible apply K5.step
    | with_reducible exact id
    | with_reducible exact Tbl.wf_filter
    | exact fun _ => rfl
    | split
    | (intro _; try dsimp only)

theorem State.portDefer_kept {q : Q4} (s : State) (n : Nat) (op : Nat) (hk : Kept q s) : Kept q (State.portDefer s n op) := by
  unfold State.portDefer
  try dsimp only
  repeat' first
    | with_reducible assumption
    | with_reducible apply State.setPort_kept
    | with_reducible apply State.rstErr_kept
    | simp only [Kept.mk_iff]
    | with_reducible apply K5.of
    | with_reducible apply K5.step
    | with_reducible exact id
    | exact fun _ => rfl

theorem State.portCmd_kept {q : Q4} (s : State) (op : Nat) (n : Nat) (hk : Kept q s) : Kept q (State.portCmd s op n) := by
  unfold State.portCmd
  try dsimp only
  repeat' first
    | with_reducible assumption
    | with_reducible apply Kept.ite
    | with_reducible apply State.settle_kept
    | with_reducible apply State.failCmds_kept
    | with_reducible apply State.engDefer_kept
    | with_reducible apply State.rstErr_kept
    | with_reducible apply State.engineAsk_kept
    | with_reducible apply State.genUp_kept
    | with_reducible apply State.portChange_kept
    | with_reducible apply State.portDefer_kept
    | simp only [Kept.mk_iff]
    | with_reducible apply K5.of
    | with_reducible apply K5.step
    | with_reducible exact id
    | with_reducible exact Tbl.wf_filter
    | exact fun _ => rfl
    | split
    | refine KeptP.of_eq (by with_reducible assumption) ?_
    | refine Kept.of_pair (by with_reducible assumption) ?_
    | (intro _; try dsimp only)

theorem execDeferredPortChange_kept {q : Q4} (port : BitVec 7) (s : State) (hk : Kept q s) : KeptO q (execDeferredPortChange port s) := by
  unfold execDeferredPortChange
  try dsimp only
  repeat' first
    | with_reducible assumption
    | with_reducible apply KeptO.next
    | with_reducible apply KeptO.ite
    | with_reducible apply Kept.ite
    | with_reducible apply State.engDefer_kept
    | with_reducible apply State.portChange_kept
    | simp only [Kept.mk_iff]
    | with_reducible apply K5.of
    | with_reducible apply K5.step
    | with_reducible exact id
    | exact fun _ => rfl
    | split
    | refine KeptP.of_eq (by with_reducible assumption) ?_
    | refine Kept.of_pair (by with_reducible assumption) ?_
    | (intro _; try dsimp only)

theorem State.latchDepth_kept {q : Q4} (s : State) (n : Nat) (depth : BitVec 8) (hk : Kept q s) : Kept q (State.latchDepth s n depth) := by
  unfold State.latchDepth
  try dsimp only
  repeat' first
    | with_reducible assumption
    | with_reducible apply State.wr_kept
    | simp only [Kept.mk_iff]
    | with_reducible apply K5.of
    | with_reducible apply K5.step
    | with_reducible exact id
    | with_reducible exact Tbl.wf_filter
    | exact fun _ => rfl
    | split
    | (intro _; try dsimp only)

theorem execEngineResetAck_kept {q : Q4} (port : BitVec 7) (depth : BitVec 8) (s : State) (hk : Kept q s) : KeptO q (execEngineResetAck port depth s) := by
  unfold execEngineResetAck
  try dsimp only
  repeat' first
    | with_reducible assumption
    | exact KeptO.fault
    | exact KeptO.refused
    | with_reducible apply KeptO.next
    | with_reducible apply KeptO.ite
    | with_reducible apply Kept.ite
    | with_reducible apply State.setPort_kept
    | with_reducible apply State.latchDepth_kept
    | simp only [Kept.mk_iff]
    | with_reducible apply K5.of
    | with_reducible apply K5.step
    | with_reducible exact id
    | with_reducible exact Tbl.wf_filter
    | exact fun _ => rfl
    | split
    | (intro _; try dsimp only)

theorem execResetTimeout_kept {q : Q4} (port : BitVec 7) (s : State) (hk : Kept q s) : KeptO q (execResetTimeout port s) := by
  unfold execResetTimeout
  try dsimp only
  repeat' first
    | with_reducible assumption
    | with_reducible apply KeptO.next
    | with_reducible apply KeptO.ite
    | with_reducible apply Kept.ite
    | with_reducible apply State.setErr_kept
    | with_reducible apply State.setPort_kept
    | with_reducible apply State.raise_kept
    | simp only [Kept.mk_iff]
    | with_reducible apply K5.of
    | with_reducible apply K5.step
    | with_reducible exact id
    | exact fun _ => rfl
    | split
    | refine KeptP.of_eq (by with_reducible assumption) ?_
    | refine Kept.of_pair (by with_reducible assumption) ?_
    | (intro _; try dsimp only)

theorem execStall_kept {q : Q4} (p : BitVec 4) (s : State) (hk : Kept q s) : KeptO q (execStall p s) := by
  unfold execStall
  try dsimp only
  repeat' first
    | with_reducible assumption
    | with_reducible apply KeptO.next
    | with_reducible apply KeptO.ite
    | with_reducible apply Kept.ite
    | with_reducible apply State.setBit_kept
    | with_reducible apply State.setErr_kept
    | with_reducible apply State.raise_kept
    | simp only [Kept.mk_iff]
    | with_reducible apply K5.of
    | with_reducible apply K5.step
    | with_reducible exact id
    | exact fun _ => rfl
    | split
    | refine KeptP.of_eq (by with_reducible assumption) ?_
    | refine Kept.of_pair (by with_reducible assumption) ?_
    | (intro _; try dsimp only)

theorem State.streamClear_kept {q : Q4} (s : State) (n : BitVec 14) (hk : Kept q s) : Kept q (State.streamClear s n) := by
  unfold State.streamClear
  try dsimp only
  repeat' first
    | with_reducible assumption
    | with_reducible apply State.updStream_kept
    | with_reducible apply State.unqueue_kept
    | simp only [Kept.mk_iff]
    | with_reducible apply K5.of
    | with_reducible apply K5.step
    | with_reducible exact id
    | with_reducible exact Tbl.wf_filter
    | exact fun _ => rfl
    | split
    | (intro _; try dsimp only)

theorem State.dropLoads_kept {q : Q4} (s : State) (p : BitVec 4) (hk : Kept q s) : Kept q (State.dropLoads s p) := by
  unfold State.dropLoads
  try dsimp only
  repeat' first
    | with_reducible assumption
    | with_reducible apply Kept.ite
    | with_reducible apply State.setCore_kept
    | with_reducible apply State.orphan_kept
    | (with_reducible apply Kept.foldl <;> first | (intro _ _ _; try dsimp only) | skip)
    | exact Kept.threads (by with_reducible assumption) _
    | (simp only [Core.setBank_threads]; exact Kept.threads (by with_reducible assumption) _)
    | refine Kept.threads (q := q) ?_ _
    | exact (rfl : Tbl.wf (fun _ => Thread.reset) Core.reset.threads = true)
    | simp only [Kept.mk_iff]
    | with_reducible apply K5.of
    | with_reducible apply K5.step
    | with_reducible exact id
    | exact fun _ => rfl
    | split
    | refine KeptP.of_eq (by with_reducible assumption) ?_
    | refine Kept.of_pair (by with_reducible assumption) ?_
    | (intro _; try dsimp only)

theorem State.discard_kept {q : Q4} (s : State) (part : Option (BitVec 4)) (hk : Kept q s) : Kept q (State.discard s part) := by
  unfold State.discard
  try dsimp only
  repeat' first
    | with_reducible assumption
    | with_reducible apply Kept.ite
    | with_reducible apply State.setBit_kept
    | with_reducible apply State.intake_kept
    | with_reducible apply State.orphan_kept
    | with_reducible apply State.voidWaiters_kept
    | with_reducible apply State.freeThread_kept
    | with_reducible apply State.stage_kept
    | with_reducible apply State.tmplReset_kept
    | with_reducible apply State.streamClear_kept
    | with_reducible apply State.dropLoads_kept
    | (with_reducible apply Kept.foldl <;> first | (intro _ _ _; try dsimp only) | skip)
    | (with_reducible apply Kept.foldl_fst <;> first | (intro _ _ _; try dsimp only) | skip)
    | (with_reducible apply Kept.foldl_snd <;> first | (intro _ _ _; try dsimp only) | skip)
    | simp only [Kept.mk_iff]
    | with_reducible apply K5.of
    | with_reducible apply K5.step
    | with_reducible exact id
    | with_reducible exact Tbl.wf_filter
    | exact fun _ => rfl
    | split
    | refine KeptP.of_eq (by with_reducible assumption) ?_
    | refine Kept.of_pair (by with_reducible assumption) ?_
    | (intro _; try dsimp only)

theorem State.noteStart_kept {q : Q4} (s : State) (counts : Bool) (hk : Kept q s) : Kept q (State.noteStart s counts) := by
  unfold State.noteStart
  try dsimp only
  repeat' first
    | with_reducible assumption
    | simp only [Kept.mk_iff]
    | with_reducible apply K5.of
    | with_reducible apply K5.step
    | with_reducible exact id
    | exact fun _ => rfl

theorem State.setBlock_kept {q : Q4} (s : State) (r : Option ResetRun) (hk : Kept q s) : Kept q (State.setBlock s r) := by
  unfold State.setBlock
  try dsimp only
  repeat' first
    | with_reducible assumption
    | simp only [Kept.mk_iff]
    | with_reducible apply K5.of
    | with_reducible apply K5.step
    | with_reducible exact id
    | exact fun _ => rfl

theorem State.blockDrain_kept {q : Q4} (s : State) (hk : Kept q s) : Kept q (State.blockDrain s) := by
  unfold State.blockDrain
  try dsimp only
  repeat' first
    | with_reducible assumption
    | with_reducible apply Kept.ite
    | with_reducible apply State.setBlock_kept
    | simp only [Kept.mk_iff]
    | with_reducible apply K5.of
    | with_reducible apply K5.step
    | with_reducible exact id
    | exact fun _ => rfl
    | split
    | refine KeptP.of_eq (by with_reducible assumption) ?_
    | refine Kept.of_pair (by with_reducible assumption) ?_
    | (intro _; try dsimp only)

theorem State.blockStart_kept {q : Q4} (s : State) (cause : Cause) (fault : Bool) (hk : Kept q s) : Kept q (State.blockStart s cause fault) := by
  unfold State.blockStart
  try dsimp only
  repeat' first
    | with_reducible assumption
    | with_reducible apply Kept.ite
    | with_reducible apply State.setF_kept
    | with_reducible apply State.setBit_kept
    | with_reducible apply State.bump_kept
    | with_reducible apply State.orphan_kept
    | with_reducible apply State.quiesceAll_kept
    | with_reducible apply State.dumpSkipped_kept
    | with_reducible apply State.dumpStart_kept
    | with_reducible apply State.discard_kept
    | with_reducible apply State.setBlock_kept
    | with_reducible apply State.blockDrain_kept
    | simp only [Kept.mk_iff]
    | with_reducible apply K5.of
    | with_reducible apply K5.step
    | with_reducible exact id
    | exact fun _ => rfl
    | split

theorem execBlock_kept {q : Q4} (s : State) (hk : Kept q s) : KeptO q (execBlock s) := by
  unfold execBlock
  try dsimp only
  repeat' first
    | with_reducible assumption
    | with_reducible apply KeptO.next
    | with_reducible apply KeptO.ite
    | with_reducible apply Kept.ite
    | with_reducible apply State.noteStart_kept
    | with_reducible apply State.blockStart_kept
    | simp only [Kept.mk_iff]
    | with_reducible apply K5.of
    | with_reducible apply K5.step
    | with_reducible exact id
    | exact fun _ => rfl
    | split
    | refine KeptP.of_eq (by with_reducible assumption) ?_
    | refine Kept.of_pair (by with_reducible assumption) ?_
    | (intro _; try dsimp only)

theorem execKeeperGraceExpire_kept {q : Q4} (s : State) (hk : Kept q s) : KeptO q (execKeeperGraceExpire s) := by
  unfold execKeeperGraceExpire
  try dsimp only
  repeat' first
    | with_reducible assumption
    | with_reducible apply KeptO.next
    | with_reducible apply KeptO.ite
    | with_reducible apply Kept.ite
    | with_reducible apply State.setBlock_kept
    | simp only [Kept.mk_iff]
    | with_reducible apply K5.of
    | with_reducible apply K5.step
    | with_reducible exact id
    | exact fun _ => rfl
    | split
    | refine KeptP.of_eq (by with_reducible assumption) ?_
    | refine Kept.of_pair (by with_reducible assumption) ?_
    | (intro _; try dsimp only)

theorem execBlockResetDrained_kept {q : Q4} (s : State) (hk : Kept q s) : KeptO q (execBlockResetDrained s) := by
  unfold execBlockResetDrained
  try dsimp only
  repeat' first
    | with_reducible assumption
    | with_reducible apply KeptO.next
    | with_reducible apply KeptO.ite
    | with_reducible apply Kept.ite
    | with_reducible apply State.engineAsk_kept
    | with_reducible apply State.genUp_kept
    | with_reducible apply State.setBlock_kept
    | (with_reducible apply Kept.foldl <;> first | (intro _ _ _; try dsimp only) | skip)
    | (with_reducible apply Kept.foldl_fst <;> first | (intro _ _ _; try dsimp only) | skip)
    | (with_reducible apply Kept.foldl_snd <;> first | (intro _ _ _; try dsimp only) | skip)
    | simp only [Kept.mk_iff]
    | with_reducible apply K5.of
    | with_reducible apply K5.step
    | with_reducible exact id
    | exact fun _ => rfl
    | split
    | refine KeptP.of_eq (by with_reducible assumption) ?_
    | refine Kept.of_pair (by with_reducible assumption) ?_
    | (intro _; try dsimp only)

theorem State.loseRest_kept {q : Q4} (s : State) (inP : BitVec 4 → Bool) (hk : Kept q s) : Kept q (State.loseRest s inP) := by
  unfold State.loseRest
  try dsimp only
  repeat' first
    | with_reducible assumption
    | with_reducible apply State.loseCtx_kept
    | (with_reducible apply Kept.foldl <;> first | (intro _ _ _; try dsimp only) | skip)
    | (with_reducible apply Kept.foldl_fst <;> first | (intro _ _ _; try dsimp only) | skip)
    | (with_reducible apply Kept.foldl_snd <;> first | (intro _ _ _; try dsimp only) | skip)
    | simp only [Kept.mk_iff]
    | with_reducible apply K5.of
    | with_reducible apply K5.step
    | with_reducible exact id
    | with_reducible exact Tbl.wf_filter
    | exact fun _ => rfl
    | split
    | (intro _; try dsimp only)

theorem State.destroyByReset_kept {q : Q4} (s : State) (p : BitVec 4) (hk : Kept q s) : Kept q (State.destroyByReset s p) := by
  unfold State.destroyByReset
  try dsimp only
  repeat' first
    | with_reducible assumption
    | with_reducible apply Kept.ite
    | with_reducible apply State.ctxLine1_kept
    | simp only [Kept.mk_iff]
    | with_reducible apply K5.of
    | with_reducible apply K5.step
    | with_reducible exact id
    | exact fun _ => rfl
    | split
    | refine KeptP.of_eq (by with_reducible assumption) ?_
    | refine Kept.of_pair (by with_reducible assumption) ?_
    | (intro _; try dsimp only)

theorem State.loadingOut_kept {q : Q4} (s : State) (inP : BitVec 4 → Bool) (hk : Kept q s) : Kept q (State.loadingOut s inP) := by
  unfold State.loadingOut
  try dsimp only
  repeat' first
    | with_reducible assumption
    | with_reducible apply Kept.ite
    | with_reducible apply State.read_kept
    | with_reducible apply State.freeSlot_kept
    | (with_reducible apply Kept.foldl <;> first | (intro _ _ _; try dsimp only) | skip)
    | (with_reducible apply Kept.foldl_fst <;> first | (intro _ _ _; try dsimp only) | skip)
    | (with_reducible apply Kept.foldl_snd <;> first | (intro _ _ _; try dsimp only) | skip)
    | split
    | (intro _; try dsimp only)

theorem State.slotsOut_kept {q : Q4} (s : State) (inP : BitVec 4 → Bool) (hk : Kept q s) : Kept q (State.slotsOut s inP) := by
  unfold State.slotsOut
  try dsimp only
  repeat' first
    | with_reducible assumption
    | with_reducible apply Kept.ite
    | with_reducible apply State.evict_kept
    | (with_reducible apply Kept.foldl <;> first | (intro _ _ _; try dsimp only) | skip)
    | split
    | (intro _; try dsimp only)

theorem State.cleanRecords_kept {q : Q4} (s : State) (inP : BitVec 4 → Bool) (hk : Kept q s) : Kept q (State.cleanRecords s inP) := by
  unfold State.cleanRecords
  try dsimp only
  repeat' first
    | with_reducible assumption
    | with_reducible apply State.loseRest_kept
    | with_reducible apply State.destroyByReset_kept
    | with_reducible apply State.loadingOut_kept
    | with_reducible apply State.slotsOut_kept
    | (with_reducible apply Kept.foldl <;> first | (intro _ _ _; try dsimp only) | skip)

theorem State.tideReset_kept {q : Q4} (s : State) (p : BitVec 4) (hk : Kept q s) : Kept q (State.tideReset s p) := by
  unfold State.tideReset
  try dsimp only
  repeat' first
    | with_reducible assumption
    | with_reducible apply State.wr_kept
    | with_reducible apply State.setF_kept
    | with_reducible apply State.setBit_kept
    | with_reducible apply State.tideRetire_kept

theorem execBlockResetPortsDone_kept {q : Q4} (s : State) (hk : Kept q s) : KeptO q (execBlockResetPortsDone s) := by
  unfold execBlockResetPortsDone
  try dsimp only
  repeat' first
    | with_reducible assumption
    | with_reducible apply KeptO.next
    | with_reducible apply KeptO.ite
    | with_reducible apply Kept.ite
    | with_reducible apply State.setBlock_kept
    | with_reducible apply State.cleanRecords_kept
    | simp only [Kept.mk_iff]
    | with_reducible apply K5.of
    | with_reducible apply K5.step
    | with_reducible exact id
    | exact fun _ => rfl
    | split
    | refine KeptP.of_eq (by with_reducible assumption) ?_
    | refine Kept.of_pair (by with_reducible assumption) ?_
    | (intro _; try dsimp only)

theorem State.audtCmdsEnd_kept {q : Q4} (s : State) (hk : Kept q s) : Kept q (State.audtCmdsEnd s) := by
  unfold State.audtCmdsEnd
  try dsimp only
  repeat' first
    | with_reducible assumption
    | with_reducible apply Kept.ite
    | with_reducible apply State.setF_kept
    | with_reducible apply State.setBit_kept
    | with_reducible apply State.digEnd_kept
    | (with_reducible apply Kept.foldl <;> first | (intro _ _ _; try dsimp only) | skip)
    | (with_reducible apply Kept.foldl_fst <;> first | (intro _ _ _; try dsimp only) | skip)
    | (with_reducible apply Kept.foldl_snd <;> first | (intro _ _ _; try dsimp only) | skip)
    | simp only [Kept.mk_iff]
    | with_reducible apply K5.of
    | with_reducible apply K5.step
    | with_reducible exact id
    | with_reducible exact Tbl.wf_filter
    | exact fun _ => rfl
    | split
    | (intro _; try dsimp only)

theorem State.atomEnd_kept {q : Q4} (s : State) (hk : Kept q s) : Kept q (State.atomEnd s) := by
  unfold State.atomEnd
  repeat' first
    | with_reducible assumption
    | with_reducible apply Kept.ite
    | with_reducible apply State.setBit_kept
    | with_reducible apply State.wr64_kept
    | split

theorem State.tmplCmdsEnd_kept {q : Q4} (s : State) (hk : Kept q s) : Kept q (State.tmplCmdsEnd s) := by
  unfold State.tmplCmdsEnd
  try dsimp only
  repeat' first
    | with_reducible assumption
    | with_reducible apply Kept.ite
    | with_reducible apply State.tmplEnd_kept
    | (with_reducible apply Kept.foldl <;> first | (intro _ _ _; try dsimp only) | skip)
    | (with_reducible apply Kept.foldl_fst <;> first | (intro _ _ _; try dsimp only) | skip)
    | (with_reducible apply Kept.foldl_snd <;> first | (intro _ _ _; try dsimp only) | skip)
    | simp only [Kept.mk_iff]
    | with_reducible apply K5.of
    | with_reducible apply K5.step
    | with_reducible exact id
    | with_reducible exact Tbl.wf_filter
    | exact fun _ => rfl
    | split
    | (intro _; try dsimp only)

theorem State.unitCmdsEnd_kept {q : Q4} (s : State) (hk : Kept q s) : Kept q (State.unitCmdsEnd s) := by
  unfold State.unitCmdsEnd
  repeat' first
    | with_reducible assumption
    | with_reducible apply State.audtCmdsEnd_kept
    | with_reducible apply State.atomEnd_kept
    | with_reducible apply State.tmplCmdsEnd_kept

theorem State.storesClear_kept {q : Q4} (s : State) (hk : Kept q s) : Kept q s.storesClear := by
  unfold State.storesClear
  simp only [Kept.mk_iff]
  with_reducible apply K5.step (h := hk)
  all_goals first
    | with_reducible exact id
    | exact fun _ => rfl
    | exact fun h => Tbl.wf_remap h

theorem State.regsClear_kept {q : Q4} (s : State) (hk : Kept q s) : Kept q (State.regsClear s) := by
  unfold State.regsClear
  try dsimp only
  repeat' first
    | with_reducible assumption
    | with_reducible apply State.setF_kept
    | simp only [Kept.mk_iff]
    | with_reducible apply K5.of
    | with_reducible apply K5.step
    | with_reducible exact id
    | with_reducible exact Tbl.wf_filter
    | exact fun _ => rfl
    | split
    | (intro _; try dsimp only)

theorem State.unitsReset_kept {q : Q4} (s : State) (hk : Kept q s) : Kept q (State.unitsReset s) := by
  unfold State.unitsReset
  repeat' first
    | with_reducible assumption
    | with_reducible apply State.beaconClear_kept
    | with_reducible apply State.unitCmdsEnd_kept
    | with_reducible apply State.storesClear_kept
    | with_reducible apply State.regsClear_kept

theorem State.alignDrop_kept {q : Q4} (s : State) (hk : Kept q s) : Kept q (State.alignDrop s) := by
  unfold State.alignDrop
  try dsimp only
  repeat' first
    | with_reducible assumption
    | with_reducible apply Kept.ite
    | with_reducible apply State.setF_kept
    | with_reducible apply State.timingBreakAll_kept
    | split

theorem State.alignAgain_kept {q : Q4} (s : State) (hk : Kept q s) : Kept q (State.alignAgain s) := by
  unfold State.alignAgain
  repeat' first
    | with_reducible assumption
    | with_reducible apply Kept.ite
    | with_reducible apply State.setF_kept
    | split

theorem State.countResets_kept {q : Q4} (s : State) (hk : Kept q s) : Kept q (State.countResets s) := by
  unfold State.countResets
  try dsimp only
  repeat' first
    | with_reducible assumption
    | with_reducible apply State.bumpF_kept
    | (with_reducible apply Kept.foldl <;> first | (intro _ _ _; try dsimp only) | skip)
    | (with_reducible apply Kept.foldl_fst <;> first | (intro _ _ _; try dsimp only) | skip)
    | (with_reducible apply Kept.foldl_snd <;> first | (intro _ _ _; try dsimp only) | skip)
    | simp only [Kept.mk_iff]
    | with_reducible apply K5.of
    | with_reducible apply K5.step
    | with_reducible exact id
    | with_reducible exact Tbl.wf_filter
    | exact fun _ => rfl
    | split
    | (intro _; try dsimp only)

theorem State.outOfService_kept {q : Q4} (s : State) (hk : Kept q s) : Kept q (State.outOfService s) := by
  unfold State.outOfService
  try dsimp only
  repeat' first
    | with_reducible assumption
    | with_reducible apply State.setBit_kept
    | with_reducible apply State.raise_kept
    | with_reducible apply State.aliveStop_kept
    | with_reducible apply State.setBlock_kept

theorem execBlockResetSettled_kept {q : Q4} (s : State) (hk : Kept q s) : KeptO q (execBlockResetSettled s) := by
  unfold execBlockResetSettled
  try dsimp only
  repeat' first
    | with_reducible assumption
    | with_reducible apply KeptO.next
    | with_reducible apply KeptO.ite
    | with_reducible apply Kept.ite
    | with_reducible apply State.setBit_kept
    | with_reducible apply State.pinsReload_kept
    | with_reducible apply State.setBlock_kept
    | with_reducible apply State.tideReset_kept
    | with_reducible apply State.unitsReset_kept
    | with_reducible apply State.alignDrop_kept
    | with_reducible apply State.countResets_kept
    | with_reducible apply State.outOfService_kept
    | (with_reducible apply Kept.foldl <;> first | (intro _ _ _; try dsimp only) | skip)
    | (with_reducible apply Kept.foldl_fst <;> first | (intro _ _ _; try dsimp only) | skip)
    | (with_reducible apply Kept.foldl_snd <;> first | (intro _ _ _; try dsimp only) | skip)
    | simp only [Kept.mk_iff]
    | with_reducible apply K5.of
    | with_reducible apply K5.step
    | with_reducible exact id
    | exact fun _ => rfl
    | split
    | refine KeptP.of_eq (by with_reducible assumption) ?_
    | refine Kept.of_pair (by with_reducible assumption) ?_
    | (intro _; try dsimp only)

theorem State.ctxCmdByReset_kept {q : Q4} (s : State) (p : BitVec 4) (hk : Kept q s) : Kept q (State.ctxCmdByReset s p) := by
  unfold State.ctxCmdByReset
  try dsimp only
  repeat' first
    | with_reducible assumption
    | with_reducible apply Kept.ite
    | with_reducible apply State.ctxCmdEnd_kept
    | simp only [Kept.mk_iff]
    | with_reducible apply K5.of
    | with_reducible apply K5.step
    | with_reducible exact id
    | exact fun _ => rfl
    | split
    | refine KeptP.of_eq (by with_reducible assumption) ?_
    | refine Kept.of_pair (by with_reducible assumption) ?_
    | (intro _; try dsimp only)

theorem State.partBack_kept {q : Q4} (s : State) (p : BitVec 4) (hk : Kept q s) : Kept q (State.partBack s p) := by
  unfold State.partBack
  try dsimp only
  repeat' first
    | with_reducible assumption
    | with_reducible apply Kept.ite
    | with_reducible apply State.wr_kept
    | with_reducible apply State.setF_kept
    | with_reducible apply State.setBit_kept
    | split

theorem State.portsApply_kept {q : Q4} (s : State) (inP : BitVec 4 → Bool) (hk : Kept q s) : Kept q (State.portsApply s inP) := by
  unfold State.portsApply
  try dsimp only
  repeat' first
    | with_reducible assumption
    | with_reducible apply Kept.ite
    | with_reducible apply State.engDefer_kept
    | with_reducible apply State.portChange_kept
    | (with_reducible apply Kept.foldl <;> first | (intro _ _ _; try dsimp only) | skip)
    | (with_reducible apply Kept.foldl_fst <;> first | (intro _ _ _; try dsimp only) | skip)
    | (with_reducible apply Kept.foldl_snd <;> first | (intro _ _ _; try dsimp only) | skip)
    | simp only [Kept.mk_iff]
    | with_reducible apply K5.of
    | with_reducible apply K5.step
    | with_reducible exact id
    | with_reducible exact Tbl.wf_filter
    | exact fun _ => rfl
    | split
    | refine KeptP.of_eq (by with_reducible assumption) ?_
    | refine Kept.of_pair (by with_reducible assumption) ?_
    | (intro _; try dsimp only)

theorem State.blockEnd_kept {q : Q4} (s : State) (hk : Kept q s) : Kept q (State.blockEnd s) := by
  unfold State.blockEnd
  try dsimp only
  repeat' first
    | with_reducible assumption
    | with_reducible apply State.setBit_kept
    | with_reducible apply State.quietRelease_kept
    | with_reducible apply State.setBlock_kept
    | with_reducible apply State.alignAgain_kept
    | with_reducible apply State.ctxCmdByReset_kept
    | with_reducible apply State.partBack_kept
    | with_reducible apply State.portsApply_kept
    | (with_reducible apply Kept.foldl <;> first | (intro _ _ _; try dsimp only) | skip)
    | (with_reducible apply Kept.foldl_fst <;> first | (intro _ _ _; try dsimp only) | skip)
    | (with_reducible apply Kept.foldl_snd <;> first | (intro _ _ _; try dsimp only) | skip)
    | simp only [Kept.mk_iff]
    | with_reducible apply K5.of
    | with_reducible apply K5.step
    | with_reducible exact id
    | exact fun _ => rfl
    | (intro _; try dsimp only)

theorem execInitDone_kept {q : Q4} (s : State) (hk : Kept q s) : KeptO q (execInitDone s) := by
  unfold execInitDone
  try dsimp only
  repeat' first
    | with_reducible assumption
    | with_reducible apply KeptO.next
    | with_reducible apply KeptO.ite
    | with_reducible apply Kept.ite
    | with_reducible apply State.setBit_kept
    | with_reducible apply State.blockEnd_kept
    | simp only [Kept.mk_iff]
    | with_reducible apply K5.of
    | with_reducible apply K5.step
    | with_reducible exact id
    | exact fun _ => rfl
    | split
    | refine KeptP.of_eq (by with_reducible assumption) ?_
    | refine Kept.of_pair (by with_reducible assumption) ?_
    | (intro _; try dsimp only)

theorem State.setPartRun_kept {q : Q4} (s : State) (p : BitVec 4) (r : Option ResetRun) (hk : Kept q s) : Kept q (State.setPartRun s p r) := by
  unfold State.setPartRun
  try dsimp only
  repeat' first
    | with_reducible assumption
    | simp only [Kept.mk_iff]
    | with_reducible apply K5.of
    | with_reducible apply K5.step
    | with_reducible exact id
    | exact Tbl.wf_set
    | exact fun _ => rfl
    | (intro _; try dsimp only)

theorem State.partDrain_kept {q : Q4} (s : State) (p : BitVec 4) (hk : Kept q s) : Kept q (State.partDrain s p) := by
  unfold State.partDrain
  try dsimp only
  repeat' first
    | with_reducible assumption
    | with_reducible apply Kept.ite
    | with_reducible apply State.setPartRun_kept
    | simp only [Kept.mk_iff]
    | with_reducible apply K5.of
    | with_reducible apply K5.step
    | with_reducible exact id
    | exact fun _ => rfl
    | split
    | refine KeptP.of_eq (by with_reducible assumption) ?_
    | refine Kept.of_pair (by with_reducible assumption) ?_
    | (intro _; try dsimp only)

theorem State.partStart_kept {q : Q4} (s : State) (p : BitVec 4) (c : Cause) (hk : Kept q s) : Kept q (State.partStart s p c) := by
  unfold State.partStart
  try dsimp only
  repeat' first
    | with_reducible assumption
    | with_reducible apply Kept.ite
    | with_reducible apply State.setF_kept
    | with_reducible apply State.setBit_kept
    | with_reducible apply State.settle_kept
    | with_reducible apply State.dumpSkipped_kept
    | with_reducible apply State.dumpStart_kept
    | with_reducible apply State.discard_kept
    | with_reducible apply State.setPartRun_kept
    | with_reducible apply State.partDrain_kept
    | split

theorem State.partNote_kept {q : Q4} (s : State) (p : BitVec 4) (hk : Kept q s) : Kept q (State.partNote s p) := by
  unfold State.partNote
  try dsimp only
  repeat' first
    | with_reducible assumption
    | with_reducible apply State.bump_kept
    | with_reducible apply State.noteStart_kept
    | simp only [Kept.mk_iff]
    | with_reducible apply K5.of
    | with_reducible apply K5.step
    | with_reducible exact id
    | with_reducible exact Tbl.wf_filter
    | exact fun _ => rfl
    | split
    | (intro _; try dsimp only)

theorem execPartition_kept {q : Q4} (p : BitVec 4) (s : State) (hk : Kept q s) : KeptO q (execPartition p s) := by
  unfold execPartition
  try dsimp only
  repeat' first
    | with_reducible assumption
    | with_reducible apply KeptO.next
    | with_reducible apply KeptO.ite
    | with_reducible apply Kept.ite
    | with_reducible apply State.blockStart_kept
    | with_reducible apply State.partStart_kept
    | with_reducible apply State.partNote_kept
    | simp only [Kept.mk_iff]
    | with_reducible apply K5.of
    | with_reducible apply K5.step
    | with_reducible exact id
    | exact fun _ => rfl
    | split
    | refine KeptP.of_eq (by with_reducible assumption) ?_
    | refine Kept.of_pair (by with_reducible assumption) ?_
    | (intro _; try dsimp only)

theorem execDumpDone_kept {q : Q4} (mtag : BitVec 8) (gen : BitVec 4) (err : Bool) (s : State) (hk : Kept q s) : KeptO q (execDumpDone mtag gen err s) := by
  unfold execDumpDone
  try dsimp only
  repeat' first
    | with_reducible assumption
    | with_reducible apply KeptO.next
    | with_reducible apply KeptO.ite
    | with_reducible apply Kept.ite
    | with_reducible apply State.answer_kept
    | with_reducible apply State.stage_kept
    | with_reducible apply State.setDump_kept
    | with_reducible apply State.dumpLines_kept
    | with_reducible apply State.dumpOver_kept
    | with_reducible apply State.blockDrain_kept
    | with_reducible apply State.partDrain_kept
    | simp only [Kept.mk_iff]
    | with_reducible apply K5.of
    | with_reducible apply K5.step
    | with_reducible exact id
    | exact fun _ => rfl
    | split
    | refine KeptP.of_eq (by with_reducible assumption) ?_
    | refine Kept.of_pair (by with_reducible assumption) ?_
    | (intro _; try dsimp only)

theorem execPartResetDrained_kept {q : Q4} (p : BitVec 4) (s : State) (hk : Kept q s) : KeptO q (execPartResetDrained p s) := by
  unfold execPartResetDrained
  try dsimp only
  repeat' first
    | with_reducible assumption
    | with_reducible apply KeptO.next
    | with_reducible apply KeptO.ite
    | with_reducible apply Kept.ite
    | with_reducible apply State.drainPorts_kept
    | with_reducible apply State.engineAsk_kept
    | with_reducible apply State.genUp_kept
    | with_reducible apply State.setPartRun_kept
    | (with_reducible apply Kept.foldl <;> first | (intro _ _ _; try dsimp only) | skip)
    | (with_reducible apply Kept.foldl_fst <;> first | (intro _ _ _; try dsimp only) | skip)
    | (with_reducible apply Kept.foldl_snd <;> first | (intro _ _ _; try dsimp only) | skip)
    | simp only [Kept.mk_iff]
    | with_reducible apply K5.of
    | with_reducible apply K5.step
    | with_reducible exact id
    | with_reducible exact Tbl.wf_filter
    | exact fun _ => rfl
    | split
    | refine KeptP.of_eq (by with_reducible assumption) ?_
    | refine Kept.of_pair (by with_reducible assumption) ?_
    | (intro _; try dsimp only)

theorem State.streamReset_kept {q : Q4} (s : State) (n : BitVec 14) (hk : Kept q s) : Kept q (State.streamReset s n) := by
  unfold State.streamReset
  try dsimp only
  repeat' first
    | with_reducible assumption
    | with_reducible apply State.updStream_kept
    | with_reducible apply State.unqueue_kept
    | simp only [Kept.mk_iff]
    | with_reducible apply K5.of
    | with_reducible apply K5.step
    | with_reducible exact id
    | exact fun _ => rfl
    | (intro _; try dsimp only)

theorem State.fevsBack_kept {q : Q4} (s : State) (p : BitVec 4) (hk : Kept q s) : Kept q (State.fevsBack s p) := by
  unfold State.fevsBack
  try dsimp only
  repeat' first
    | with_reducible assumption
    | with_reducible apply State.fevBack_kept
    | (with_reducible apply Kept.foldl <;> first | (intro _ _ _; try dsimp only) | skip)
    | (with_reducible apply Kept.foldl_fst <;> first | (intro _ _ _; try dsimp only) | skip)
    | (with_reducible apply Kept.foldl_snd <;> first | (intro _ _ _; try dsimp only) | skip)
    | simp only [Kept.mk_iff]
    | with_reducible apply K5.of
    | with_reducible apply K5.step
    | with_reducible exact id
    | with_reducible exact Tbl.wf_filter
    | exact fun _ => rfl
    | split
    | refine KeptP.of_eq (by with_reducible assumption) ?_
    | refine Kept.of_pair (by with_reducible assumption) ?_
    | (intro _; try dsimp only)

theorem State.partClean_kept {q : Q4} (s : State) (p : BitVec 4) (hk : Kept q s) : Kept q (State.partClean s p) := by
  unfold State.partClean
  try dsimp only
  repeat' first
    | with_reducible assumption
    | with_reducible apply State.cleanRecords_kept
    | with_reducible apply State.tideReset_kept
    | with_reducible apply State.streamReset_kept
    | with_reducible apply State.fevsBack_kept
    | (with_reducible apply Kept.foldl <;> first | (intro _ _ _; try dsimp only) | skip)
    | (with_reducible apply Kept.foldl_fst <;> first | (intro _ _ _; try dsimp only) | skip)
    | (with_reducible apply Kept.foldl_snd <;> first | (intro _ _ _; try dsimp only) | skip)
    | exact coresOk_remap (fun _ h => h)
    | simp only [Kept.mk_iff]
    | with_reducible apply K5.of
    | with_reducible apply K5.step
    | with_reducible exact id
    | with_reducible exact Tbl.wf_filter
    | exact fun h => Tbl.wf_remap h
    | exact fun _ => rfl
    | split
    | (intro _; try dsimp only)

theorem execPartResetPortsDone_kept {q : Q4} (p : BitVec 4) (s : State) (hk : Kept q s) : KeptO q (execPartResetPortsDone p s) := by
  unfold execPartResetPortsDone
  try dsimp only
  repeat' first
    | with_reducible assumption
    | with_reducible apply KeptO.next
    | with_reducible apply KeptO.ite
    | with_reducible apply Kept.ite
    | with_reducible apply State.drainPorts_kept
    | with_reducible apply State.setPartRun_kept
    | with_reducible apply State.partClean_kept
    | simp only [Kept.mk_iff]
    | with_reducible apply K5.of
    | with_reducible apply K5.step
    | with_reducible exact id
    | exact fun _ => rfl
    | split
    | refine KeptP.of_eq (by with_reducible assumption) ?_
    | refine Kept.of_pair (by with_reducible assumption) ?_
    | (intro _; try dsimp only)

theorem execPartResetDone_kept {q : Q4} (p : BitVec 4) (s : State) (hk : Kept q s) : KeptO q (execPartResetDone p s) := by
  unfold execPartResetDone
  try dsimp only
  repeat' first
    | with_reducible assumption
    | exact KeptO.fault
    | exact KeptO.refused
    | with_reducible apply KeptO.next
    | with_reducible apply KeptO.ite
    | with_reducible apply Kept.ite
    | with_reducible apply State.setBit_kept
    | with_reducible apply State.bumpF_kept
    | with_reducible apply State.tblStart_kept
    | with_reducible apply State.quietRelease_kept
    | with_reducible apply State.ctxCmdByReset_kept
    | with_reducible apply State.partBack_kept
    | with_reducible apply State.portsApply_kept
    | with_reducible apply State.setPartRun_kept
    | simp only [Kept.mk_iff]
    | with_reducible apply K5.of
    | with_reducible apply K5.step
    | with_reducible exact id
    | with_reducible exact Tbl.wf_filter
    | exact fun _ => rfl
    | split
    | refine KeptP.of_eq (by with_reducible assumption) ?_
    | refine Kept.of_pair (by with_reducible assumption) ?_
    | (intro _; try dsimp only)

theorem State.rstCmd_kept {q : Q4} (s : State) (op : Nat) (hk : Kept q s) : Kept q (State.rstCmd s op) := by
  unfold State.rstCmd
  try dsimp only
  repeat' first
    | with_reducible assumption
    | with_reducible apply Kept.ite
    | with_reducible apply State.wantPart_kept
    | with_reducible apply State.wantBlock_kept
    | with_reducible apply State.rstErr_kept
    | with_reducible apply State.portCmd_kept
    | with_reducible apply State.blockDrain_kept
    | simp only [Kept.mk_iff]
    | with_reducible apply K5.of
    | with_reducible apply K5.step
    | with_reducible exact id
    | exact fun _ => rfl
    | split
    | refine KeptP.of_eq (by with_reducible assumption) ?_
    | refine Kept.of_pair (by with_reducible assumption) ?_
    | (intro _; try dsimp only)

/-! Functions of Machine/Power.lean. -/

theorem State.landFlush_kept {q : Q4} (s : State) (hk : Kept q s) : Kept q (State.landFlush s) := by
  unfold State.landFlush
  try dsimp only
  repeat' first
    | with_reducible assumption
    | with_reducible apply Kept.ite
    | with_reducible apply State.fevBack_kept
    | with_reducible apply State.message_kept
    | (with_reducible apply Kept.foldl <;> first | (intro _ _ _; try dsimp only) | skip)
    | (with_reducible apply Kept.foldl_fst <;> first | (intro _ _ _; try dsimp only) | skip)
    | (with_reducible apply Kept.foldl_snd <;> first | (intro _ _ _; try dsimp only) | skip)
    | simp only [Kept.mk_iff]
    | with_reducible apply K5.of
    | with_reducible apply K5.step
    | with_reducible exact id
    | with_reducible exact Tbl.wf_filter
    | exact fun _ => rfl
    | split
    | refine KeptP.of_eq (by with_reducible assumption) ?_
    | refine Kept.of_pair (by with_reducible assumption) ?_
    | (intro _; try dsimp only)

theorem State.landRest_kept {q : Q4} (s : State) (hk : Kept q s) : Kept q (State.landRest s) := by
  unfold State.landRest
  try dsimp only
  repeat' first
    | with_reducible assumption
    | with_reducible apply Kept.ite
    | with_reducible apply State.landFlush_kept
    | simp only [Kept.mk_iff]
    | with_reducible apply K5.of
    | with_reducible apply K5.step
    | with_reducible exact id
    | with_reducible exact Tbl.wf_filter
    | exact fun _ => rfl
    | split
    | (intro _; try dsimp only)

theorem State.quietTick_kept {q : Q4} (s : State) (hk : Kept q s) : Kept q (State.quietTick s) := by
  unfold State.quietTick
  try dsimp only
  repeat' first
    | with_reducible assumption
    | with_reducible apply Kept.ite
    | with_reducible apply State.landRest_kept
    | simp only [Kept.mk_iff]
    | with_reducible apply K5.of
    | with_reducible apply K5.step
    | with_reducible exact id
    | with_reducible exact Tbl.wf_filter
    | exact fun _ => rfl
    | split
    | (intro _; try dsimp only)

theorem execIdleEntry_kept {q : Q4} (s : State) (hk : Kept q s) : KeptO q (execIdleEntry s) := by
  unfold execIdleEntry
  try dsimp only
  repeat' first
    | with_reducible assumption
    | with_reducible apply KeptO.next
    | with_reducible apply KeptO.ite
    | with_reducible apply Kept.ite
    | with_reducible apply State.timingBreakAll_kept
    | simp only [Kept.mk_iff]
    | with_reducible apply K5.of
    | with_reducible apply K5.step
    | with_reducible exact id
    | exact fun _ => rfl
    | split

theorem execIdleExit_kept {q : Q4} (s : State) (hk : Kept q s) : KeptO q (execIdleExit s) := by
  unfold execIdleExit
  repeat' first
    | with_reducible assumption
    | with_reducible apply KeptO.next
    | with_reducible apply State.idleExit_kept

theorem State.updDom_kept {q : Q4} (s : State) (d : Nat) (f : Dom → Dom) (hk : Kept q s) : Kept q (State.updDom s d f) := by
  unfold State.updDom
  try dsimp only
  repeat' first
    | with_reducible assumption
    | simp only [Kept.mk_iff]
    | with_reducible apply K5.of
    | with_reducible apply K5.step
    | with_reducible exact id
    | exact Tbl.wf_set
    | exact fun _ => rfl
    | (intro _; try dsimp only)

theorem State.domOn_kept {q : Q4} (s : State) (d : Nat) (hk : Kept q s) : Kept q (State.domOn s d) := by
  unfold State.domOn
  try dsimp only
  repeat' first
    | with_reducible assumption
    | with_reducible apply Kept.ite
    | with_reducible apply State.updDom_kept
    | simp only [Kept.mk_iff]
    | with_reducible apply K5.of
    | with_reducible apply K5.step
    | with_reducible exact id
    | exact fun _ => rfl
    | split
    | (intro _; try dsimp only)

theorem State.domOff_kept {q : Q4} (s : State) (keep : Bool) (d : Nat) (hk : Kept q s) : Kept q (State.domOff s keep d) := by
  unfold State.domOff
  try dsimp only
  repeat' first
    | with_reducible assumption
    | with_reducible apply State.updDom_kept
    | simp only [Kept.mk_iff]
    | with_reducible apply K5.of
    | with_reducible apply K5.step
    | with_reducible exact id
    | exact fun _ => rfl
    | (intro _; try dsimp only)

theorem State.pwrErr_kept {q : Q4} (s : State) (e : BitVec 4) (hk : Kept q s) : Kept q (State.pwrErr s e) := by
  unfold State.pwrErr
  repeat' first
    | with_reducible assumption
    | with_reducible apply State.setF_kept

theorem State.entryStart_kept {q : Q4} (s : State) (depth : Depth) (cmd : Bool) (hk : Kept q s) : Kept q (State.entryStart s depth cmd) := by
  unfold State.entryStart
  try dsimp only
  repeat' first
    | with_reducible assumption
    | with_reducible apply State.timingBreakAll_kept
    | with_reducible apply State.landFlush_kept
    | simp only [Kept.mk_iff]
    | with_reducible apply K5.of
    | with_reducible apply K5.step
    | with_reducible exact id
    | exact fun _ => rfl

theorem State.pwrCmd_kept {q : Q4} (s : State) (op : Nat) (hk : Kept q s) : Kept q (State.pwrCmd s op) := by
  unfold State.pwrCmd
  repeat' first
    | with_reducible assumption
    | with_reducible apply Kept.ite
    | with_reducible apply State.pwrErr_kept
    | with_reducible apply State.entryStart_kept
    | split

theorem execAutoDrowse_kept {q : Q4} (s : State) (hk : Kept q s) : KeptO q (execAutoDrowse s) := by
  unfold execAutoDrowse
  repeat' first
    | with_reducible assumption
    | with_reducible apply KeptO.next
    | with_reducible apply KeptO.ite
    | with_reducible apply Kept.ite
    | with_reducible apply State.entryStart_kept
    | split

theorem State.entryAbort_kept {q : Q4} (s : State) (hk : Kept q s) : Kept q (State.entryAbort s) := by
  unfold State.entryAbort
  try dsimp only
  repeat' first
    | with_reducible assumption
    | with_reducible apply Kept.ite
    | with_reducible apply State.bump_kept
    | with_reducible apply State.setErr_kept
    | with_reducible apply State.timingBreakAll_kept
    | with_reducible apply State.pwrErr_kept
    | simp only [Kept.mk_iff]
    | with_reducible apply K5.of
    | with_reducible apply K5.step
    | with_reducible exact id
    | exact fun _ => rfl
    | split

theorem execEntryFlushDone_kept {q : Q4} (s : State) (hk : Kept q s) : KeptO q (execEntryFlushDone s) := by
  unfold execEntryFlushDone
  try dsimp only
  repeat' first
    | with_reducible assumption
    | with_reducible apply KeptO.next
    | with_reducible apply KeptO.ite
    | with_reducible apply Kept.ite
    | with_reducible apply State.wr_kept
    | with_reducible apply State.runEnds_kept
    | with_reducible apply State.alignDrop_kept
    | with_reducible apply State.domOff_kept
    | (with_reducible apply Kept.foldl <;> first | (intro _ _ _; try dsimp only) | skip)
    | simp only [Kept.mk_iff]
    | with_reducible apply K5.of
    | with_reducible apply K5.step
    | with_reducible exact id
    | exact fun _ => rfl
    | split

theorem State.waveOn_kept {q : Q4} (s : State) (w : Nat) (hk : Kept q s) : Kept q (State.waveOn s w) := by
  unfold State.waveOn
  try dsimp only
  repeat' first
    | with_reducible assumption
    | with_reducible apply State.domOn_kept
    | (with_reducible apply Kept.foldl <;> first | (intro _ _ _; try dsimp only) | skip)
    | simp only [Kept.mk_iff]
    | with_reducible apply K5.of
    | with_reducible apply K5.step
    | with_reducible exact id
    | exact fun _ => rfl

theorem State.wakeStart_kept {q : Q4} (s : State) (cause : Nat) (hk : Kept q s) : Kept q (State.wakeStart s cause) := by
  unfold State.wakeStart
  try dsimp only
  repeat' first
    | with_reducible assumption
    | with_reducible apply Kept.ite
    | with_reducible apply State.wr_kept
    | with_reducible apply State.setF_kept
    | with_reducible apply State.waveOn_kept
    | simp only [Kept.mk_iff]
    | with_reducible apply K5.of
    | with_reducible apply K5.step
    | with_reducible exact id
    | exact fun _ => rfl
    | split

theorem State.wakeBy_kept {q : Q4} (s : State) (cause : Nat) (hk : Kept q s) : Kept q (State.wakeBy s cause) := by
  unfold State.wakeBy
  try dsimp only
  repeat' first
    | with_reducible assumption
    | with_reducible apply Kept.ite
    | with_reducible apply State.wakeStart_kept
    | simp only [Kept.mk_iff]
    | with_reducible apply K5.of
    | with_reducible apply K5.step
    | with_reducible exact id
    | exact fun _ => rfl
    | split

theorem execWake_kept {q : Q4} (cause : BitVec 4) (s : State) (hk : Kept q s) : KeptO q (execWake cause s) := by
  unfold execWake
  repeat' first
    | with_reducible assumption
    | with_reducible apply KeptO.next
    | with_reducible apply State.wakeBy_kept

theorem execWakeTimer_kept {q : Q4} (s : State) (hk : Kept q s) : KeptO q (execWakeTimer s) := by
  unfold execWakeTimer
  repeat' first
    | with_reducible assumption
    | with_reducible apply KeptO.next
    | with_reducible apply State.wakeBy_kept

theorem State.drowseInit_kept {q : Q4} (s : State) (hk : Kept q s) : Kept q (State.drowseInit s) := by
  unfold State.drowseInit
  try dsimp only
  repeat' first
    | with_reducible assumption
    | with_reducible apply State.unitCmdsEnd_kept
    | with_reducible apply State.regsClear_kept
    | simp only [Kept.mk_iff]
    | with_reducible apply K5.of
    | with_reducible apply K5.step
    | with_reducible exact id
    | with_reducible exact Tbl.wf_filter
    | exact fun _ => rfl
    | split
    | (intro _; try dsimp only)

theorem State.offInit_kept {q : Q4} (s : State) (hk : Kept q s) : Kept q (State.offInit s) := by
  unfold State.offInit
  try dsimp only
  repeat' first
    | with_reducible assumption
    | with_reducible apply State.partBack_kept
    | with_reducible apply State.drowseInit_kept
    | (with_reducible apply Kept.foldl <;> first | (intro _ _ _; try dsimp only) | skip)
    | (with_reducible apply Kept.foldl_fst <;> first | (intro _ _ _; try dsimp only) | skip)
    | (with_reducible apply Kept.foldl_snd <;> first | (intro _ _ _; try dsimp only) | skip)
    | simp only [Kept.mk_iff]
    | with_reducible apply K5.of
    | with_reducible apply K5.step
    | with_reducible exact id
    | with_reducible exact Tbl.wf_filter
    | exact fun _ => rfl
    | split
    | (intro _; try dsimp only)

theorem State.resync_kept {q : Q4} (s : State) (hk : Kept q s) : Kept q (State.resync s) := by
  unfold State.resync
  try dsimp only
  repeat' first
    | with_reducible assumption
    | with_reducible apply State.issueFap_kept
    | with_reducible apply State.mirrorWrite_kept
    | with_reducible apply State.pollIssue_kept
    | with_reducible apply Kept.ite
    | (with_reducible apply Kept.foldl <;> first | (intro _ _ _; try dsimp only) | skip)
    | (with_reducible apply Kept.foldl_fst <;> first | (intro _ _ _; try dsimp only) | skip)
    | (with_reducible apply Kept.foldl_snd <;> first | (intro _ _ _; try dsimp only) | skip)
    | simp only [Kept.mk_iff]
    | with_reducible apply K5.of
    | with_reducible apply K5.step
    | with_reducible exact id
    | with_reducible exact Tbl.wf_filter
    | exact fun _ => rfl
    | split
    | (intro _; try dsimp only)

theorem State.linkFresh_kept {q : Q4} (s : State) (k : Nat) (hk : Kept q s) : Kept q (State.linkFresh s k) := by
  unfold State.linkFresh
  try dsimp only
  repeat' first
    | with_reducible assumption
    | simp only [Kept.mk_iff]
    | with_reducible apply K5.of
    | with_reducible apply K5.step
    | with_reducible exact id
    | with_reducible exact Tbl.wf_filter
    | exact fun _ => rfl
    | split
    | (intro _; try dsimp only)

theorem State.sampleDepth_kept {q : Q4} (s : State) (n : Nat) (hk : Kept q s) : Kept q (State.sampleDepth s n) := by
  unfold State.sampleDepth
  try dsimp only
  repeat' first
    | with_reducible assumption
    | with_reducible apply State.wr_kept
    | with_reducible apply State.used_kept

theorem State.domainsUp_kept {q : Q4} (s : State) (hk : Kept q s) : Kept q (State.domainsUp s) := by
  unfold State.domainsUp
  try dsimp only
  repeat' first
    | with_reducible assumption
    | with_reducible apply State.setF_kept
    | with_reducible apply State.pinsReload_kept
    | with_reducible apply State.scrubPass_kept
    | with_reducible apply State.drowseInit_kept
    | with_reducible apply State.offInit_kept
    | with_reducible apply State.resync_kept
    | with_reducible apply State.linkFresh_kept
    | with_reducible apply State.sampleDepth_kept
    | (with_reducible apply Kept.foldl <;> first | (intro _ _ _; try dsimp only) | skip)
    | (with_reducible apply Kept.foldl_fst <;> first | (intro _ _ _; try dsimp only) | skip)
    | (with_reducible apply Kept.foldl_snd <;> first | (intro _ _ _; try dsimp only) | skip)
    | simp only [Kept.mk_iff]
    | with_reducible apply K5.of
    | with_reducible apply K5.step
    | with_reducible exact id
    | with_reducible exact Tbl.wf_filter
    | exact fun _ => rfl
    | split
    | refine Kept.of_pair (by with_reducible assumption) ?_
    | (intro _; try dsimp only)

theorem State.waveGo_kept {q : Q4} (s : State) (hk : Kept q s) : ∀ n, Kept q (s.waveGo n) := by
  intro n
  induction n generalizing s with
  | zero => exact hk
  | succ n ih =>
    unfold State.waveGo
    dsimp only
    repeat' first
      | with_reducible assumption
      | with_reducible apply ih
      | with_reducible apply State.domainsUp_kept
      | with_reducible apply State.waveOn_kept
      | with_reducible apply State.beaconRestore_kept
      | with_reducible apply State.regsClear_kept
      | split

theorem State.waveNext_kept {q : Q4} (s : State) (hk : Kept q s) : Kept q (State.waveNext s) := by
  unfold State.waveNext
  repeat' first
    | with_reducible assumption
    | with_reducible apply State.waveGo_kept

theorem State.entryUndo_kept {q : Q4} (s : State) (hk : Kept q s) : Kept q (State.entryUndo s) := by
  unfold State.entryUndo
  try dsimp only
  repeat' first
    | with_reducible assumption
    | with_reducible apply Kept.ite
    | with_reducible apply State.beaconRestore_kept
    | with_reducible apply State.regsClear_kept
    | with_reducible apply State.domOn_kept
    | with_reducible apply State.pwrErr_kept
    | with_reducible apply State.waveNext_kept
    | (with_reducible apply Kept.foldl <;> first | (intro _ _ _; try dsimp only) | skip)
    | (with_reducible apply Kept.foldl_fst <;> first | (intro _ _ _; try dsimp only) | skip)
    | (with_reducible apply Kept.foldl_snd <;> first | (intro _ _ _; try dsimp only) | skip)
    | simp only [Kept.mk_iff]
    | with_reducible apply K5.of
    | with_reducible apply K5.step
    | with_reducible exact id
    | with_reducible exact Tbl.wf_filter
    | exact fun _ => rfl
    | split
    | (intro _; try dsimp only)

theorem State.ackRise_kept {q : Q4} (s : State) (d : Nat) (hk : Kept q s) : Kept q (State.ackRise s d) := by
  unfold State.ackRise
  try dsimp only
  repeat' first
    | with_reducible assumption
    | with_reducible apply Kept.ite
    | with_reducible apply State.wr_kept
    | with_reducible apply State.stopBlock_kept
    | with_reducible apply State.updDom_kept
    | simp only [Kept.mk_iff]
    | with_reducible apply K5.of
    | with_reducible apply K5.step
    | with_reducible exact id
    | exact fun _ => rfl
    | split
    | (intro _; try dsimp only)

theorem State.ackFall_kept {q : Q4} (s : State) (d : Nat) (hk : Kept q s) : Kept q (State.ackFall s d) := by
  unfold State.ackFall
  try dsimp only
  repeat' first
    | with_reducible assumption
    | with_reducible apply Kept.ite
    | with_reducible apply State.wr_kept
    | with_reducible apply State.bump_kept
    | with_reducible apply State.updDom_kept
    | with_reducible apply State.wakeStart_kept
    | simp only [Kept.mk_iff]
    | with_reducible apply K5.of
    | with_reducible apply K5.step
    | with_reducible exact id
    | exact fun _ => rfl
    | split
    | (intro _; try dsimp only)

theorem State.pwrAck_kept {q : Q4} (s : State) (d : Nat) (level : Bool) (hk : Kept q s) : Kept q (State.pwrAck s d level) := by
  unfold State.pwrAck
  try dsimp only
  repeat' first
    | with_reducible assumption
    | with_reducible apply Kept.ite
    | with_reducible apply State.raise_kept
    | with_reducible apply State.updDom_kept
    | with_reducible apply State.waveNext_kept
    | with_reducible apply State.ackRise_kept
    | with_reducible apply State.ackFall_kept
    | simp only [Kept.mk_iff]
    | with_reducible apply K5.of
    | with_reducible apply K5.step
    | with_reducible exact id
    | exact fun _ => rfl
    | split
    | (intro _; try dsimp only)

theorem execAckTimeout_kept {q : Q4} (dom : BitVec 5) (s : State) (hk : Kept q s) : KeptO q (execAckTimeout dom s) := by
  unfold execAckTimeout
  try dsimp only
  repeat' first
    | with_reducible assumption
    | with_reducible apply KeptO.next
    | with_reducible apply KeptO.ite
    | with_reducible apply Kept.ite
    | with_reducible apply State.setErr_kept
    | with_reducible apply State.intake_kept
    | with_reducible apply State.raise_kept
    | with_reducible apply State.updDom_kept
    | with_reducible apply State.entryUndo_kept
    | simp only [Kept.mk_iff]
    | with_reducible apply K5.of
    | with_reducible apply K5.step
    | with_reducible exact id
    | exact fun _ => rfl
    | split
    | (intro _; try dsimp only)

/-! Functions of Machine/Clocks.lean. -/

theorem execClockMeasure_kept {q : Q4} (mhz : List (BitVec 12)) (s : State) (hk : Kept q s) : KeptO q (execClockMeasure mhz s) := by
  unfold execClockMeasure
  try dsimp only
  repeat' first
    | with_reducible assumption
    | exact KeptO.fault
    | with_reducible apply KeptO.next
    | with_reducible apply KeptO.ite
    | with_reducible apply Kept.ite
    | with_reducible apply State.wr_kept
    | with_reducible apply State.setErr_kept
    | with_reducible apply State.raise_kept
    | (with_reducible apply Kept.foldl <;> first | (intro _ _ _; try dsimp only) | skip)
    | split
    | refine Kept.of_pair (by with_reducible assumption) ?_
    | (intro _; try dsimp only)

theorem State.setAlign_kept {q : Q4} (s : State) (v : BitVec 2) (hk : Kept q s) : Kept q (State.setAlign s v) := by
  unfold State.setAlign
  repeat' first
    | with_reducible assumption
    | with_reducible apply State.setF_kept

theorem State.alignFail_kept {q : Q4} (s : State) (mask : BitVec 12) (hk : Kept q s) : Kept q (State.alignFail s mask) := by
  unfold State.alignFail
  try dsimp only
  repeat' first
    | with_reducible assumption
    | with_reducible apply State.setF_kept
    | with_reducible apply State.bump_kept
    | with_reducible apply State.setErr_kept
    | with_reducible apply State.raise_kept
    | with_reducible apply State.setAlign_kept

theorem execAlignReq_kept {q : Q4} (level : Bool) (s : State) (hk : Kept q s) : KeptO q (execAlignReq level s) := by
  unfold execAlignReq
  try dsimp only
  repeat' first
    | with_reducible assumption
    | with_reducible apply KeptO.next
    | with_reducible apply KeptO.ite
    | with_reducible apply Kept.ite
    | with_reducible apply State.setBit_kept
    | with_reducible apply State.timingBreakAll_kept
    | with_reducible apply State.setAlign_kept
    | with_reducible apply State.alignFail_kept
    | split

theorem execAlignCheckDone_kept {q : Q4} (failMask : BitVec 12) (s : State) (hk : Kept q s) : KeptO q (execAlignCheckDone failMask s) := by
  unfold execAlignCheckDone
  repeat' first
    | with_reducible assumption
    | with_reducible apply KeptO.next
    | with_reducible apply KeptO.ite
    | with_reducible apply Kept.ite
    | with_reducible apply State.setF_kept
    | with_reducible apply State.setAlign_kept
    | with_reducible apply State.alignFail_kept
    | split

theorem execAlignLost_kept {q : Q4} (failMask : BitVec 12) (s : State) (hk : Kept q s) : KeptO q (execAlignLost failMask s) := by
  unfold execAlignLost
  try dsimp only
  repeat' first
    | with_reducible assumption
    | with_reducible apply KeptO.next
    | with_reducible apply KeptO.ite
    | with_reducible apply Kept.ite
    | with_reducible apply State.setF_kept
    | with_reducible apply State.bump_kept
    | with_reducible apply State.setErr_kept
    | with_reducible apply State.timingBreakAll_kept
    | with_reducible apply State.raise_kept
    | with_reducible apply State.setAlign_kept
    | split

theorem State.viewLoad_kept {q : Q4} (s : State) (hk : Kept q s) : Kept q (State.viewLoad s) := by
  unfold State.viewLoad
  try dsimp only
  repeat' first
    | with_reducible assumption
    | with_reducible apply Kept.ite
    | simp only [Kept.mk_iff]
    | with_reducible apply K5.of
    | with_reducible apply K5.step
    | with_reducible exact id
    | exact fun _ => rfl
    | split

theorem State.setTime_kept {q : Q4} (s : State) (t : Dword) (hk : Kept q s) : Kept q (State.setTime s t) := by
  unfold State.setTime
  try dsimp only
  repeat' first
    | with_reducible assumption
    | with_reducible apply State.viewLoad_kept
    | simp only [Kept.mk_iff]
    | with_reducible apply K5.of
    | with_reducible apply K5.step
    | with_reducible exact id
    | exact fun _ => rfl

theorem State.slewing_kept {q : Q4} (s : State) (hk : Kept q s) : Kept q (State.slewing s) := by
  unfold State.slewing
  repeat' first
    | with_reducible assumption
    | with_reducible apply State.setBit_kept

theorem execDeviceTimeTick_kept {q : Q4} (s : State) (hk : Kept q s) : KeptO q (execDeviceTimeTick s) := by
  unfold execDeviceTimeTick
  try dsimp only
  repeat' first
    | with_reducible assumption
    | with_reducible apply KeptO.next
    | with_reducible apply KeptO.ite
    | with_reducible apply Kept.ite
    | with_reducible apply State.setErr_kept
    | with_reducible apply State.discTick_kept
    | with_reducible apply State.setTime_kept
    | with_reducible apply State.slewing_kept
    | simp only [Kept.mk_iff]
    | with_reducible apply K5.of
    | with_reducible apply K5.step
    | with_reducible exact id
    | exact fun _ => rfl
    | split
    | refine KeptP.of_eq (by with_reducible assumption) ?_
    | refine Kept.of_pair (by with_reducible assumption) ?_
    | (intro _; try dsimp only)

theorem State.correct_kept {q : Q4} (s : State) (off : Int) (hk : Kept q s) : Kept q (State.correct s off) := by
  unfold State.correct
  try dsimp only
  repeat' first
    | with_reducible assumption
    | with_reducible apply Kept.ite
    | with_reducible apply State.setBit_kept
    | with_reducible apply State.setErr_kept
    | simp only [Kept.mk_iff]
    | with_reducible apply K5.of
    | with_reducible apply K5.step
    | with_reducible exact id
    | exact fun _ => rfl
    | split

theorem execTimeSync_kept {q : Q4} (s : State) (hk : Kept q s) : KeptO q (execTimeSync s) := by
  unfold execTimeSync
  try dsimp only
  repeat' first
    | with_reducible assumption
    | with_reducible apply KeptO.next
    | with_reducible apply KeptO.ite
    | with_reducible apply Kept.ite
    | with_reducible apply State.wr_kept
    | with_reducible apply State.setBit_kept
    | with_reducible apply State.bump_kept
    | with_reducible apply State.wr64_kept
    | with_reducible apply State.slewing_kept
    | with_reducible apply State.correct_kept
    | simp only [Kept.mk_iff]
    | with_reducible apply K5.of
    | with_reducible apply K5.step
    | with_reducible exact id
    | exact fun _ => rfl
    | split

theorem execSyncLost_kept {q : Q4} (s : State) (hk : Kept q s) : KeptO q (execSyncLost s) := by
  unfold execSyncLost
  repeat' first
    | with_reducible assumption
    | with_reducible apply KeptO.next
    | with_reducible apply KeptO.ite
    | with_reducible apply Kept.ite
    | with_reducible apply State.setBit_kept
    | with_reducible apply State.setErr_kept
    | with_reducible apply State.raise_kept
    | split

theorem State.timeSet_kept {q : Q4} (s : State) (v : Dword) (hk : Kept q s) : Kept q (State.timeSet s v) := by
  unfold State.timeSet
  try dsimp only
  repeat' first
    | with_reducible assumption
    | simp only [Kept.mk_iff]
    | with_reducible apply K5.of
    | with_reducible apply K5.step
    | with_reducible exact id
    | exact fun _ => rfl

/-! Functions of Machine/Keeper.lean. -/

theorem State.recordOut_kept {q : Q4} (s : State) (r : Line) (hk : Kept q s) : Kept q (State.recordOut s r) := by
  unfold State.recordOut
  repeat' first
    | with_reducible assumption
    | with_reducible apply State.write_kept

theorem State.setRecord_kept {q : Q4} (s : State) (r : Line) (hk : Kept q s) : Kept q (State.setRecord s r) := by
  unfold State.setRecord
  try dsimp only
  repeat' first
    | with_reducible assumption
    | with_reducible apply State.wr_kept
    | simp only [Kept.mk_iff]
    | with_reducible apply K5.of
    | with_reducible apply K5.step
    | with_reducible exact id
    | exact fun _ => rfl

theorem State.bootWrite_kept {q : Q4} (s : State) (r : Line) (hk : Kept q s) : Kept q (State.bootWrite s r).1 := by
  unfold State.bootWrite
  try dsimp only
  repeat' first
    | with_reducible assumption
    | with_reducible apply State.recordOut_kept
    | with_reducible apply State.setRecord_kept

theorem State.keepEvent_kept {q : Q4} (s : State) (code : Nat) (hk : Kept q s) : Kept q (State.keepEvent s code) := by
  unfold State.keepEvent
  repeat' first
    | with_reducible assumption
    | with_reducible apply State.raise_kept

theorem State.bootCheck_kept {q : Q4} (s : State) (r : Line) (img : List Line) (hk : Kept q s) : Kept q (State.bootCheck s r img).1 := by
  unfold State.bootCheck
  try dsimp only
  repeat' first
    | with_reducible assumption
    | with_reducible apply Kept.ite
    | with_reducible apply State.heartbeat_kept
    | with_reducible apply State.keepEvent_kept
    | (with_reducible apply Kept.foldl <;> first | (intro _ _ _; try dsimp only) | skip)
    | (with_reducible apply Kept.foldl_fst <;> first | (intro _ _ _; try dsimp only) | skip)
    | (with_reducible apply Kept.foldl_snd <;> first | (intro _ _ _; try dsimp only) | skip)
    | split
    | (intro _; try dsimp only)

theorem State.bootRun_kept {q : Q4} (s : State) (r : Line) (slot : BitVec 1) (img : List Line) (trial : Bool) (hk : Kept q s) : Kept q (State.bootRun s r slot img trial) := by
  unfold State.bootRun
  try dsimp only
  repeat' first
    | with_reducible assumption
    | with_reducible apply State.wr_kept
    | simp only [Kept.mk_iff]
    | with_reducible apply K5.of
    | with_reducible apply K5.step
    | with_reducible exact id
    | exact fun _ => rfl

theorem State.recovery_kept {q : Q4} (s : State) (hk : Kept q s) : Kept q (State.recovery s) := by
  unfold State.recovery
  repeat' first
    | with_reducible assumption
    | with_reducible apply State.setBit_kept
    | with_reducible apply State.setErr_kept
    | with_reducible apply State.keepEvent_kept

theorem State.fallback_kept {q : Q4} (s : State) (hk : Kept q s) : Kept q (State.fallback s) := by
  unfold State.fallback
  repeat' first
    | with_reducible assumption
    | with_reducible apply State.setBit_kept
    | with_reducible apply State.setErr_kept

theorem State.bootVerified_kept {q : Q4} (s : State) (r : Line) (x : KeeperStore) (hk : Kept q s) : Kept q (State.bootVerified s r x) := by
  unfold State.bootVerified
  try dsimp only
  repeat' first
    | with_reducible assumption
    | with_reducible apply Kept.ite
    | with_reducible apply State.bootWrite_kept
    | with_reducible apply State.bootCheck_kept
    | with_reducible apply State.bootRun_kept
    | with_reducible apply State.recovery_kept
    | (with_reducible apply Kept.foldl <;> first | (intro _ _ _; try dsimp only) | skip)
    | (with_reducible apply Kept.foldl_fst <;> first | (intro _ _ _; try dsimp only) | skip)
    | (with_reducible apply Kept.foldl_snd <;> first | (intro _ _ _; try dsimp only) | skip)
    | simp only [Kept.mk_iff]
    | with_reducible apply K5.of
    | with_reducible apply K5.step
    | with_reducible exact id
    | exact fun _ => rfl
    | split
    | refine KeptP.of_eq (by with_reducible assumption) ?_
    | refine Kept.of_pair (by with_reducible assumption) ?_
    | (intro _; try dsimp only)

theorem State.bootConfirmed_kept {q : Q4} (s : State) (r : Line) (x : KeeperStore) (hk : Kept q s) : Kept q (State.bootConfirmed s r x) := by
  unfold State.bootConfirmed
  try dsimp only
  repeat' first
    | with_reducible assumption
    | with_reducible apply Kept.ite
    | with_reducible apply State.bootCheck_kept
    | with_reducible apply State.bootRun_kept
    | with_reducible apply State.bootVerified_kept
    | simp only [Kept.mk_iff]
    | with_reducible apply K5.of
    | with_reducible apply K5.step
    | with_reducible exact id
    | exact fun _ => rfl
    | split
    | refine KeptP.of_eq (by with_reducible assumption) ?_
    | refine Kept.of_pair (by with_reducible assumption) ?_
    | (intro _; try dsimp only)

theorem State.bootPending_kept {q : Q4} (s : State) (r : Line) (x : KeeperStore) (hk : Kept q s) : Kept q (State.bootPending s r x) := by
  unfold State.bootPending
  try dsimp only
  repeat' first
    | with_reducible assumption
    | with_reducible apply Kept.ite
    | with_reducible apply State.bootWrite_kept
    | with_reducible apply State.keepEvent_kept
    | with_reducible apply State.bootCheck_kept
    | with_reducible apply State.bootRun_kept
    | with_reducible apply State.fallback_kept
    | with_reducible apply State.bootConfirmed_kept
    | simp only [Kept.mk_iff]
    | with_reducible apply K5.of
    | with_reducible apply K5.step
    | with_reducible exact id
    | exact fun _ => rfl
    | split
    | refine KeptP.of_eq (by with_reducible assumption) ?_
    | refine Kept.of_pair (by with_reducible assumption) ?_
    | (intro _; try dsimp only)

theorem State.keepClear_kept {q : Q4} (s : State) (hk : Kept q s) : Kept q (State.keepClear s) := by
  unfold State.keepClear
  try dsimp only
  repeat' first
    | with_reducible assumption
    | simp only [Kept.mk_iff]
    | with_reducible apply K5.of
    | with_reducible apply K5.step
    | with_reducible exact id
    | with_reducible exact Tbl.wf_filter
    | exact fun _ => rfl
    | split
    | (intro _; try dsimp only)

theorem execKeeperBoot_kept {q : Q4} (x : KeeperStore) (s : State) (hk : Kept q s) : KeptO q (execKeeperBoot x s) := by
  unfold execKeeperBoot
  try dsimp only
  repeat' first
    | with_reducible assumption
    | with_reducible apply KeptO.next
    | with_reducible apply KeptO.ite
    | with_reducible apply Kept.ite
    | with_reducible apply State.setRecord_kept
    | with_reducible apply State.keepEvent_kept
    | with_reducible apply State.recovery_kept
    | with_reducible apply State.bootPending_kept
    | with_reducible apply State.keepClear_kept
    | simp only [Kept.mk_iff]
    | with_reducible apply K5.of
    | with_reducible apply K5.step
    | with_reducible exact id
    | exact fun _ => rfl
    | split
    | refine KeptP.of_eq (by with_reducible assumption) ?_
    | refine Kept.of_pair (by with_reducible assumption) ?_
    | (intro _; try dsimp only)

theorem State.keepRestart_kept {q : Q4} (s : State) (hk : Kept q s) : Kept q (State.keepRestart s) := by
  unfold State.keepRestart
  try dsimp only
  repeat' first
    | with_reducible assumption
    | with_reducible apply State.bumpF_kept
    | with_reducible apply State.orphan_kept
    | with_reducible apply State.keepClear_kept
    | simp only [Kept.mk_iff]
    | with_reducible apply K5.of
    | with_reducible apply K5.step
    | with_reducible exact id
    | exact fun _ => rfl
    | split
    | refine Kept.of_pair (by with_reducible assumption) ?_
    | (intro _; try dsimp only)

theorem execTrialTimeout_kept {q : Q4} (s : State) (hk : Kept q s) : KeptO q (execTrialTimeout s) := by
  unfold execTrialTimeout
  repeat' first
    | with_reducible assumption
    | with_reducible apply KeptO.next
    | with_reducible apply KeptO.ite
    | with_reducible apply Kept.ite
    | with_reducible apply State.keepRestart_kept
    | split

theorem State.mboxEnd_kept {q : Q4} (s : State) (err : BitVec 4) (hk : Kept q s) : Kept q (State.mboxEnd s err) := by
  unfold State.mboxEnd
  try dsimp only
  repeat' first
    | with_reducible assumption
    | with_reducible apply State.setF_kept
    | with_reducible apply State.setBit_kept
    | with_reducible apply State.cmdAdd_kept
    | simp only [Kept.mk_iff]
    | with_reducible apply K5.of
    | with_reducible apply K5.step
    | with_reducible exact id
    | exact fun _ => rfl

theorem State.setMbox_kept {q : Q4} (s : State) (c : MboxCmd) (hk : Kept q s) : Kept q (State.setMbox s c) := by
  unfold State.setMbox
  try dsimp only
  repeat' first
    | with_reducible assumption
    | simp only [Kept.mk_iff]
    | with_reducible apply K5.of
    | with_reducible apply K5.step
    | with_reducible exact id
    | exact fun _ => rfl

theorem State.mboxRecord_kept {q : Q4} (s : State) (c : MboxCmd) (r : Line) (step : Nat) (hk : Kept q s) : Kept q (State.mboxRecord s c r step) := by
  unfold State.mboxRecord
  try dsimp only
  repeat' first
    | with_reducible assumption
    | with_reducible apply State.recordOut_kept
    | with_reducible apply State.setMbox_kept
    | simp only [Kept.mk_iff]
    | with_reducible apply K5.of
    | with_reducible apply K5.step
    | with_reducible exact id
    | exact fun _ => rfl

theorem State.baseRecord_kept {q : Q4} (s : State) (hk : Kept q s) : Kept q (State.baseRecord s).1 := by
  unfold State.baseRecord
  try dsimp only
  repeat' first
    | with_reducible assumption
    | with_reducible apply State.used_kept
    | simp only [Kept.mk_iff]
    | with_reducible apply K5.of
    | with_reducible apply K5.step
    | with_reducible exact id
    | exact fun _ => rfl
    | split
    | refine KeptP.of_eq (by with_reducible assumption) ?_
    | refine Kept.of_pair (by with_reducible assumption) ?_
    | (intro _; try dsimp only)

theorem State.mboxRun_kept {q : Q4} (s : State) (c : MboxCmd) (hk : Kept q s) : Kept q (State.mboxRun s c) := by
  unfold State.mboxRun
  try dsimp only
  repeat' first
    | with_reducible assumption
    | with_reducible apply Kept.ite
    | with_reducible apply State.read_kept
    | with_reducible apply State.mboxEnd_kept
    | with_reducible apply State.setMbox_kept
    | with_reducible apply State.mboxRecord_kept
    | with_reducible apply State.baseRecord_kept
    | simp only [Kept.mk_iff]
    | with_reducible apply K5.of
    | with_reducible apply K5.step
    | with_reducible exact id
    | exact fun _ => rfl
    | split
    | refine KeptP.of_eq (by with_reducible assumption) ?_
    | refine Kept.of_pair (by with_reducible assumption) ?_
    | (intro _; try dsimp only)

theorem State.mboxCmd_kept {q : Q4} (s : State) (op : BitVec 4) (hk : Kept q s) : Kept q (State.mboxCmd s op) := by
  unfold State.mboxCmd
  try dsimp only
  repeat' first
    | with_reducible assumption
    | with_reducible apply Kept.ite
    | with_reducible apply State.setF_kept
    | with_reducible apply State.setBit_kept
    | with_reducible apply State.setErr_kept
    | with_reducible apply State.setMbox_kept
    | with_reducible apply State.mboxRun_kept
    | split

theorem State.loadFail_kept {q : Q4} (s : State) (c : MboxCmd) (code : BitVec 4) (hk : Kept q s) : Kept q (State.loadFail s c code) := by
  unfold State.loadFail
  try dsimp only
  repeat' first
    | with_reducible assumption
    | with_reducible apply State.mboxRecord_kept
    | simp only [Kept.mk_iff]
    | with_reducible apply K5.of
    | with_reducible apply K5.step
    | with_reducible exact id
    | exact fun _ => rfl

theorem State.mboxRead_kept {q : Q4} (s : State) (c : MboxCmd) (step : Nat) (a : Addr) (n : Nat) (hk : Kept q s) : Kept q (State.mboxRead s c step a n) := by
  unfold State.mboxRead
  try dsimp only
  repeat' first
    | with_reducible assumption
    | with_reducible apply State.readLines_kept
    | with_reducible apply State.setMbox_kept
    | simp only [Kept.mk_iff]
    | with_reducible apply K5.of
    | with_reducible apply K5.step
    | with_reducible exact id
    | exact fun _ => rfl
    | (intro _; try dsimp only)

theorem State.loadDone_kept {q : Q4} (s : State) (c : MboxCmd) (hk : Kept q s) : Kept q (State.loadDone s c) := by
  unfold State.loadDone
  try dsimp only
  repeat' first
    | with_reducible assumption
    | with_reducible apply Kept.ite
    | with_reducible apply State.mboxRecord_kept
    | with_reducible apply State.loadFail_kept
    | split

theorem State.mboxFinish_kept {q : Q4} (s : State) (c : MboxCmd) (hk : Kept q s) : Kept q (State.mboxFinish s c) := by
  unfold State.mboxFinish
  try dsimp only
  repeat' first
    | with_reducible assumption
    | with_reducible apply Kept.ite
    | with_reducible apply State.setBit_kept
    | with_reducible apply State.mboxEnd_kept
    | simp only [Kept.mk_iff]
    | with_reducible apply K5.of
    | with_reducible apply K5.step
    | with_reducible exact id
    | exact fun _ => rfl
    | split

theorem State.mboxStep_kept {q : Q4} (s : State) (c : MboxCmd) (err : Bool) (off : Nat) (lines : List Line) (hk : Kept q s) : Kept q (State.mboxStep s c err off lines) := by
  unfold State.mboxStep
  try dsimp only
  repeat' first
    | with_reducible assumption
    | with_reducible apply Kept.ite
    | with_reducible apply State.writeLines_kept
    | with_reducible apply State.setRecord_kept
    | with_reducible apply State.mboxEnd_kept
    | with_reducible apply State.setMbox_kept
    | with_reducible apply State.mboxRecord_kept
    | with_reducible apply State.loadFail_kept
    | with_reducible apply State.mboxRead_kept
    | with_reducible apply State.loadDone_kept
    | with_reducible apply State.mboxFinish_kept
    | simp only [Kept.mk_iff]
    | with_reducible apply K5.of
    | with_reducible apply K5.step
    | with_reducible exact id
    | exact fun _ => rfl
    | split
    | refine KeptP.of_eq (by with_reducible assumption) ?_
    | refine Kept.of_pair (by with_reducible assumption) ?_
    | (intro _; try dsimp only)

theorem execMboxCmdDone_kept {q : Q4} (write : Bool) (mtag : BitVec 8) (gen : BitVec 4) (err : Bool) (lines : List Line) (s : State) (hk : Kept q s) : KeptO q (execMboxCmdDone write mtag gen err lines s) := by
  unfold execMboxCmdDone
  try dsimp only
  repeat' first
    | with_reducible assumption
    | exact KeptO.fault
    | with_reducible apply KeptO.next
    | with_reducible apply KeptO.ite
    | with_reducible apply Kept.ite
    | with_reducible apply State.write_kept
    | with_reducible apply State.answer_kept
    | with_reducible apply State.mboxStep_kept
    | simp only [Kept.mk_iff]
    | with_reducible apply K5.of
    | with_reducible apply K5.step
    | with_reducible exact id
    | exact fun _ => rfl
    | split
    | refine KeptP.of_eq (by with_reducible assumption) ?_
    | refine Kept.of_pair (by with_reducible assumption) ?_
    | (intro _; try dsimp only)

/-! Functions of Machine/Debug.lean. -/

theorem execTraceRecordOut_kept {q : Q4} (s : State) (hk : Kept q s) : KeptO q (execTraceRecordOut s) := by
  unfold execTraceRecordOut
  try dsimp only
  repeat' first
    | with_reducible assumption
    | with_reducible apply KeptO.next
    | with_reducible apply KeptO.ite
    | with_reducible apply Kept.ite
    | with_reducible apply State.bump_kept
    | simp only [Kept.mk_iff]
    | with_reducible apply K5.of
    | with_reducible apply K5.step
    | with_reducible exact id
    | exact fun _ => rfl
    | split
    | refine Kept.of_pair (by with_reducible assumption) ?_
    | (intro _; try dsimp only)

theorem State.setLink_kept {q : Q4} (s : State) (k : Nat) (on : Bool) (hk : Kept q s) : Kept q (State.setLink s k on) := by
  unfold State.setLink
  try dsimp only
  repeat' first
    | with_reducible assumption
    | simp only [Kept.mk_iff]
    | with_reducible apply K5.of
    | with_reducible apply K5.step
    | with_reducible exact id
    | exact Tbl.wf_set
    | exact fun _ => rfl
    | (intro _; try dsimp only)

theorem execLinkDown_kept {q : Q4} (link : BitVec 2) (s : State) (hk : Kept q s) : KeptO q (execLinkDown link s) := by
  unfold execLinkDown
  try dsimp only
  repeat' first
    | with_reducible assumption
    | with_reducible apply KeptO.next
    | with_reducible apply KeptO.ite
    | with_reducible apply Kept.ite
    | with_reducible apply State.notResponding_kept
    | with_reducible apply State.setLink_kept
    | (with_reducible apply Kept.foldl <;> first | (intro _ _ _; try dsimp only) | skip)
    | split
    | (intro _; try dsimp only)

theorem execLinkActive_kept {q : Q4} (link : BitVec 2) (s : State) (hk : Kept q s) : KeptO q (execLinkActive link s) := by
  unfold execLinkActive
  try dsimp only
  repeat' first
    | with_reducible assumption
    | exact KeptO.fault
    | exact KeptO.refused
    | with_reducible apply KeptO.next
    | with_reducible apply KeptO.ite
    | with_reducible apply Kept.ite
    | with_reducible apply State.setPort_kept
    | with_reducible apply State.resetDown_kept
    | with_reducible apply State.linkFresh_kept
    | with_reducible apply State.setLink_kept
    | (with_reducible apply Kept.foldl <;> first | (intro _ _ _; try dsimp only) | skip)
    | (with_reducible apply Kept.foldl_fst <;> first | (intro _ _ _; try dsimp only) | skip)
    | (with_reducible apply Kept.foldl_snd <;> first | (intro _ _ _; try dsimp only) | skip)
    | simp only [Kept.mk_iff]
    | with_reducible apply K5.of
    | with_reducible apply K5.step
    | with_reducible exact id
    | with_reducible exact Tbl.wf_filter
    | exact fun _ => rfl
    | split
    | refine KeptP.of_eq (by with_reducible assumption) ?_
    | refine Kept.of_pair (by with_reducible assumption) ?_
    | (intro _; try dsimp only)

/-! Functions of Machine/Writes.lean. -/

theorem State.ftchStore_kept {q : Q4} (s : State) (off : Nat) (v : Word) (hk : Kept q s) : Kept q (State.ftchStore s off v) := by
  unfold State.ftchStore
  try dsimp only
  repeat' first
    | with_reducible assumption
    | with_reducible apply State.updStream_kept
    | simp only [Kept.mk_iff]
    | with_reducible apply K5.of
    | with_reducible apply K5.step
    | with_reducible exact id
    | exact fun _ => rfl
    | split
    | refine Kept.of_pair (by with_reducible assumption) ?_
    | (intro _; try dsimp only)

theorem State.thrXStore_kept {q : Q4} (s : State) (c : BitVec 4) (off : Nat) (v : Word) (hk : Kept q s) : Kept q (State.thrXStore s c off v) := by
  unfold State.thrXStore
  try dsimp only
  repeat' first
    | with_reducible assumption
    | with_reducible apply State.progress_kept
    | with_reducible apply State.setThread_kept
    | with_reducible apply State.setReg_kept
    | simp only [Kept.mk_iff]
    | with_reducible apply K5.of
    | with_reducible apply K5.step
    | with_reducible exact id
    | with_reducible exact Tbl.wf_filter
    | exact fun _ => rfl
    | split
    | (intro _; try dsimp only)

theorem State.regStore_kept {q : Q4} (s : State) (page : Nat) (k : PageKind) (inst : Nat) (off : Nat) (r : RegSpec) (v : Word) (hk : Kept q s) : Kept q (State.regStore s page k inst off r v) := by
  unfold State.regStore
  try dsimp only
  repeat' first
    | with_reducible assumption
    | with_reducible apply Kept.ite
    | with_reducible apply State.wr_kept
    | with_reducible apply State.setScale_kept
    | with_reducible apply State.scalCfg_kept
    | with_reducible apply State.ftchStore_kept
    | with_reducible apply State.thrXStore_kept
    | simp only [Kept.mk_iff]
    | with_reducible apply K5.of
    | with_reducible apply K5.step
    | with_reducible exact id
    | exact fun _ => rfl
    | split
    | refine Kept.of_pair (by with_reducible assumption) ?_
    | (intro _; try dsimp only)

theorem State.negotiate_kept {q : Q4} (s : State) (major : BitVec 8) (minor : BitVec 8) (hk : Kept q s) : Kept q (State.negotiate s major minor) := by
  unfold State.negotiate
  try dsimp only
  repeat' first
    | with_reducible assumption
    | with_reducible apply Kept.ite
    | with_reducible apply State.wr_kept
    | with_reducible apply State.setErr_kept
    | split

theorem State.declared_kept {q : Q4} (s : State) (off : Nat) (hk : Kept q s) : Kept q (State.declared s off) := by
  unfold State.declared
  try dsimp only
  repeat' first
    | with_reducible assumption
    | with_reducible apply Kept.ite
    | with_reducible apply State.setBit_kept
    | split

theorem State.pmapWrite_kept {q : Q4} (s : State) (p : BitVec 4) (hk : Kept q s) : Kept q (State.pmapWrite s p) := by
  unfold State.pmapWrite
  repeat' first
    | with_reducible assumption
    | with_reducible apply State.setPmap_kept

theorem State.funcsMove_kept {q : Q4} (s : State) (p : BitVec 4) (old : Nat × Nat) (hk : Kept q s) : Kept q (State.funcsMove s p old) := by
  unfold State.funcsMove
  try dsimp only
  repeat' first
    | with_reducible assumption
    | with_reducible apply State.setFpm_kept
    | with_reducible apply State.pmapWrite_kept
    | (with_reducible apply Kept.foldl <;> first | (intro _ _ _; try dsimp only) | skip)
    | (with_reducible apply Kept.foldl_fst <;> first | (intro _ _ _; try dsimp only) | skip)
    | (with_reducible apply Kept.foldl_snd <;> first | (intro _ _ _; try dsimp only) | skip)
    | split
    | (intro _; try dsimp only)

theorem State.regAct_kept {q : Q4} (s : State) (k : PageKind) (inst : Nat) (off : Nat) (old : Word) (v : Word) (hk : Kept q s) : Kept q (State.regAct s k inst off old v) := by
  unfold State.regAct
  try dsimp only
  repeat' first
    | with_reducible assumption
    | with_reducible apply Kept.ite
    | with_reducible apply State.setF_kept
    | with_reducible apply State.setBit_kept
    | with_reducible apply State.progress_kept
    | with_reducible apply State.fillPolls_kept
    | with_reducible apply State.mirrorEnable_kept
    | with_reducible apply State.mirrorObjWrite_kept
    | with_reducible apply State.scalInit_kept
    | with_reducible apply State.dispPrior_kept
    | with_reducible apply State.dirsDrop_kept
    | with_reducible apply State.settle_kept
    | with_reducible apply State.streamEnable_kept
    | with_reducible apply State.streamDisable_kept
    | with_reducible apply State.auditResume_kept
    | with_reducible apply State.completeWrite_kept
    | with_reducible apply State.swClear_kept
    | with_reducible apply State.heartbeat_kept
    | with_reducible apply State.keepRestart_kept
    | with_reducible apply State.negotiate_kept
    | with_reducible apply State.declared_kept
    | with_reducible apply State.pmapWrite_kept
    | with_reducible apply State.funcsMove_kept
    | (with_reducible apply Kept.foldl <;> first | (intro _ _ _; try dsimp only) | skip)
    | (with_reducible apply Kept.foldl_fst <;> first | (intro _ _ _; try dsimp only) | skip)
    | (with_reducible apply Kept.foldl_snd <;> first | (intro _ _ _; try dsimp only) | skip)
    | simp only [Kept.mk_iff]
    | with_reducible apply K5.of
    | with_reducible apply K5.step
    | with_reducible exact id
    | with_reducible exact Tbl.wf_filter
    | exact fun _ => rfl
    | split
    | refine KeptP.of_eq (by with_reducible assumption) ?_
    | refine Kept.of_pair (by with_reducible assumption) ?_
    | (intro _; try dsimp only)

theorem State.command_kept {q : Q4} (s : State) (k : PageKind) (inst : Nat) (off : Nat) (op : Nat) (v : Word) (hk : Kept q s) : Kept q (State.command s k inst off op v) := by
  unfold State.command
  try dsimp only
  repeat' first
    | with_reducible assumption
    | with_reducible apply Kept.ite
    | with_reducible apply State.atomCmd_kept
    | with_reducible apply State.threadCtl_kept
    | with_reducible apply State.imemLoad_kept
    | with_reducible apply State.imemInval_kept
    | with_reducible apply State.reload_kept
    | with_reducible apply State.ctxCmdStart_kept
    | with_reducible apply State.tmplStart_kept
    | with_reducible apply State.fevCmd_kept
    | with_reducible apply State.digCmd_kept
    | with_reducible apply State.reproCmd_kept
    | with_reducible apply State.reefInject_kept
    | with_reducible apply State.rstCmd_kept
    | with_reducible apply State.pwrCmd_kept
    | with_reducible apply State.mboxCmd_kept
    | simp only [Kept.mk_iff]
    | with_reducible apply K5.of
    | with_reducible apply K5.step
    | with_reducible exact id
    | exact fun _ => rfl
    | split
    | refine Kept.of_pair (by with_reducible assumption) ?_
    | (intro _; try dsimp only)

theorem State.partCtrl_kept {q : Q4} (s : State) (p : BitVec 4) (en : Bool) (hk : Kept q s) : Kept q (State.partCtrl s p en) := by
  unfold State.partCtrl
  try dsimp only
  repeat' first
    | with_reducible assumption
    | with_reducible apply Kept.ite
    | with_reducible apply State.setF_kept
    | with_reducible apply State.setBit_kept
    | with_reducible apply State.setErr_kept
    | with_reducible apply State.tblRead_kept
    | with_reducible apply State.dirsDrop_kept
    | with_reducible apply State.pmapWrite_kept
    | simp only [Kept.mk_iff]
    | with_reducible apply K5.of
    | with_reducible apply K5.step
    | with_reducible exact id
    | exact Tbl.wf_set
    | with_reducible exact Tbl.wf_filter
    | exact fun _ => rfl
    | split
    | (intro _; try dsimp only)

theorem State.unitCtrl_kept {q : Q4} (s : State) (page : Nat) (k : PageKind) (inst : Nat) (en : Bool) (hk : Kept q s) : Kept q (State.unitCtrl s page k inst en) := by
  unfold State.unitCtrl
  repeat' first
    | with_reducible assumption
    | with_reducible apply Kept.ite
    | with_reducible apply State.setBit_kept
    | with_reducible apply State.setErr_kept
    | split

theorem State.srst_kept {q : Q4} (s : State) (page : Nat) (k : PageKind) (inst : Nat) (hk : Kept q s) : Kept q (State.srst s page k inst) := by
  unfold State.srst
  try dsimp only
  repeat' first
    | with_reducible assumption
    | with_reducible apply Kept.ite
    | with_reducible apply State.setBit_kept
    | with_reducible apply State.setErr_kept
    | with_reducible apply State.wantPart_kept
    | with_reducible apply State.command_kept
    | split

theorem State.headerWrite_kept {q : Q4} (s : State) (page : Nat) (k : PageKind) (inst : Nat) (off : Nat) (v : Word) (hk : Kept q s) : Kept q (State.headerWrite s page k inst off v) := by
  unfold State.headerWrite
  try dsimp only
  repeat' first
    | with_reducible assumption
    | with_reducible apply Kept.ite
    | with_reducible apply State.wr_kept
    | with_reducible apply State.setErr_kept
    | with_reducible apply State.partCtrl_kept
    | with_reducible apply State.unitCtrl_kept
    | with_reducible apply State.srst_kept
    | simp only [Kept.mk_iff]
    | with_reducible apply K5.of
    | with_reducible apply K5.step
    | with_reducible exact id
    | with_reducible exact Tbl.wf_filter
    | exact fun _ => rfl
    | split
    | (intro _; try dsimp only)

theorem State.regWrite_kept {q : Q4} (s : State) (page : Nat) (k : PageKind) (inst : Nat) (off : Nat) (r : RegSpec) (v : Word) (m : Mate) (hk : Kept q s) : Kept q (State.regWrite s page k inst off r v m) := by
  unfold State.regWrite
  try dsimp only
  repeat' first
    | with_reducible assumption
    | with_reducible apply Kept.ite
    | with_reducible apply State.setErr_kept
    | with_reducible apply State.regStore_kept
    | with_reducible apply State.regAct_kept
    | with_reducible apply State.command_kept
    | simp only [Kept.mk_iff]
    | with_reducible apply K5.of
    | with_reducible apply K5.step
    | with_reducible exact id
    | with_reducible exact Tbl.wf_filter
    | exact fun _ => rfl
    | split
    | refine KeptP.of_eq (by with_reducible assumption) ?_
    | refine Kept.of_pair (by with_reducible assumption) ?_
    | (intro _; try dsimp only)

theorem State.wordWrite_kept {q : Q4} (s : State) (page : Nat) (k : PageKind) (inst : Nat) (off : Nat) (v : Word) (m : Mate) (hk : Kept q s) : Kept q (State.wordWrite s page k inst off v m) := by
  unfold State.wordWrite
  try dsimp only
  repeat' first
    | with_reducible assumption
    | with_reducible apply Kept.ite
    | with_reducible apply State.setErr_kept
    | with_reducible apply State.headerWrite_kept
    | with_reducible apply State.regWrite_kept
    | simp only [Kept.mk_iff]
    | with_reducible apply K5.of
    | with_reducible apply K5.step
    | with_reducible exact id
    | with_reducible exact Tbl.wf_filter
    | exact fun _ => rfl
    | split
    | refine KeptP.of_eq (by with_reducible assumption) ?_
    | refine Kept.of_pair (by with_reducible assumption) ?_
    | (intro _; try dsimp only)

theorem State.softRegs_kept {q : Q4} (s : State) (page : Nat) (k : PageKind) (hk : Kept q s) : Kept q (State.softRegs s page k) := by
  unfold State.softRegs
  try dsimp only
  repeat' first
    | with_reducible assumption
    | simp only [Kept.mk_iff]
    | with_reducible apply K5.of
    | with_reducible apply K5.step
    | with_reducible exact id
    | with_reducible exact Tbl.wf_filter
    | exact fun _ => rfl
    | split
    | refine KeptP.of_eq (by with_reducible assumption) ?_
    | refine Kept.of_pair (by with_reducible assumption) ?_
    | (intro _; try dsimp only)

theorem State.softUnit_kept {q : Q4} (s : State) (k : PageKind) (inst : Nat) (hk : Kept q s) : Kept q (State.softUnit s k inst) := by
  unfold State.softUnit
  try dsimp only
  repeat' first
    | with_reducible assumption
    | with_reducible apply State.setF_kept
    | with_reducible apply State.setCore_kept
    | with_reducible apply State.beaconReset_kept
    | with_reducible apply State.audtCmdsEnd_kept
    | with_reducible apply State.atomEnd_kept
    | with_reducible apply State.tmplCmdsEnd_kept
    | exact Kept.threads (by with_reducible assumption) _
    | (simp only [Core.setBank_threads]; exact Kept.threads (by with_reducible assumption) _)
    | refine Kept.threads (q := q) ?_ _
    | exact (rfl : Tbl.wf (fun _ => Thread.reset) Core.reset.threads = true)
    | simp only [Kept.mk_iff]
    | with_reducible apply K5.of
    | with_reducible apply K5.step
    | with_reducible exact id
    | with_reducible exact Tbl.wf_filter
    | exact fun _ => rfl
    | exact fun h => Tbl.wf_remap h
    | split
    | refine KeptP.of_eq (by with_reducible assumption) ?_
    | refine Kept.of_pair (by with_reducible assumption) ?_
    | (intro _; try dsimp only)

theorem State.softDone_kept {q : Q4} (s : State) (page : Nat) (k : PageKind) (inst : Nat) (hk : Kept q s) : Kept q (State.softDone s page k inst) := by
  unfold State.softDone
  try dsimp only
  repeat' first
    | with_reducible assumption
    | with_reducible apply State.setBit_kept
    | with_reducible apply State.bumpF_kept
    | with_reducible apply State.orphan_kept
    | with_reducible apply State.softRegs_kept
    | with_reducible apply State.softUnit_kept

/-! Functions of Machine/Rdp.lean. -/

theorem State.answerRdp_kept {q : Q4} (s : State) (data : Dword) (err : BitVec 3) (hk : Kept q s) : Kept q (State.answerRdp s data err) := by
  unfold State.answerRdp
  try dsimp only
  repeat' first
    | with_reducible assumption
    | simp only [Kept.mk_iff]
    | with_reducible apply K5.of
    | with_reducible apply K5.step
    | with_reducible exact id
    | exact fun _ => rfl

theorem State.refuse_kept {q : Q4} (s : State) (x : Access) (reason : Nat) (hk : Kept q s) : Kept q (State.refuse s x reason) := by
  unfold State.refuse
  try dsimp only
  repeat' first
    | with_reducible assumption
    | with_reducible apply Kept.ite
    | with_reducible apply State.wr_kept
    | with_reducible apply State.bump_kept
    | with_reducible apply State.setErr_kept
    | with_reducible apply State.raise_kept
    | with_reducible apply State.write_kept
    | with_reducible apply State.answerRdp_kept
    | simp only [Kept.mk_iff]
    | with_reducible apply K5.of
    | with_reducible apply K5.step
    | with_reducible exact id
    | exact fun _ => rfl
    | split
    | refine Kept.of_pair (by with_reducible assumption) ?_
    | (intro _; try dsimp only)

theorem State.pageWrite_kept {q : Q4} (s : State) (x : Access) (slot : Nat) (k : PageKind) (inst : Nat) (off : Nat) (hk : Kept q s) : Kept q (State.pageWrite s x slot k inst off) := by
  unfold State.pageWrite
  try dsimp only
  repeat' first
    | with_reducible assumption
    | with_reducible apply Kept.ite
    | with_reducible apply State.timeSet_kept
    | with_reducible apply State.wordWrite_kept
    | simp only [Kept.mk_iff]
    | with_reducible apply K5.of
    | with_reducible apply K5.step
    | with_reducible exact id
    | with_reducible exact Tbl.wf_filter
    | exact fun _ => rfl
    | split
    | refine KeptP.of_eq (by with_reducible assumption) ?_
    | refine Kept.of_pair (by with_reducible assumption) ?_
    | (intro _; try dsimp only)

theorem State.dbCtrl_kept {q : Q4} (s : State) (n : BitVec 14) (v : Dword) (hk : Kept q s) : Kept q (State.dbCtrl s n v) := by
  unfold State.dbCtrl
  try dsimp only
  repeat' first
    | with_reducible assumption
    | with_reducible apply Kept.ite
    | with_reducible apply State.pauseStream_kept
    | with_reducible apply State.resumeStream_kept
    | with_reducible apply State.invalStream_kept
    | split

theorem State.dbWrite_kept {q : Q4} (s : State) (x : Access) (f : BitVec 12) (off : Nat) (hk : Kept q s) : Kept q (State.dbWrite s x f off) := by
  unfold State.dbWrite
  try dsimp only
  repeat' first
    | with_reducible assumption
    | with_reducible apply Kept.ite
    | with_reducible apply State.raise_kept
    | with_reducible apply State.doorbell_kept
    | with_reducible apply State.dbCtrl_kept
    | simp only [Kept.mk_iff]
    | with_reducible apply K5.of
    | with_reducible apply K5.step
    | with_reducible exact id
    | with_reducible exact Tbl.wf_filter
    | exact fun _ => rfl
    | split
    | (intro _; try dsimp only)

theorem State.soWrite_kept {q : Q4} (s : State) (x : Access) (n : Nat) (off : Nat) (hk : Kept q s) : Kept q (State.soWrite s x n off) := by
  unfold State.soWrite
  try dsimp only
  repeat' first
    | with_reducible assumption
    | with_reducible apply Kept.ite
    | with_reducible apply State.setErr_kept
    | with_reducible apply State.timingBreak_kept
    | with_reducible apply State.offer_kept
    | simp only [Kept.mk_iff]
    | with_reducible apply K5.of
    | with_reducible apply K5.step
    | with_reducible exact id
    | with_reducible exact Tbl.wf_filter
    | exact fun _ => rfl
    | split
    | refine KeptP.of_eq (by with_reducible assumption) ?_
    | refine Kept.of_pair (by with_reducible assumption) ?_
    | (intro _; try dsimp only)

theorem State.claimAccess_kept {q : Q4} (s : State) (t : Nat) (hk : Kept q s) : Kept q (State.claimAccess s t).1 := by
  unfold State.claimAccess
  try dsimp only
  repeat' first
    | with_reducible assumption
    | with_reducible apply Kept.ite
    | with_reducible apply State.setErr_kept
    | with_reducible apply State.claimRead_kept
    | split

theorem State.wordReadAt_kept {q : Q4} (s : State) (slot : Nat) (k : PageKind) (inst : Nat) (off : Nat) (hk : Kept q s) : Kept q (State.wordReadAt s slot k inst off).1 := by
  unfold State.wordReadAt
  repeat' first
    | with_reducible assumption
    | with_reducible apply Kept.ite
    | with_reducible apply State.setErr_kept
    | with_reducible apply State.claimAccess_kept
    | split

theorem State.pageRead_kept {q : Q4} (s : State) (x : Access) (slot : Nat) (k : PageKind) (inst : Nat) (off : Nat) (hk : Kept q s) : Kept q (State.pageRead s x slot k inst off).1 := by
  unfold State.pageRead
  try dsimp only
  repeat' first
    | with_reducible assumption
    | with_reducible apply Kept.ite
    | with_reducible apply State.wordReadAt_kept
    | split

theorem State.answerNow_kept {q : Q4} (s : State) (hk : Kept q s) : Kept q (State.answerNow s) := by
  unfold State.answerNow
  try dsimp only
  repeat' first
    | with_reducible assumption
    | with_reducible apply Kept.ite
    | with_reducible apply State.answerRdp_kept
    | simp only [Kept.mk_iff]
    | with_reducible apply K5.of
    | with_reducible apply K5.step
    | with_reducible exact id
    | with_reducible exact Tbl.wf_filter
    | exact fun _ => rfl
    | split
    | (intro _; try dsimp only)

theorem State.perform_kept {q : Q4} (s : State) (x : Access) (hk : Kept q s) : Kept q (State.perform s x) := by
  unfold State.perform
  try dsimp only
  repeat' first
    | with_reducible assumption
    | with_reducible apply Kept.ite
    | with_reducible apply State.write_kept
    | with_reducible apply State.answerRdp_kept
    | with_reducible apply State.pageWrite_kept
    | with_reducible apply State.dbWrite_kept
    | with_reducible apply State.soWrite_kept
    | with_reducible apply State.pageRead_kept
    | with_reducible apply State.answerNow_kept
    | simp only [Kept.mk_iff]
    | with_reducible apply K5.of
    | with_reducible apply K5.step
    | with_reducible exact id
    | with_reducible exact Tbl.wf_filter
    | exact fun _ => rfl
    | split
    | refine KeptP.of_eq (by with_reducible assumption) ?_
    | refine Kept.of_pair (by with_reducible assumption) ?_
    | (intro _; try dsimp only)

theorem State.access_kept {q : Q4} (s : State) (x : Access) (hk : Kept q s) : Kept q (State.access s x) := by
  unfold State.access
  try dsimp only
  repeat' first
    | with_reducible assumption
    | with_reducible apply Kept.ite
    | with_reducible apply State.idleExit_kept
    | with_reducible apply State.refuse_kept
    | with_reducible apply State.perform_kept
    | simp only [Kept.mk_iff]
    | with_reducible apply K5.of
    | with_reducible apply K5.step
    | with_reducible exact id
    | with_reducible exact Tbl.wf_filter
    | exact fun _ => rfl
    | split
    | refine KeptP.of_eq (by with_reducible assumption) ?_
    | refine Kept.of_pair (by with_reducible assumption) ?_
    | (intro _; try dsimp only)

theorem State.replay_kept {q : Q4} (s : State) (hk : Kept q s) : Kept q (State.replay s) := by
  unfold State.replay
  try dsimp only
  repeat' first
    | with_reducible assumption
    | with_reducible apply State.access_kept
    | (with_reducible apply Kept.foldl <;> first | (intro _ _ _; try dsimp only) | skip)
    | simp only [Kept.mk_iff]
    | with_reducible apply K5.of
    | with_reducible apply K5.step
    | with_reducible exact id
    | exact fun _ => rfl

theorem execRegisterWrite_kept {q : Q4} (tag : BitVec 13) (addr : BitVec 26) (strb : BitVec 8) (data : Dword) (s : State) (hk : Kept q s) : KeptO q (execRegisterWrite tag addr strb data s) := by
  unfold execRegisterWrite
  repeat' first
    | with_reducible assumption
    | with_reducible apply KeptO.next
    | with_reducible apply State.access_kept

theorem execIfNegotiate_kept {q : Q4} (tag : BitVec 13) (major : BitVec 8) (minor : BitVec 8) (s : State) (hk : Kept q s) : KeptO q (execIfNegotiate tag major minor s) := by
  unfold execIfNegotiate
  repeat' first
    | with_reducible assumption
    | with_reducible apply KeptO.next
    | with_reducible apply State.access_kept

theorem execSoftReset_kept {q : Q4} (tag : BitVec 13) (page : BitVec 8) (s : State) (hk : Kept q s) : KeptO q (execSoftReset tag page s) := by
  unfold execSoftReset
  repeat' first
    | with_reducible assumption
    | with_reducible apply KeptO.next
    | with_reducible apply State.access_kept

theorem execSrstComplete_kept {q : Q4} (page : BitVec 8) (s : State) (hk : Kept q s) : KeptO q (execSrstComplete page s) := by
  unfold execSrstComplete
  try dsimp only
  repeat' first
    | with_reducible assumption
    | with_reducible apply KeptO.next
    | with_reducible apply KeptO.ite
    | with_reducible apply Kept.ite
    | with_reducible apply State.softDone_kept
    | simp only [Kept.mk_iff]
    | with_reducible apply K5.of
    | with_reducible apply K5.step
    | with_reducible exact id
    | exact fun _ => rfl
    | split
    | refine KeptP.of_eq (by with_reducible assumption) ?_
    | refine Kept.of_pair (by with_reducible assumption) ?_
    | (intro _; try dsimp only)

theorem execUnitEnable_kept {q : Q4} (tag : BitVec 13) (page : BitVec 8) (en : BitVec 1) (s : State) (hk : Kept q s) : KeptO q (execUnitEnable tag page en s) := by
  unfold execUnitEnable
  repeat' first
    | with_reducible assumption
    | with_reducible apply KeptO.next
    | with_reducible apply State.access_kept

theorem execPartEnable_kept {q : Q4} (tag : BitVec 13) (p : BitVec 4) (s : State) (hk : Kept q s) : KeptO q (execPartEnable tag p s) := by
  unfold execPartEnable
  repeat' first
    | with_reducible assumption
    | with_reducible apply KeptO.next
    | with_reducible apply State.access_kept

theorem execPartDisable_kept {q : Q4} (tag : BitVec 13) (p : BitVec 4) (s : State) (hk : Kept q s) : KeptO q (execPartDisable tag p s) := by
  unfold execPartDisable
  repeat' first
    | with_reducible assumption
    | with_reducible apply KeptO.next
    | with_reducible apply State.access_kept

theorem execFuncRangeWrite_kept {q : Q4} (tag : BitVec 13) (p : BitVec 4) (base : BitVec 12) (count : BitVec 13) (s : State) (hk : Kept q s) : KeptO q (execFuncRangeWrite tag p base count s) := by
  unfold execFuncRangeWrite
  repeat' first
    | with_reducible assumption
    | with_reducible apply KeptO.next
    | with_reducible apply State.access_kept

theorem execHarbQuotaWrite_kept {q : Q4} (tag : BitVec 13) (p : BitVec 4) (min : BitVec 7) (s : State) (hk : Kept q s) : KeptO q (execHarbQuotaWrite tag p min s) := by
  unfold execHarbQuotaWrite
  repeat' first
    | with_reducible assumption
    | with_reducible apply KeptO.next
    | with_reducible apply State.access_kept

theorem execIntegDeclare_kept {q : Q4} (tag : BitVec 13) (reg : BitVec 3) (value : Word) (s : State) (hk : Kept q s) : KeptO q (execIntegDeclare tag reg value s) := by
  unfold execIntegDeclare
  repeat' first
    | with_reducible assumption
    | with_reducible apply KeptO.next
    | with_reducible apply State.access_kept

theorem execIntegLock_kept {q : Q4} (tag : BitVec 13) (s : State) (hk : Kept q s) : KeptO q (execIntegLock tag s) := by
  unfold execIntegLock
  repeat' first
    | with_reducible assumption
    | with_reducible apply KeptO.next
    | with_reducible apply State.access_kept

theorem State.ctxCmdAccess_kept {q : Q4} (s : State) (tag : BitVec 13) (p : BitVec 4) (op : BitVec 4) (bound : Bool) (ctx : BitVec 16) (hk : Kept q s) : Kept q (State.ctxCmdAccess s tag p op bound ctx) := by
  unfold State.ctxCmdAccess
  repeat' first
    | with_reducible assumption
    | with_reducible apply State.access_kept

theorem execCreate_kept {q : Q4} (tag : BitVec 13) (p : BitVec 4) (ctx : BitVec 16) (s : State) (hk : Kept q s) : KeptO q (execCreate tag p ctx s) := by
  unfold execCreate
  repeat' first
    | with_reducible assumption
    | with_reducible apply KeptO.next
    | with_reducible apply State.ctxCmdAccess_kept

theorem execDestroy_kept {q : Q4} (tag : BitVec 13) (p : BitVec 4) (ctx : BitVec 16) (s : State) (hk : Kept q s) : KeptO q (execDestroy tag p ctx s) := by
  unfold execDestroy
  repeat' first
    | with_reducible assumption
    | with_reducible apply KeptO.next
    | with_reducible apply State.ctxCmdAccess_kept

theorem execFlush_kept {q : Q4} (tag : BitVec 13) (p : BitVec 4) (ctx : BitVec 16) (bound : Bool) (s : State) (hk : Kept q s) : KeptO q (execFlush tag p ctx bound s) := by
  unfold execFlush
  repeat' first
    | with_reducible assumption
    | with_reducible apply KeptO.next
    | with_reducible apply State.ctxCmdAccess_kept

theorem execHandleInval_kept {q : Q4} (tag : BitVec 13) (p : BitVec 4) (ctx : BitVec 16) (s : State) (hk : Kept q s) : KeptO q (execHandleInval tag p ctx s) := by
  unfold execHandleInval
  repeat' first
    | with_reducible assumption
    | with_reducible apply KeptO.next
    | with_reducible apply State.ctxCmdAccess_kept

theorem execDoorbell_kept {q : Q4} (tag : BitVec 13) (func : BitVec 12) (cls : BitVec 2) (strb : BitVec 8) (data : Dword) (s : State) (hk : Kept q s) : KeptO q (execDoorbell tag func cls strb data s) := by
  unfold execDoorbell
  try dsimp only
  repeat' first
    | with_reducible assumption
    | with_reducible apply KeptO.next
    | with_reducible apply State.access_kept

theorem execPause_kept {q : Q4} (tag : BitVec 13) (func : BitVec 12) (cls : BitVec 2) (s : State) (hk : Kept q s) : KeptO q (execPause tag func cls s) := by
  unfold execPause
  try dsimp only
  repeat' first
    | with_reducible assumption
    | with_reducible apply KeptO.next
    | with_reducible apply State.access_kept

theorem execResumeStream_kept {q : Q4} (tag : BitVec 13) (func : BitVec 12) (cls : BitVec 2) (s : State) (hk : Kept q s) : KeptO q (execResumeStream tag func cls s) := by
  unfold execResumeStream
  try dsimp only
  repeat' first
    | with_reducible assumption
    | with_reducible apply KeptO.next
    | with_reducible apply State.access_kept

theorem execInval_kept {q : Q4} (tag : BitVec 13) (func : BitVec 12) (cls : BitVec 2) (keep : Bool) (s : State) (hk : Kept q s) : KeptO q (execInval tag func cls keep s) := by
  unfold execInval
  try dsimp only
  repeat' first
    | with_reducible assumption
    | with_reducible apply KeptO.next
    | with_reducible apply KeptO.ite
    | with_reducible apply Kept.ite
    | with_reducible apply State.access_kept
    | split

theorem execStreamEnable_kept {q : Q4} (tag : BitVec 13) (s : State) (hk : Kept q s) : KeptO q (execStreamEnable tag s) := by
  unfold execStreamEnable
  repeat' first
    | with_reducible assumption
    | with_reducible apply KeptO.next
    | with_reducible apply State.access_kept

theorem execStreamDisable_kept {q : Q4} (tag : BitVec 13) (s : State) (hk : Kept q s) : KeptO q (execStreamDisable tag s) := by
  unfold execStreamDisable
  repeat' first
    | with_reducible assumption
    | with_reducible apply KeptO.next
    | with_reducible apply State.access_kept

theorem execSoSignal_kept {q : Q4} (tag : BitVec 13) (so : BitVec 14) (strb : BitVec 8) (data : Dword) (s : State) (hk : Kept q s) : KeptO q (execSoSignal tag so strb data s) := by
  unfold execSoSignal
  repeat' first
    | with_reducible assumption
    | with_reducible apply KeptO.next
    | with_reducible apply State.access_kept

theorem execSoAdd_kept {q : Q4} (tag : BitVec 13) (so : BitVec 14) (strb : BitVec 8) (data : Dword) (s : State) (hk : Kept q s) : KeptO q (execSoAdd tag so strb data s) := by
  unfold execSoAdd
  repeat' first
    | with_reducible assumption
    | with_reducible apply KeptO.next
    | with_reducible apply State.access_kept

theorem execSoForce_kept {q : Q4} (tag : BitVec 13) (so : BitVec 14) (strb : BitVec 8) (data : Dword) (s : State) (hk : Kept q s) : KeptO q (execSoForce tag so strb data s) := by
  unfold execSoForce
  repeat' first
    | with_reducible assumption
    | with_reducible apply KeptO.next
    | with_reducible apply State.access_kept

theorem execFetchAdd_kept {q : Q4} (tag : BitVec 13) (s : State) (hk : Kept q s) : KeptO q (execFetchAdd tag s) := by
  unfold execFetchAdd
  repeat' first
    | with_reducible assumption
    | with_reducible apply KeptO.next
    | with_reducible apply State.access_kept

theorem execAtomMax_kept {q : Q4} (tag : BitVec 13) (s : State) (hk : Kept q s) : KeptO q (execAtomMax tag s) := by
  unfold execAtomMax
  repeat' first
    | with_reducible assumption
    | with_reducible apply KeptO.next
    | with_reducible apply State.access_kept

theorem execCompareSwap_kept {q : Q4} (tag : BitVec 13) (s : State) (hk : Kept q s) : KeptO q (execCompareSwap tag s) := by
  unfold execCompareSwap
  repeat' first
    | with_reducible assumption
    | with_reducible apply KeptO.next
    | with_reducible apply State.access_kept

theorem execMirrorEnable_kept {q : Q4} (tag : BitVec 13) (s : State) (hk : Kept q s) : KeptO q (execMirrorEnable tag s) := by
  unfold execMirrorEnable
  repeat' first
    | with_reducible assumption
    | with_reducible apply KeptO.next
    | with_reducible apply State.access_kept

theorem execMirrorEntryEnable_kept {q : Q4} (tag : BitVec 13) (en : Bool) (so : BitVec 20) (s : State) (hk : Kept q s) : KeptO q (execMirrorEntryEnable tag en so s) := by
  unfold execMirrorEntryEnable
  repeat' first
    | with_reducible assumption
    | with_reducible apply KeptO.next
    | with_reducible apply State.access_kept

theorem State.tmplAccess_kept {q : Q4} (s : State) (tag : BitVec 13) (op : BitVec 4) (id : BitVec 12) (pin : Bool) (hk : Kept q s) : Kept q (State.tmplAccess s tag op id pin) := by
  unfold State.tmplAccess
  repeat' first
    | with_reducible assumption
    | with_reducible apply State.access_kept

theorem execRegister_kept {q : Q4} (tag : BitVec 13) (id : BitVec 12) (pin : Bool) (s : State) (hk : Kept q s) : KeptO q (execRegister tag id pin s) := by
  unfold execRegister
  repeat' first
    | with_reducible assumption
    | with_reducible apply KeptO.next
    | with_reducible apply State.tmplAccess_kept

theorem execReplace_kept {q : Q4} (tag : BitVec 13) (id : BitVec 12) (pin : Bool) (s : State) (hk : Kept q s) : KeptO q (execReplace tag id pin s) := by
  unfold execReplace
  repeat' first
    | with_reducible assumption
    | with_reducible apply KeptO.next
    | with_reducible apply State.tmplAccess_kept

theorem execRetire_kept {q : Q4} (tag : BitVec 13) (id : BitVec 12) (s : State) (hk : Kept q s) : KeptO q (execRetire tag id s) := by
  unfold execRetire
  repeat' first
    | with_reducible assumption
    | with_reducible apply KeptO.next
    | with_reducible apply State.tmplAccess_kept

theorem execSetPin_kept {q : Q4} (tag : BitVec 13) (id : BitVec 12) (pin : Bool) (s : State) (hk : Kept q s) : KeptO q (execSetPin tag id pin s) := by
  unfold execSetPin
  repeat' first
    | with_reducible assumption
    | with_reducible apply KeptO.next
    | with_reducible apply State.tmplAccess_kept

theorem execResume_kept {q : Q4} (tag : BitVec 13) (core : BitVec 4) (s : State) (hk : Kept q s) : KeptO q (execResume tag core s) := by
  unfold execResume
  repeat' first
    | with_reducible assumption
    | with_reducible apply KeptO.next
    | with_reducible apply State.access_kept

theorem execStepThread_kept {q : Q4} (tag : BitVec 13) (core : BitVec 4) (s : State) (hk : Kept q s) : KeptO q (execStepThread tag core s) := by
  unfold execStepThread
  repeat' first
    | with_reducible assumption
    | with_reducible apply KeptO.next
    | with_reducible apply State.access_kept

theorem execHalt_kept {q : Q4} (tag : BitVec 13) (core : BitVec 4) (s : State) (hk : Kept q s) : KeptO q (execHalt tag core s) := by
  unfold execHalt
  repeat' first
    | with_reducible assumption
    | with_reducible apply KeptO.next
    | with_reducible apply State.access_kept

theorem execImemLoad_kept {q : Q4} (tag : BitVec 13) (core : BitVec 4) (lock : Bool) (part : BitVec 6) (s : State) (hk : Kept q s) : KeptO q (execImemLoad tag core lock part s) := by
  unfold execImemLoad
  repeat' first
    | with_reducible assumption
    | with_reducible apply KeptO.next
    | with_reducible apply State.access_kept

theorem execImemInval_kept {q : Q4} (tag : BitVec 13) (core : BitVec 4) (all : Bool) (part : BitVec 6) (s : State) (hk : Kept q s) : KeptO q (execImemInval tag core all part s) := by
  unfold execImemInval
  repeat' first
    | with_reducible assumption
    | with_reducible apply KeptO.next
    | with_reducible apply State.access_kept

theorem execScalInit_kept {q : Q4} (tag : BitVec 13) (scale : BitVec 12) (s : State) (hk : Kept q s) : KeptO q (execScalInit tag scale s) := by
  unfold execScalInit
  repeat' first
    | with_reducible assumption
    | with_reducible apply KeptO.next
    | with_reducible apply State.access_kept

theorem execScalCfg_kept {q : Q4} (tag : BitVec 13) (k : BitVec 3) (format : BitVec 6) (s : State) (hk : Kept q s) : KeptO q (execScalCfg tag k format s) := by
  unfold execScalCfg
  repeat' first
    | with_reducible assumption
    | with_reducible apply KeptO.next
    | with_reducible apply State.access_kept

theorem execRefresh_kept {q : Q4} (tag : BitVec 13) (func : BitVec 12) (s : State) (hk : Kept q s) : KeptO q (execRefresh tag func s) := by
  unfold execRefresh
  try dsimp only
  repeat' first
    | with_reducible assumption
    | with_reducible apply KeptO.next
    | with_reducible apply State.access_kept

theorem execFevFlush_kept {q : Q4} (tag : BitVec 13) (func : BitVec 12) (s : State) (hk : Kept q s) : KeptO q (execFevFlush tag func s) := by
  unfold execFevFlush
  try dsimp only
  repeat' first
    | with_reducible assumption
    | with_reducible apply KeptO.next
    | with_reducible apply State.access_kept

theorem execFlushAll_kept {q : Q4} (tag : BitVec 13) (s : State) (hk : Kept q s) : KeptO q (execFlushAll tag s) := by
  unfold execFlushAll
  repeat' first
    | with_reducible assumption
    | with_reducible apply KeptO.next
    | with_reducible apply State.access_kept

theorem execClaim_kept {q : Q4} (tag : BitVec 13) (target : BitVec 3) (s : State) (hk : Kept q s) : KeptO q (execClaim tag target s) := by
  unfold execClaim
  repeat' first
    | with_reducible assumption
    | with_reducible apply KeptO.next
    | with_reducible apply State.access_kept

theorem execComplete_kept {q : Q4} (tag : BitVec 13) (target : BitVec 3) (source : BitVec 10) (s : State) (hk : Kept q s) : KeptO q (execComplete tag target source s) := by
  unfold execComplete
  repeat' first
    | with_reducible assumption
    | with_reducible apply KeptO.next
    | with_reducible apply State.access_kept

theorem execSwSet_kept {q : Q4} (tag : BitVec 13) (word : BitVec 3) (bits : Word) (s : State) (hk : Kept q s) : KeptO q (execSwSet tag word bits s) := by
  unfold execSwSet
  repeat' first
    | with_reducible assumption
    | with_reducible apply KeptO.next
    | with_reducible apply State.access_kept

theorem execSwClear_kept {q : Q4} (tag : BitVec 13) (word : BitVec 3) (bits : Word) (s : State) (hk : Kept q s) : KeptO q (execSwClear tag word bits s) := by
  unfold execSwClear
  repeat' first
    | with_reducible assumption
    | with_reducible apply KeptO.next
    | with_reducible apply State.access_kept

theorem execArm_kept {q : Q4} (tag : BitVec 13) (s : State) (hk : Kept q s) : KeptO q (execArm tag s) := by
  unfold execArm
  repeat' first
    | with_reducible assumption
    | with_reducible apply KeptO.next
    | with_reducible apply State.access_kept

theorem execGo_kept {q : Q4} (tag : BitVec 13) (s : State) (hk : Kept q s) : KeptO q (execGo tag s) := by
  unfold execGo
  repeat' first
    | with_reducible assumption
    | with_reducible apply KeptO.next
    | with_reducible apply State.access_kept

theorem execDisarm_kept {q : Q4} (tag : BitVec 13) (s : State) (hk : Kept q s) : KeptO q (execDisarm tag s) := by
  unfold execDisarm
  repeat' first
    | with_reducible assumption
    | with_reducible apply KeptO.next
    | with_reducible apply State.access_kept

theorem execRegProg_kept {q : Q4} (tag : BitVec 13) (part : BitVec 6) (s : State) (hk : Kept q s) : KeptO q (execRegProg tag part s) := by
  unfold execRegProg
  repeat' first
    | with_reducible assumption
    | with_reducible apply KeptO.next
    | with_reducible apply State.access_kept

theorem execRegModel_kept {q : Q4} (tag : BitVec 13) (part : BitVec 6) (s : State) (hk : Kept q s) : KeptO q (execRegModel tag part s) := by
  unfold execRegModel
  repeat' first
    | with_reducible assumption
    | with_reducible apply KeptO.next
    | with_reducible apply State.access_kept

theorem execUnregProg_kept {q : Q4} (tag : BitVec 13) (part : BitVec 6) (s : State) (hk : Kept q s) : KeptO q (execUnregProg tag part s) := by
  unfold execUnregProg
  repeat' first
    | with_reducible assumption
    | with_reducible apply KeptO.next
    | with_reducible apply State.access_kept

theorem execUnregModel_kept {q : Q4} (tag : BitVec 13) (part : BitVec 6) (s : State) (hk : Kept q s) : KeptO q (execUnregModel tag part s) := by
  unfold execUnregModel
  repeat' first
    | with_reducible assumption
    | with_reducible apply KeptO.next
    | with_reducible apply State.access_kept

theorem execReload_kept {q : Q4} (tag : BitVec 13) (part : BitVec 6) (s : State) (hk : Kept q s) : KeptO q (execReload tag part s) := by
  unfold execReload
  repeat' first
    | with_reducible assumption
    | with_reducible apply KeptO.next
    | with_reducible apply State.access_kept

theorem execInject_kept {q : Q4} (tag : BitVec 13) (sev : BitVec 3) (s : State) (hk : Kept q s) : KeptO q (execInject tag sev s) := by
  unfold execInject
  repeat' first
    | with_reducible assumption
    | with_reducible apply KeptO.next
    | with_reducible apply State.access_kept

theorem execHeartbeat_kept {q : Q4} (tag : BitVec 13) (value : Word) (s : State) (hk : Kept q s) : KeptO q (execHeartbeat tag value s) := by
  unfold execHeartbeat
  repeat' first
    | with_reducible assumption
    | with_reducible apply KeptO.next
    | with_reducible apply State.access_kept

theorem execAddPort_kept {q : Q4} (tag : BitVec 13) (port : BitVec 10) (s : State) (hk : Kept q s) : KeptO q (execAddPort tag port s) := by
  unfold execAddPort
  repeat' first
    | with_reducible assumption
    | with_reducible apply KeptO.next
    | with_reducible apply State.access_kept

theorem execRemove_kept {q : Q4} (tag : BitVec 13) (port : BitVec 10) (s : State) (hk : Kept q s) : KeptO q (execRemove tag port s) := by
  unfold execRemove
  repeat' first
    | with_reducible assumption
    | with_reducible apply KeptO.next
    | with_reducible apply State.access_kept

theorem execReadmit_kept {q : Q4} (tag : BitVec 13) (port : BitVec 10) (s : State) (hk : Kept q s) : KeptO q (execReadmit tag port s) := by
  unfold execReadmit
  repeat' first
    | with_reducible assumption
    | with_reducible apply KeptO.next
    | with_reducible apply State.access_kept

theorem execEngineReset_kept {q : Q4} (tag : BitVec 13) (port : BitVec 10) (s : State) (hk : Kept q s) : KeptO q (execEngineReset tag port s) := by
  unfold execEngineReset
  repeat' first
    | with_reducible assumption
    | with_reducible apply KeptO.next
    | with_reducible apply State.access_kept

theorem execDrowse_kept {q : Q4} (tag : BitVec 13) (s : State) (hk : Kept q s) : KeptO q (execDrowse tag s) := by
  unfold execDrowse
  repeat' first
    | with_reducible assumption
    | with_reducible apply KeptO.next
    | with_reducible apply State.access_kept

theorem execOff_kept {q : Q4} (tag : BitVec 13) (s : State) (hk : Kept q s) : KeptO q (execOff tag s) := by
  unfold execOff
  repeat' first
    | with_reducible assumption
    | with_reducible apply KeptO.next
    | with_reducible apply State.access_kept

theorem execTimeSet_kept {q : Q4} (tag : BitVec 13) (value : Dword) (s : State) (hk : Kept q s) : KeptO q (execTimeSet tag value s) := by
  unfold execTimeSet
  repeat' first
    | with_reducible assumption
    | with_reducible apply KeptO.next
    | with_reducible apply State.access_kept

theorem execRestart_kept {q : Q4} (tag : BitVec 13) (s : State) (hk : Kept q s) : KeptO q (execRestart tag s) := by
  unfold execRestart
  repeat' first
    | with_reducible assumption
    | with_reducible apply KeptO.next
    | with_reducible apply State.access_kept

theorem execLoad_kept {q : Q4} (tag : BitVec 13) (slot : BitVec 1) (s : State) (hk : Kept q s) : KeptO q (execLoad tag slot s) := by
  unfold execLoad
  repeat' first
    | with_reducible assumption
    | with_reducible apply KeptO.next
    | with_reducible apply State.access_kept

theorem execActivate_kept {q : Q4} (tag : BitVec 13) (slot : BitVec 1) (s : State) (hk : Kept q s) : KeptO q (execActivate tag slot s) := by
  unfold execActivate
  repeat' first
    | with_reducible assumption
    | with_reducible apply KeptO.next
    | with_reducible apply State.access_kept

theorem execConfirm_kept {q : Q4} (tag : BitVec 13) (slot : BitVec 1) (s : State) (hk : Kept q s) : KeptO q (execConfirm tag slot s) := by
  unfold execConfirm
  repeat' first
    | with_reducible assumption
    | with_reducible apply KeptO.next
    | with_reducible apply State.access_kept

theorem execErase_kept {q : Q4} (tag : BitVec 13) (slot : BitVec 1) (s : State) (hk : Kept q s) : KeptO q (execErase tag slot s) := by
  unfold execErase
  repeat' first
    | with_reducible assumption
    | with_reducible apply KeptO.next
    | with_reducible apply State.access_kept

/-! Functions of Machine/Wake.lean. -/

theorem State.replayIf_kept {q : Q4} (s : State) (hk : Kept q s) : Kept q (State.replayIf s) := by
  unfold State.replayIf
  repeat' first
    | with_reducible assumption
    | with_reducible apply Kept.ite
    | with_reducible apply State.replay_kept
    | split

theorem State.soAnswered_kept {q : Q4} (s : State) (hk : Kept q s) : Kept q (State.soAnswered s) := by
  unfold State.soAnswered
  try dsimp only
  repeat' first
    | with_reducible assumption
    | with_reducible apply State.answerRdp_kept
    | with_reducible apply State.replayIf_kept
    | simp only [Kept.mk_iff]
    | with_reducible apply K5.of
    | with_reducible apply K5.step
    | with_reducible exact id
    | with_reducible exact Tbl.wf_filter
    | exact fun _ => rfl
    | split
    | (intro _; try dsimp only)

theorem execSyncBankApply_kept {q : Q4} (bank : BitVec 1) (s : State) (hk : Kept q s) : KeptO q (execSyncBankApply bank s) := by
  unfold execSyncBankApply
  try dsimp only
  repeat' first
    | with_reducible assumption
    | exact KeptO.fault
    | exact KeptO.refused
    | with_reducible apply KeptO.next
    | with_reducible apply KeptO.ite
    | with_reducible apply Kept.ite
    | with_reducible apply State.bankApply_kept
    | with_reducible apply State.soAnswered_kept
    | simp only [Kept.mk_iff]
    | with_reducible apply K5.of
    | with_reducible apply K5.step
    | with_reducible exact id
    | with_reducible exact Tbl.wf_filter
    | exact fun _ => rfl
    | split
    | refine KeptP.of_eq (by with_reducible assumption) ?_
    | refine Kept.of_pair (by with_reducible assumption) ?_
    | (intro _; try dsimp only)

theorem execEntryAbort_kept {q : Q4} (s : State) (hk : Kept q s) : KeptO q (execEntryAbort s) := by
  unfold execEntryAbort
  repeat' first
    | with_reducible assumption
    | with_reducible apply KeptO.next
    | with_reducible apply KeptO.ite
    | with_reducible apply Kept.ite
    | with_reducible apply State.entryAbort_kept
    | with_reducible apply State.replayIf_kept
    | split

theorem execPwrAck_kept {q : Q4} (dom : BitVec 5) (level : Bool) (s : State) (hk : Kept q s) : KeptO q (execPwrAck dom level s) := by
  unfold execPwrAck
  try dsimp only
  repeat' first
    | with_reducible assumption
    | with_reducible apply KeptO.next
    | with_reducible apply KeptO.ite
    | with_reducible apply Kept.ite
    | with_reducible apply State.pwrAck_kept
    | with_reducible apply State.replayIf_kept
    | split

theorem State.awake_kept {q : Q4} (s : State) (hk : Kept q s) : Kept q (State.awake s) := by
  unfold State.awake
  try dsimp only
  repeat' first
    | with_reducible assumption
    | with_reducible apply Kept.ite
    | with_reducible apply State.wr_kept
    | with_reducible apply State.bump_kept
    | with_reducible apply State.alignAgain_kept
    | simp only [Kept.mk_iff]
    | with_reducible apply K5.of
    | with_reducible apply K5.step
    | with_reducible exact id
    | exact fun _ => rfl
    | split

theorem execWakeDone_kept {q : Q4} (s : State) (hk : Kept q s) : KeptO q (execWakeDone s) := by
  unfold execWakeDone
  repeat' first
    | with_reducible assumption
    | with_reducible apply KeptO.next
    | with_reducible apply KeptO.ite
    | with_reducible apply Kept.ite
    | with_reducible apply State.replay_kept
    | with_reducible apply State.awake_kept
    | split

theorem State.coldInit_kept {q : Q4} (s : State) (hk : Kept q s) : Kept q s.coldInit :=
  ⟨⟨hk.k5.pend, hk.k5.ecp, hk.k5.cwm, hk.k5.store, rfl, rfl, rfl, rfl, rfl, rfl, rfl, rfl, rfl, rfl, rfl, rfl, rfl, rfl, rfl⟩⟩

theorem State.coldAssert_kept {q : Q4} (s : State) (hk : Kept q s) : Kept q (State.coldAssert s) := by
  unfold State.coldAssert
  try dsimp only
  repeat' first
    | with_reducible assumption
    | with_reducible apply State.coldInit_kept
    | simp only [Kept.mk_iff]
    | with_reducible apply K5.of
    | with_reducible apply K5.step
    | with_reducible exact id
    | exact fun _ => rfl

theorem State.coldRelease_kept {q : Q4} (s : State) (hk : Kept q s) : Kept q (State.coldRelease s) := by
  unfold State.coldRelease
  try dsimp only
  repeat' first
    | with_reducible assumption
    | with_reducible apply State.waveOn_kept
    | with_reducible apply State.waveNext_kept
    | with_reducible apply State.replayIf_kept
    | with_reducible apply State.coldInit_kept
    | simp only [Kept.mk_iff]
    | with_reducible apply K5.of
    | with_reducible apply K5.step
    | with_reducible exact id
    | exact fun _ => rfl

theorem execColdReset_kept {q : Q4} (asserted : Bool) (s : State) (hk : Kept q s) : KeptO q (execColdReset asserted s) := by
  unfold execColdReset
  repeat' first
    | with_reducible assumption
    | with_reducible apply KeptO.next
    | with_reducible apply KeptO.ite
    | with_reducible apply Kept.ite
    | with_reducible apply State.coldAssert_kept
    | with_reducible apply State.coldRelease_kept
    | split

/-! Functions of Machine/Tick.lean. -/

theorem State.tick_kept {q : Q4} (s : State) (hk : Kept q s) : Kept q (State.tick s) := by
  unfold State.tick
  try dsimp only
  repeat' first
    | with_reducible assumption
    | with_reducible apply Kept.ite
    | with_reducible apply State.quietTick_kept
    | exact coresOk_remap (fun _ h => Tbl.wf_remap h)
    | simp only [Kept.mk_iff]
    | with_reducible apply K5.of
    | with_reducible apply K5.step
    | with_reducible exact id
    | with_reducible exact Tbl.wf_filter
    | exact fun _ => rfl
    | exact fun h => Tbl.wf_remap h
    | split
    | (intro _; try dsimp only)

end Sys2Proof.Machine
end

