-- ==== Sys2Proof/Laws/Skerry.lean ====
section
/-! SUPPORT. What the shared operations of the Skerry instructions do to threads (Machine/Operands.lean, Machine/Work.lean). -/
set_option linter.all false
namespace Sys2Proof.Machine

variable {s s' : State} {c : BitVec 4} {t : BitVec 3}

/-- The queue and the RTL parameters of a state, as `Kept` names them. -/
abbrev State.q4 (s : State) : Q4 := (s.pending, s.ecpCount, s.cwMap, s.keepStore)

/-- A canonical state is kept. -/
theorem State.canonical_iff : s.canonical = true ↔ Kept s.q4 s := by
  simp only [State.canonical, Bool.and_eq_true, and_assoc]
  constructor
  · rintro ⟨h1, h2, h3, h4, h5, h6, h7, h8, h9, h10, h11, h12, h13, h14, h15⟩
    exact ⟨⟨rfl, rfl, rfl, rfl, h1, h2, h3, h4, h5, h6, h7, h8, h9, h10, h11, h12, h13, h14, h15⟩⟩
  · rintro ⟨⟨_, _, _, _, h1, h2, h3, h4, h5, h6, h7, h8, h9, h10, h11, h12, h13, h14, h15⟩⟩
    exact ⟨h1, h2, h3, h4, h5, h6, h7, h8, h9, h10, h11, h12, h13, h14, h15⟩

/-- A kept state is canonical. -/
theorem Kept.canonical {q : Q4} (h : Kept q s) : s.canonical = true := by
  obtain ⟨⟨_, _, _, _, h1, h2, h3, h4, h5, h6, h7, h8, h9, h10, h11, h12, h13, h14, h15⟩⟩ := h
  simp only [State.canonical, h1, h2, h3, h4, h5, h6, h7, h8, h9, h10, h11, h12, h13, h14, h15, Bool.and_self]

/-- The cores of a kept state are canonical. -/
theorem Kept.cores {q : Q4} (h : Kept q s) : Tbl.wf (fun _ => Core.reset) s.cores = true := by
  have := h.k5.wcores
  simp only [coresOk, Bool.and_eq_true] at this
  exact this.1

/-- A core after a write of a thread. -/
theorem Kept.core_setThread {q : Q4} (h : Kept q s) (c' : BitVec 4) (th : Thread) :
    (s.setThread c t th).core c' =
      if c' = c then { s.core c with threads := Tbl.set (fun _ => Thread.reset) (s.core c).threads t.toNat th } else s.core c' := by
  unfold State.setThread
  exact State.core_setCore h.cores _ _ _

/-- A thread after a write of a thread. -/
theorem Kept.thread_setThread {q : Q4} (h : Kept q s) (c' : BitVec 4) (t' : BitVec 3) (th : Thread) :
    (s.setThread c t th).thread c' t' = if c' = c ∧ t' = t then th else s.thread c' t' := by
  unfold State.thread
  rw [h.core_setThread]
  by_cases hc : c' = c
  · subst hc
    simp only [if_true, true_and, Core.thread, Tbl.get_set (h.threads _), ← BitVec.toNat_eq]
  · simp [hc]

/-- Leaving the rest as it is, twice. -/
theorem LeavesRest.trans {u : State} (h : LeavesRest s u c t) (h' : LeavesRest u s' c t) : LeavesRest s s' c t where
  others := fun c' t' ht =>
    (congrArg (fun th : Thread => { th with counted := (s.thread c' t').counted }) (h'.others c' t' ht)).trans (h.others c' t' ht)
  banks := fun c' => (h'.banks c').trans (h.banks c')
  regs := fun key hk => (h'.regs key hk).trans (h.regs key hk)
  rest := by
    have h1 := congrArg (fun x : State => { x with cores := s.cores, regs := s.regs, progT := s.progT }) h'.rest
    dsimp only at h1
    exact h1.trans h.rest

/-- A write of the thread itself leaves the rest. -/
theorem LeavesRest.setThread {q : Q4} (h : Kept q s) (th : Thread) : LeavesRest s (s.setThread c t th) c t where
  others := fun c' t' ht => by
    rw [h.thread_setThread]
    have : ¬(c' = c ∧ t' = t) := by
      rintro ⟨h1, h2⟩
      cases ht with
      | inl h => exact h h1
      | inr h => exact h h2
    simp [this]
  banks := fun c' => by
    rw [h.core_setThread]
    by_cases hc : c' = c
    · subst hc
      simp
    · simp [hc]
  regs := fun _ _ => rfl
  rest := rfl

/-- A note that a partition has made progress leaves the rest. -/
theorem LeavesRest.progress (p : BitVec 4) : LeavesRest s (s.progress p) c t :=
  ⟨fun _ _ _ => rfl, fun _ => rfl, fun _ _ => rfl, rfl⟩

/-- Nothing changed leaves the rest. -/
theorem LeavesRest.refl : LeavesRest s s c t :=
  ⟨fun _ _ _ => rfl, fun _ => rfl, fun _ _ => rfl, rfl⟩

/-- The note that another thread lost the slot leaves the rest. -/
theorem LeavesRest.note {q : Q4} (h : Kept q s) {t' : BitVec 3} (ht : t' ≠ t) :
    LeavesRest s (s.setThread c t' { s.thread c t' with counted := true }) c t where
  others := fun d u _ => by
    rw [h.thread_setThread]
    split
    · rename_i he
      obtain ⟨rfl, rfl⟩ := he
      rfl
    · rfl
  banks := fun d => by
    rw [h.core_setThread]
    split
    · rename_i he
      subst he
      rfl
    · rfl
  regs := fun _ _ => rfl
  rest := rfl

/-- A count of SKRY.PREEMPTS leaves the rest. -/
theorem LeavesRest.preempts {q : Q4} (h : Kept q s) : LeavesRest s (s.bump (rSKRY c 0x94)) c t where
  others := fun _ _ _ => rfl
  banks := fun _ => rfl
  regs := fun key hk => by
    unfold State.bump
    rw [State.rd_wr h.k5.wregs, if_neg hk]
  rest := rfl

/-- A fold whose steps leave the rest, and the thread itself. -/
theorem LeavesRest.foldl {α : Type} {q : Q4} {f : State → α → State}
    (hf : ∀ u a, Kept q u → Kept q (f u a) ∧ LeavesRest u (f u a) c t ∧ (f u a).thread c t = u.thread c t) (l : List α) :
    ∀ s, Kept q s → LeavesRest s (l.foldl f s) c t ∧ (l.foldl f s).thread c t = s.thread c t := by
  induction l with
  | nil => exact fun _ _ => ⟨.refl, rfl⟩
  | cons a l ih =>
    intro s h
    obtain ⟨h1, h2, h3⟩ := hf s a h
    obtain ⟨h4, h5⟩ := ih _ h1
    exact ⟨h2.trans h4, h5.trans h3⟩

/-- Noting the threads that have lost the slot leaves the rest, and the thread itself. -/
theorem LeavesRest.preempt {q : Q4} (h : Kept q s) :
    LeavesRest s (s.preempt c t) c t ∧ (s.preempt c t).thread c t = s.thread c t := by
  unfold State.preempt
  refine LeavesRest.foldl (q := q) ?_ _ s h
  intro u i hu
  dsimp only
  split
  · rename_i hc
    have hk := State.setThread_kept u c (BitVec.ofNat 3 i) { u.thread c (BitVec.ofNat 3 i) with counted := true } hu
    have h1 := LeavesRest.note (c := c) hu hc.1
    have h2 : (u.setThread c (BitVec.ofNat 3 i) { u.thread c (BitVec.ofNat 3 i) with counted := true }).thread c t = u.thread c t := by
      rw [hu.thread_setThread, if_neg (by rintro ⟨-, he⟩; exact hc.1 he.symm)]
    generalize u.setThread c (BitVec.ofNat 3 i) { u.thread c (BitVec.ofNat 3 i) with counted := true } = v at hk h1 h2
    exact ⟨State.bump_kept _ _ _ hk, h1.trans (LeavesRest.preempts hk), h2⟩
  · exact ⟨hu, .refl, rfl⟩

/-- Noting the thread that was granted last leaves the rest, and the thread. -/
theorem LeavesRest.last {q : Q4} (h : Kept q s) :
    LeavesRest s (s.setCore c { s.core c with lastThread := t }) c t ∧
      (s.setCore c { s.core c with lastThread := t }).thread c t = s.thread c t := by
  have hcore : ∀ c', (s.setCore c { s.core c with lastThread := t }).core c' =
      if c' = c then { s.core c with lastThread := t } else s.core c' := fun c' => State.core_setCore h.cores _ _ _
  have hth : ∀ c' t', (s.setCore c { s.core c with lastThread := t }).thread c' t' = s.thread c' t' := by
    intro c' t'
    unfold State.thread
    rw [hcore]
    split
    · rename_i he
      subst he
      rfl
    · rfl
  refine ⟨⟨?_, ?_, fun _ _ => rfl, rfl⟩, hth c t⟩
  · intro c' t' _
    rw [hth]
  · intro c'
    rw [hcore]
    split
    · rename_i he
      subst he
      rfl
    · rfl

/-- Taking the slot leaves the rest, and the thread has waited for no CCLK. -/
theorem LeavesRest.takeSlot {q : Q4} (h : Kept q s) :
    LeavesRest s (s.takeSlot c t) c t ∧ (s.takeSlot c t).thread c t = { s.thread c t with idle := 0 } := by
  have hp := State.preempt_kept s c t h
  obtain ⟨h1, h2⟩ := LeavesRest.preempt (c := c) (t := t) h
  unfold State.takeSlot
  dsimp only
  generalize s.preempt c t = u at hp h1 h2
  have hk := State.setThread_kept u c t { u.thread c t with idle := 0 } hp
  have h3 := (LeavesRest.setThread (c := c) (t := t) hp { u.thread c t with idle := 0 })
  have h4 : (u.setThread c t { u.thread c t with idle := 0 }).thread c t = { s.thread c t with idle := 0 } := by
    rw [hp.thread_setThread, if_pos ⟨rfl, rfl⟩, h2]
  generalize u.setThread c t { u.thread c t with idle := 0 } = v at hk h3 h4
  have h5 := LeavesRest.last (c := c) (t := t) hk
  exact ⟨(h1.trans h3).trans h5.1, h5.2.trans h4⟩

/-- The thread that has the slot is RUNNING. -/
theorem State.slotThread_running (h : s.slotThread c = some t) : (s.thread c t).st = .running := by
  have key : ∀ (p : BitVec 3 → BitVec 3 → Bool) (l : List (BitVec 3)) (a : Option (BitVec 3)) (P : BitVec 3 → Prop),
      (∀ u ∈ l, P u) → (∀ u, a = some u → P u) → ∀ u,
      l.foldl (fun (a : Option (BitVec 3)) t => match a with | some u => if p t u then some t else a | none => some t) a = some u → P u := by
    intro p l
    induction l with
    | nil => exact fun a P _ ha u hu => ha u hu
    | cons x l ih =>
      intro a P hl ha u hu
      simp only [List.foldl_cons] at hu
      refine ih _ P (fun u hu => hl u (List.mem_cons_of_mem _ hu)) ?_ u hu
      intro v hv
      cases a with
      | none =>
        simp only [Option.some.injEq] at hv
        subst hv
        exact hl _ List.mem_cons_self
      | some w =>
        simp only at hv
        split at hv
        · simp only [Option.some.injEq] at hv
          subst hv
          exact hl _ List.mem_cons_self
        · exact ha _ hv
  unfold State.slotThread at h
  dsimp only at h
  split at h
  · refine key _ _ none (fun u => (s.thread c u).st = .running) ?_ (by simp) t h
    intro u hu
    simp only [List.mem_filter, Thread.ready, Bool.and_eq_true, decide_eq_true_eq] at hu
    exact hu.2.1
  · refine key _ _ none (fun u => (s.thread c u).st = .running) ?_ (by simp) t h
    intro u hu
    simp only [List.mem_filter, Thread.ready, Bool.and_eq_true, decide_eq_true_eq] at hu
    exact hu.1.2.1

/-- A thread that may run is RUNNING, or in BREAK. -/
theorem State.mayRun_st (h : s.mayRun c t = true) : (s.thread c t).st = .running ∨ (s.thread c t).st = .brk := by
  simp only [State.mayRun, Thread.steps, Bool.or_eq_true, Bool.and_eq_true, decide_eq_true_eq] at h
  cases h with
  | inl h => exact .inl (State.slotThread_running h)
  | inr h => exact .inr h.1.1

/-- A retired instruction that does not run on to the end of its program. -/
theorem LeavesRest.retire {q : Q4} (h : Kept q s) (pc : Nat) (hpc : pc ≠ blkLen ((s.thread c t).lines.getD 0 0)) :
    LeavesRest s (s.retire c t pc) c t ∧ (s.retire c t pc).thread c t =
      { s.thread c t with
        pc := pc, retired := satAdd (s.thread c t).retired 1, progress := 0, resumed := false, counted := false, patched := false,
        stepping := false, stall := .none,
        st := if (s.thread c t).st = .stalled ∨ (s.thread c t).st = .waiting then .running else (s.thread c t).st } := by
  unfold State.retire
  simp only [if_neg hpc]
  cases ((s.thread c t).launch.bind s.entry).map (·.part) with
  | none => exact ⟨.setThread h _, by rw [h.thread_setThread, if_pos ⟨rfl, rfl⟩]⟩
  | some p =>
    have hk := State.progress_kept s p h
    exact ⟨(LeavesRest.progress p).trans (.setThread hk _), by rw [hk.thread_setThread, if_pos ⟨rfl, rfl⟩]⟩

/-- An instruction that changes its thread alone and goes on. -/
theorem LeavesRest.ran {q : Q4} (h : Kept q s) (th : Thread) (pc : Nat) (hr : s.mayRun c t = true)
    (hst : th.st = (s.thread c t).st) (hpc : pc ≠ blkLen (th.lines.getD 0 0)) :
    LeavesRest s (((s.takeSlot c t).setThread c t th).retire c t pc) c t ∧
      (((s.takeSlot c t).setThread c t th).retire c t pc).thread c t = { th.after pc with idle := th.idle } := by
  have h1 := State.takeSlot_kept s c t h
  have h2 := State.setThread_kept _ c t th h1
  have h3 : ((s.takeSlot c t).setThread c t th).thread c t = th := by rw [h1.thread_setThread, if_pos ⟨rfl, rfl⟩]
  have h4 := LeavesRest.retire (c := c) (t := t) h2 pc (by rw [h3]; exact hpc)
  refine ⟨((LeavesRest.takeSlot h).1.trans (.setThread h1 th)).trans h4.1, ?_⟩
  rw [h4.2, h3]
  unfold Thread.after
  have := State.mayRun_st hr
  rw [← hst] at this
  obtain this | this := this <;> simp [this]

end Sys2Proof.Machine
end

