-- ==== Sys2Proof/Machine/TestPorts.lean ====
section
/-! DEFINITION. The test ports (spec/20_ports_and_signals.md R612, spec/18_clock_domains.md R547): the TAP, the wrapper serial port
and TEST_MODE. No row of the command table drives their pins, and in functional mode the integrator keeps them at rest, so no command
changes them; these are the effects that R612 gives the pins. What the named standards say is PRESUMED (log entry 44). -/
namespace Sys2Proof.Machine

/-- The next phase of a scan; none leaves it. -/
def ScanPhase.next (p : ScanPhase) (tms : Bool) : Option ScanPhase :=
  match p, tms with
  | .select, false => some .capture | .select, true => none
  | .capture, false => some .shift | .capture, true => some .exit1
  | .shift, false => some .shift | .shift, true => some .exit1
  | .exit1, false => some .pause | .exit1, true => some .update
  | .pause, false => some .pause | .pause, true => some .exit2
  | .exit2, false => some .shift | .exit2, true => some .update
  | .update, _ => none

/-- The TAP controller's state after a TCK edge (IEEE 1149.1). -/
def TapState.next (st : TapState) (tms : Bool) : TapState :=
  match st with
  | .reset => if tms then .reset else .idle
  | .idle => if tms then .scan false .select else .idle
  | .scan ir p => match p.next tms with
    | some q => .scan ir q
    | none => match p, tms with
      | .select, _ => if ir then .reset else .scan true .select
      | _, true => .scan false .select
      | _, false => .idle

/-- IDCODE: the parameter JTAG_IDCODE, whose bit 0 is 1 (R612, R617). -/
def jtagId : Word := Config.jtagIdcode ||| 1#32

/-- The bits of a word, the lowest first. -/
def bitsLow (w : Word) : List Bool := (List.range 32).map (bit w)

/-- What the register that an instruction selects captures: IDCODE, a single 0 for BYPASS; the private instructions are the
integration kit's. -/
def TapInstr.capture : TapInstr → List Bool
  | .idcode => bitsLow jtagId
  | .bypass => [false]
  | .priv op => Config.tapPrivate op

/-- The instruction of a code: all ones is BYPASS; the codes of IDCODE and of the private instructions are the integration kit's. -/
def TapInstr.ofCode (bs : List Bool) : TapInstr :=
  if bs.all id then .bypass else if bs = Config.tapIdcode then .idcode else .priv bs

/-- One shift: TDI enters at the far end. -/
def shiftIn (bs : List Bool) (tdi : Bool) : List Bool := bs.drop 1 ++ [tdi]

/-- A TCK edge. -/
def Tap.clock (t : Tap) (tms tdi : Bool) : Tap :=
  let st := t.st.next tms
  let t : Tap := match t.st with
    | .scan ir .capture => { t with shift := if ir then [true, false] ++ List.replicate (Config.tapIdcode.length - 2) false else t.instr.capture }
    | .scan _ .shift => { t with shift := shiftIn t.shift tdi }
    | .scan true .update => { t with instr := TapInstr.ofCode t.shift }
    | _ => t
  { t with st := st, instr := if st = .reset then .idcode else t.instr }

/-- TDO (R612): 0 outside Shift-DR and Shift-IR. -/
def Tap.tdo (t : Tap) : Bool := match t.st with | .scan _ .shift => t.shift.headD false | _ => false

/-- TCK rises with TMS and TDI at some levels. -/
def State.tckEdge (s : State) (tms tdi : Bool) : State :=
  if s.test.trst then s else { s with test := { s.test with tap := s.test.tap.clock tms tdi } }

/-- TRST_N changes; asserted, it resets the TAP. -/
def State.trstLevel (s : State) (asserted : Bool) : State :=
  { s with test := { s.test with trst := asserted, tap := if asserted then Tap.reset else s.test.tap } }

/-- WRCK rises: the wrapper's bypass bit, which is the path from WSI to WSO from reset on (IEEE 1500), shifts. Any other register of
the wrapper is the integration kit's. -/
def State.wrckEdge (s : State) (selectWir shiftWr wsi : Bool) : State :=
  if shiftWr ∧ !selectWir then { s with test := { s.test with wby := wsi } } else s

/-- WRSTN is asserted. -/
def State.wrstReset (s : State) : State := { s with test := { s.test with wby := false } }

/-- WSO. -/
def State.wso (s : State) : Bool := s.test.wby

/-- TEST_MODE is tied to a level. -/
def State.setTestMode (s : State) (on : Bool) : State := { s with test := { s.test with mode := on } }

end Sys2Proof.Machine
end

