-- ==== Sys2Proof/Tests/Slice0.lean ====
section
/-! SUPPORT. Tests: ill-formed commands that the check refuses, single steps from reset, and for every statement with hypotheses
states and operands that meet them. -/

open Sys2Proof Sys2Proof.Machine

namespace Sys2Proof.Tests

set_option Elab.async false
set_option linter.all false

/-- Every power domain up. -/
def doms : Tbl Dom := (List.range 31).map (fun i => (i + 1, ⟨true, false, false, true, 0⟩))

/-- The block, active and in service, with INIT_DONE set. -/
def up : State :=
  { State.reset with pwr := { State.reset.pwr with mode := .active, doms := doms }, regs := [(pageAddr pGLBL 0x70, 1)] }

/-- The tag of a privileged requester. -/
def root : BitVec 13 := 0x1000

/-- A line from words at byte offsets. -/
def line (ws : List (Nat × Nat)) : Line := ws.foldl (fun l x => Line.put l x.1 (BitVec.ofNat 32 x.2)) 0

/-- A launch block of a program of `len` bytes with `ops` operations and `p` parameters. -/
def block (len ops p : Nat) : Line := line [(8, len + ops * 2 ^ 16 + p * 2 ^ 25)]

/-- A launch of partition 0, function 0, running on thread 0 of core 0. -/
def key0 : EKey := ⟨0, 0⟩
def launch0 : Entry := { Entry.fresh .launch 0 0 [0] with stage := .running, core := some 0, thread := some 0, released := true }

/-- Thread 0 of core 0, running the launch with the lines given. -/
def thread0 (lines : List Line) : Thread :=
  { Thread.reset with st := .running, launch := some key0, lines := lines, arrived := lines.length }

/-- The bank that holds the program of a launch block: `words` from its first byte on. -/
def bank0 (b : Line) (ws : List (Nat × Nat)) : Bank := ⟨[⟨progKey 0 b, true, false, 0, 0⟩], [(0, line ws)]⟩

/-- The block with the launch on thread 0 of core 0, its thread changed by `f`, the program's words given. -/
def core0 (lines : List Line) (ws : List (Nat × Nat)) (f : Thread → Thread) : State :=
  { up with
    cores := [(0, { Core.reset with threads := [(0, f (thread0 lines))], bankA := bank0 (lines.getD 0 0) ws })]
    entries := [(0, some launch0)] }

/-- A thread whose registers 1, 2 and 3 hold values. -/
def regs3 (x y z : Dword) (th : Thread) : Thread := ((th.setReg 1 x).setReg 2 y).setReg 3 z

/-- An instruction word of the R format (spec/06 R213): opcode, rd, rs1, rs2 and function code. -/
def rw (op rd rs1 rs2 fn : Nat) : Word := BitVec.ofNat 32 (op * 2 ^ 26 + rd * 2 ^ 21 + rs1 * 2 ^ 16 + rs2 * 2 ^ 11 + fn)

/-- An instruction word of the I or B format (R213): opcode, two register numbers and 16 bits. -/
def iw (op rd rs1 imm : Nat) : Word := BitVec.ofNat 32 (op * 2 ^ 26 + rd * 2 ^ 21 + rs1 * 2 ^ 16 + imm)

/-- The block whose thread stands at `w` with 16 instructions to go, and x1, x2, x3 at three values. -/
def at1 (w : Word) (x y z : Dword) : State :=
  core0 [block 64 0 0] [(0, w.toNat)] (regs3 x y z)
/-- Partition 0's entry of the partition map: enabled, with sync objects 0 to 63 and port 0. -/
def pmap0 : BitVec 256 := BitVec.ofNat 256 (2 ^ 79 + 64 * 2 ^ 52 + 2 ^ 128)

/-- A state with partition 0 so set up, and function 0 bound to it. -/
def withPart (s : State) : State :=
  { s with pmapA := [(0, pmap0)], pmapB := [(0, pmap0)], fpmA := [(0, 0x40)], fpmB := [(0, 0x40)] }

/-- A state with port 0 in service, with a depth of 8. -/
def withPort (s : State) : State := (s.setPort 0 { Port.reset with st := .inService }).wr (rEPRT 0 0x44) 8

/-- An operation line of a kind with one of the engines' own bodies, naming port number 0 of the partition. -/
def opLine (kind : Nat) (more : List (Nat × Nat)) : Line := line ([(0, kind), (0x24, 0x40000000)] ++ more)

/-- The block whose thread stands at `w`, in a launch with the operation lines and operation states given. -/
def at2 (w : Word) (x y z : Dword) (ls : List Line) (ops : List OpState) : State :=
  let s := withPort (withPart (core0 ([block 64 ls.length 0] ++ ls) [(0, w.toNat)] (regs3 x y z)))
  { s with entries := [(0, some { launch0 with ops := ops })] }
/-- A state in which one read of `n` lines, or one write, waits for its answer. -/
def reads (s : State) (why : Why) (n : Nat) : State := { s with mmp := [⟨some 0, .fetch, 0, .read, 0, 64 * n, [], why⟩] }
def writes (s : State) (why : Why) : State := { s with mmp := [⟨some 0, .writeback, 0, .write, 0, 64, [0], why⟩] }

/-- What is left once the answer of that read, or of that write, has come; and the request itself. -/
def afterR (s : State) : State := (s.answer true 0 0).1
def afterW (s : State) : State := (s.answer false 0 0).1
def asked (why : Why) (n : Nat) : MReq := ⟨some 0, .fetch, 0, .read, 0, 64 * n, [], why⟩
def wrote (why : Why) : MReq := ⟨some 0, .writeback, 0, .write, 0, 64, [0], why⟩

/-! ## Ill-formed commands (WellFormed.lean) -/

/-- A read answer of nine lines: none is longer than eight (R584). -/
theorem test_ill_read : (Instr.ringReadReturn 0 0 false (List.replicate 9 0)).wellFormed = false := by decide

/-- A write acknowledgement with a line. -/
theorem test_ill_answer : (Instr.ctxCmdDone 0 true 0 0 false [0]).wellFormed = false := by decide

/-- A report of port 16 shown to group 0's collector (R403). -/
theorem test_ill_shown : (Instr.reportAccept 0 [⟨16, 0, 0, 0, 0⟩]).wellFormed = false := by decide

/-- A firmware slot of 4,097 lines (R563). -/
theorem test_ill_store : (Instr.keeperBoot ⟨0, 0, List.replicate 4097 0, []⟩).wellFormed = false := by decide +kernel

/-- Eleven clocks: twelve are measured (R543). -/
theorem test_ill_clocks : (Instr.clockMeasure (List.replicate 11 0)).wellFormed = false := by decide

/-! ## Single steps -/

/-- A state answers a next state that passes a check. -/
def next? (o : Host.Outcome State Fault Refusal) (p : State → Bool) : Bool := match o with | .next t => p t | _ => false

/-- An ACLK edge after reset: device time is 10 ns (R555). -/
theorem test_first_edge : next? (step { State.reset with pending := [.deviceTimeTick] }) (fun t => decide (t.time = 10)) = true := by decide +kernel

/-- The first acknowledgement of the power-up: domain 1 is up, and wave 2 waits for domain 2 (R520, R533). -/
theorem test_first_ack : next? (step { State.reset with pending := [.pwrAck 1 true] }) (fun t => t.powered 1 && !t.powered 2 && decide (t.pwr.wave = 1)) = true := by
  decide +kernel

/-- A step takes the front of the queue and leaves the rest. -/
theorem test_queue_order : next? (step { State.reset with pending := [.idleExit, .deviceTimeTick] }) (fun t => decide (t.pending = [.deviceTimeTick])) = true := by
  decide +kernel

/-- The shift by a register takes bits 5:0 of rs2 (R215): 1 shifted left by 65 is 2. -/
theorem test_shift_amount : next? (exec (.sll 0 0) (at1 (rw 1 3 1 2 5) 1 65 0)) (fun t => decide ((t.thread 0 0).reg 3 = 2)) = true := by decide +kernel

/-- MULHU of all ones by 2 is 1 (R215), with the destination one of its sources. -/
theorem test_mulhu_own_source : next? (exec (.mulhu 0 0) (at1 (rw 1 1 1 2 9) (0 - 1) 2 0)) (fun t => decide ((t.thread 0 0).reg 1 = 1)) = true := by decide +kernel

/-- No word spells a command: the table gives no row bits. -/
theorem test_no_words : decodeTableWord 32 0 = none := by decide

/-- An Except that is a given error, or a given value, by a check. -/
theorem except_error {α β : Type} [DecidableEq α] {x : Except α β} {a : α} (h : (match x with | .error b => decide (b = a) | .ok _ => false) = true) :
    x = .error a := by cases x <;> simp_all
theorem except_ok {α β : Type} [DecidableEq β] {x : Except α β} {a : β} (h : (match x with | .ok b => decide (b = a) | .error _ => false) = true) :
    x = .ok a := by cases x <;> simp_all


/-! ## Skerry -/

/-- For RegisterFileAndPages. -/
theorem witness_RegisterFile :
    31 < 32 ∧ 1 < 32 :=
  by decide +kernel

/-- For RegisterFileAndPages. -/
theorem witness_ParameterSlots :
    ∃ (w : Word) (s : State), s.standsAt (0 : BitVec 4) (0 : BitVec 3) w = true ∧ BitVec.toNat ((s.thread (0 : BitVec 4) (0
    : BitVec 3)).reg (iRs1 w) + BitVec.ofInt 64 (BitVec.extractLsb' 0 16 w).toInt) < 32 ∧ iOp w = 23 :=
  ⟨iw 0x17 1 2 31, at1 (iw 0x17 1 2 31) 5 0 0, by decide +kernel⟩

/-- For RegisterFileAndPages. -/
theorem witness_SpecialRegisters :
    ∃ (w : Word) (s : State), s.standsAt (0 : BitVec 4) (0 : BitVec 3) w = true ∧ (s.thread (0 : BitVec 4) (0 : BitVec
    3)).launch = some key0 ∧ s.entry key0 = some launch0 ∧ iOp w = 32 ∧ iRs1 w = 0 ∧ BitVec.extractLsb' 0 16 w =
    BitVec.ofNat 16 15 :=
  ⟨iw 0x20 1 0 15, at1 (iw 0x20 1 0 15) 5 0 0, by decide +kernel⟩

/-- For AluResults. -/
theorem witness_AluResults :
    ∃ (w : Word) (s : State), s.standsAt (0 : BitVec 4) (0 : BitVec 3) w = true ∧ iOp w = 1 ∧ BitVec.extractLsb' 4 7 w =
    BitVec.ofNat 7 0 ∧ BitVec.toNat w % 16 = 0 :=
  ⟨rw 1 3 1 2 0, at1 (rw 1 3 1 2 0) (0 - 1) 2 0, by decide +kernel⟩

/-- For AluResults. -/
theorem witness_AluResultsMaxu :
    ∃ (w : Word) (s : State), s.standsAt (0 : BitVec 4) (0 : BitVec 3) w = true ∧ iOp w = 1 ∧ BitVec.extractLsb' 4 7 w =
    BitVec.ofNat 7 0 ∧ BitVec.toNat w % 16 = 15 :=
  ⟨rw 1 0 1 2 15, at1 (rw 1 0 1 2 15) (0 - 1) 2 0, by decide +kernel⟩

/-- For AluResults. -/
theorem witness_ImmediateResults :
    ∃ (w : Word) (s : State), s.standsAt (0 : BitVec 4) (0 : BitVec 3) w = true ∧ iOp w = 2 ∧ true = true :=
  ⟨iw 2 1 1 0xFFFF, at1 (iw 2 1 1 0xFFFF) 5 0 0, by decide +kernel⟩

/-- For AluResults. -/
theorem witness_ImmediateShifts :
    ∃ (w : Word) (s : State), s.standsAt (0 : BitVec 4) (0 : BitVec 3) w = true ∧ iOp w = 6 ∧ decide ((BitVec.extractLsb' 0
    16 w).toNat / 64 = 2) = true :=
  ⟨iw 6 1 1 0xBF, at1 (iw 6 1 1 0xBF) 5 0 0, by decide +kernel⟩

/-- For AluResults. -/
theorem witness_ImmediateLui :
    ∃ (w : Word) (s : State), s.standsAt (0 : BitVec 4) (0 : BitVec 3) w = true ∧ iOp w = 7 ∧ decide (iRs1 w = 0) = true :=
  ⟨iw 7 1 0 0xBF, at1 (iw 7 1 0 0xBF) 5 0 0, by decide +kernel⟩

/-- For Views. -/
theorem witness_ViewMap :
    ∃ (th : Thread), 256 ≤ 511 ∧ 511 < 512 ∧ blkConst (th.lines.getD 0 (0 : Line)) = true ∧ 16384 ≤ 16511 ∧ 16511 < 16384 +
    64 * blkOps (th.lines.getD 0 (0 : Line)) ∧ 512 ≤ 1535 ∧ 1535 < 1536 ∧ 16384 + 64 * blkOps (th.lines.getD 0 (0 : Line)) ≤
    16512 :=
  ⟨thread0 [line [(8, 64 + 2 * 2 ^ 16 + 17 * 2 ^ 25 + 2 ^ 31)]], by decide +kernel⟩

/-- For Views. -/
theorem witness_ViewLoads :
    ∃ (w : Word) (s : State), s.standsAt (0 : BitVec 4) (0 : BitVec 3) w = true ∧ BitVec.toNat ((s.thread (0 : BitVec 4) (0
    : BitVec 3)).reg (iRs1 w) + BitVec.ofInt 64 (BitVec.extractLsb' 0 16 w).toInt) < 32768 ∧ (s.thread (0 : BitVec 4) (0 :
    BitVec 3)).place (BitVec.toNat ((s.thread (0 : BitVec 4) (0 : BitVec 3)).reg (iRs1 w) + BitVec.ofInt 64
    (BitVec.extractLsb' 0 16 w).toInt)) ≠ Place.none ∧ (s.thread (0 : BitVec 4) (0 : BitVec 3)).present ((s.thread (0 :
    BitVec 4) (0 : BitVec 3)).place (BitVec.toNat ((s.thread (0 : BitVec 4) (0 : BitVec 3)).reg (iRs1 w) + BitVec.ofInt 64
    (BitVec.extractLsb' 0 16 w).toInt))) = true ∧ iOp w = 16 ∧ BitVec.toNat ((s.thread (0 : BitVec 4) (0 : BitVec 3)).reg
    (iRs1 w) + BitVec.ofInt 64 (BitVec.extractLsb' 0 16 w).toInt) % 8 = 0 :=
  ⟨iw 0x10 1 2 0x5F8, at1 (iw 0x10 1 2 0x5F8) 5 0 0, by decide +kernel⟩

/-- For Views. -/
theorem witness_ViewLoadsWaits :
    ∃ (w : Word) (s : State), s.standsAt (0 : BitVec 4) (0 : BitVec 3) w = true ∧ BitVec.toNat ((s.thread (0 : BitVec 4) (0
    : BitVec 3)).reg (iRs1 w) + BitVec.ofInt 64 (BitVec.extractLsb' 0 16 w).toInt) < 32768 ∧ (s.thread (0 : BitVec 4) (0 :
    BitVec 3)).place (BitVec.toNat ((s.thread (0 : BitVec 4) (0 : BitVec 3)).reg (iRs1 w) + BitVec.ofInt 64
    (BitVec.extractLsb' 0 16 w).toInt)) ≠ Place.none ∧ (s.thread (0 : BitVec 4) (0 : BitVec 3)).present ((s.thread (0 :
    BitVec 4) (0 : BitVec 3)).place (BitVec.toNat ((s.thread (0 : BitVec 4) (0 : BitVec 3)).reg (iRs1 w) + BitVec.ofInt 64
    (BitVec.extractLsb' 0 16 w).toInt))) = false ∧ iOp w = 17 ∧ BitVec.toNat ((s.thread (0 : BitVec 4) (0 : BitVec 3)).reg
    (iRs1 w) + BitVec.ofInt 64 (BitVec.extractLsb' 0 16 w).toInt) % 4 = 0 :=
  ⟨iw 0x11 1 2 0x4040, core0 [block 64 2 0] [(0, (iw 0x11 1 2 0x4040).toNat)] id, by decide +kernel⟩

/-- For Views. -/
theorem witness_ViewStores :
    ∃ (w : Word) (s : State), s.standsAt (0 : BitVec 4) (0 : BitVec 3) w = true ∧ BitVec.toNat ((s.thread (0 : BitVec 4) (0
    : BitVec 3)).reg (iRs1 w) + BitVec.ofInt 64 (BitVec.extractLsb' 0 16 w).toInt) < 32768 ∧ (s.thread (0 : BitVec 4) (0 :
    BitVec 3)).place (BitVec.toNat ((s.thread (0 : BitVec 4) (0 : BitVec 3)).reg (iRs1 w) + BitVec.ofInt 64
    (BitVec.extractLsb' 0 16 w).toInt)) ≠ Place.none ∧ (s.thread (0 : BitVec 4) (0 : BitVec 3)).present ((s.thread (0 :
    BitVec 4) (0 : BitVec 3)).place (BitVec.toNat ((s.thread (0 : BitVec 4) (0 : BitVec 3)).reg (iRs1 w) + BitVec.ofInt 64
    (BitVec.extractLsb' 0 16 w).toInt))) = true ∧ ((s.thread (0 : BitVec 4) (0 : BitVec 3)).writable ((Option.map (fun x =>
    x.ops) ((s.thread (0 : BitVec 4) (0 : BitVec 3)).launch.bind s.entry)).getD []) ((s.thread (0 : BitVec 4) (0 : BitVec
    3)).place (BitVec.toNat ((s.thread (0 : BitVec 4) (0 : BitVec 3)).reg (iRs1 w) + BitVec.ofInt 64 (BitVec.extractLsb' 0
    16 w).toInt))) = true) ∧ iOp w = 20 ∧ BitVec.toNat ((s.thread (0 : BitVec 4) (0 : BitVec 3)).reg (iRs1 w) + BitVec.ofInt
    64 (BitVec.extractLsb' 0 16 w).toInt) % 8 = 0 :=
  ⟨iw 0x14 1 2 0x5F8, at1 (iw 0x14 1 2 0x5F8) 5 0 0, by decide +kernel⟩

/-- For BranchesAndJumps. -/
theorem witness_Branches :
    ∃ (w : Word) (s : State), s.at (0 : BitVec 4) (0 : BitVec 3) w = true ∧ iOp w = 24 ∧ decide ((s.thread (0 : BitVec 4) (0
    : BitVec 3)).reg (iRd w) = (s.thread (0 : BitVec 4) (0 : BitVec 3)).reg (iRs1 w)) = true ∧ (0 : Int) ≤ ↑(s.thread (0 :
    BitVec 4) (0 : BitVec 3)).pc + (4 : Int) * (BitVec.extractLsb' 0 16 w).toInt ∧ ↑(s.thread (0 : BitVec 4) (0 : BitVec
    3)).pc + (4 : Int) * (BitVec.extractLsb' 0 16 w).toInt < ↑(blkLen ((s.thread (0 : BitVec 4) (0 : BitVec 3)).lines.getD 0
    (0 : Line))) ∧ (↑(s.thread (0 : BitVec 4) (0 : BitVec 3)).pc + (4 : Int) * (BitVec.extractLsb' 0 16 w).toInt) % (4 :
    Int) = 0 :=
  ⟨iw 0x18 1 2 15, at1 (iw 0x18 1 2 15) 5 5 0, by decide +kernel⟩

/-- For BranchesAndJumps. -/
theorem witness_BranchesOn :
    ∃ (w : Word) (s : State), s.at (0 : BitVec 4) (0 : BitVec 3) w = true ∧ iOp w = 29 ∧ decide (BitVec.toNat ((s.thread (0
    : BitVec 4) (0 : BitVec 3)).reg (iRs1 w)) ≤ BitVec.toNat ((s.thread (0 : BitVec 4) (0 : BitVec 3)).reg (iRd w))) = false
    ∧ s.notLast (0 : BitVec 4) (0 : BitVec 3) = true :=
  ⟨iw 0x1D 1 2 15, at1 (iw 0x1D 1 2 15) 5 6 0, by decide +kernel⟩

/-- For BranchesAndJumps. -/
theorem witness_Jumps :
    ∃ (w : Word) (s : State), s.at (0 : BitVec 4) (0 : BitVec 3) w = true ∧ iOp w = 31 ∧ BitVec.extractLsb' 0 16 w =
    BitVec.ofNat 16 0 ∧ ((0 : Int) ≤ ↑(BitVec.toNat ((s.thread (0 : BitVec 4) (0 : BitVec 3)).reg (iRs1 w))) ∧
    ↑(BitVec.toNat ((s.thread (0 : BitVec 4) (0 : BitVec 3)).reg (iRs1 w))) < ↑(blkLen ((s.thread (0 : BitVec 4) (0 : BitVec
    3)).lines.getD 0 (0 : Line))) ∧ ↑(BitVec.toNat ((s.thread (0 : BitVec 4) (0 : BitVec 3)).reg (iRs1 w))) % (4 : Int) = 0) :=
  ⟨iw 0x1F 1 1 0, at1 (iw 0x1F 1 1 0) 60 0 0, by decide +kernel⟩

/-- For Issues. -/
theorem witness_IssueNop :
    ∃ (w : Word) (s : State) (e : Entry), s.issuesAt (0 : BitVec 4) (0 : BitVec 3) w key0 e = true ∧ iOp w = 40 ∧ iRd w = 0
    ∧ BitVec.extractLsb' 8 8 w = BitVec.ofNat 8 0 ∧ s.mayIssue (0 : BitVec 4) (0 : BitVec 3) e (BitVec.toNat ((s.thread (0 :
    BitVec 4) (0 : BitVec 3)).reg (iRs1 w) + BitVec.ofNat 64 (BitVec.toNat w % 256))) = true ∧ opKind (s.opLine e
    (BitVec.toNat ((s.thread (0 : BitVec 4) (0 : BitVec 3)).reg (iRs1 w) + BitVec.ofNat 64 (BitVec.toNat w % 256)))) = 0 ∧
    e.ended = false ∧ ((e.ops.all fun o => decide (o ≠ OpState.window)) = true) :=
  ⟨iw 0x28 0 1 1, at2 (iw 0x28 0 1 1) 0 0 0 [opLine 1 [], 0] [.done, .idle], { launch0 with ops := [.done, .idle] },
    by decide +kernel⟩

/-- For Issues. -/
theorem witness_IssueWindow :
    ∃ (w : Word) (s : State) (e : Entry), s.issuesAt (0 : BitVec 4) (0 : BitVec 3) w key0 e = true ∧ iOp w = 40 ∧ iRd w = 0
    ∧ BitVec.extractLsb' 8 8 w = BitVec.ofNat 8 0 ∧ s.mayIssue (0 : BitVec 4) (0 : BitVec 3) e (BitVec.toNat ((s.thread (0 :
    BitVec 4) (0 : BitVec 3)).reg (iRs1 w) + BitVec.ofNat 64 (BitVec.toNat w % 256))) = true ∧ opKind (s.opLine e
    (BitVec.toNat ((s.thread (0 : BitVec 4) (0 : BitVec 3)).reg (iRs1 w) + BitVec.ofNat 64 (BitVec.toNat w % 256)))) ≠ 0 ∧
    e.depsOver (s.opLine e (BitVec.toNat ((s.thread (0 : BitVec 4) (0 : BitVec 3)).reg (iRs1 w) + BitVec.ofNat 64
    (BitVec.toNat w % 256)))) (BitVec.toNat ((s.thread (0 : BitVec 4) (0 : BitVec 3)).reg (iRs1 w) + BitVec.ofNat 64
    (BitVec.toNat w % 256))) = false ∧ e.windowSize < 16 :=
  ⟨iw 0x28 0 1 1, at2 (iw 0x28 0 1 1) 0 0 0 [opLine 1 [], opLine 1 [(8, 1)]] [.window, .idle],
    { launch0 with ops := [.window, .idle] }, by decide +kernel⟩

/-- For Issues. -/
theorem witness_IssueFull :
    ∃ (w : Word) (s : State) (e : Entry), s.issuesAt (0 : BitVec 4) (0 : BitVec 3) w key0 e = true ∧ iOp w = 40 ∧ iRd w = 0
    ∧ BitVec.extractLsb' 8 8 w = BitVec.ofNat 8 0 ∧ s.mayIssue (0 : BitVec 4) (0 : BitVec 3) e (BitVec.toNat ((s.thread (0 :
    BitVec 4) (0 : BitVec 3)).reg (iRs1 w) + BitVec.ofNat 64 (BitVec.toNat w % 256))) = true ∧ opKind (s.opLine e
    (BitVec.toNat ((s.thread (0 : BitVec 4) (0 : BitVec 3)).reg (iRs1 w) + BitVec.ofNat 64 (BitVec.toNat w % 256)))) ≠ 0 ∧
    e.depsOver (s.opLine e (BitVec.toNat ((s.thread (0 : BitVec 4) (0 : BitVec 3)).reg (iRs1 w) + BitVec.ofNat 64
    (BitVec.toNat w % 256)))) (BitVec.toNat ((s.thread (0 : BitVec 4) (0 : BitVec 3)).reg (iRs1 w) + BitVec.ofNat 64
    (BitVec.toNat w % 256))) = false ∧ 16 ≤ e.windowSize :=
  ⟨iw 0x28 0 1 16, at2 (iw 0x28 0 1 16) 0 0 0 (List.replicate 16 0 ++ [opLine 1 [(8, 1)]]) (List.replicate 16 .window ++
    [.idle]), { launch0 with ops := List.replicate 16 .window ++ [.idle] }, by decide +kernel⟩

/-- For Issues. -/
theorem witness_IssueCandidate :
    ∃ (w : Word) (s : State) (e : Entry), s.issuesAt (0 : BitVec 4) (0 : BitVec 3) w key0 e = true ∧ iOp w = 40 ∧ iRd w = 0
    ∧ BitVec.extractLsb' 8 8 w = BitVec.ofNat 8 0 ∧ s.mayIssue (0 : BitVec 4) (0 : BitVec 3) e (BitVec.toNat ((s.thread (0 :
    BitVec 4) (0 : BitVec 3)).reg (iRs1 w) + BitVec.ofNat 64 (BitVec.toNat w % 256))) = true ∧ opKind (s.opLine e
    (BitVec.toNat ((s.thread (0 : BitVec 4) (0 : BitVec 3)).reg (iRs1 w) + BitVec.ofNat 64 (BitVec.toNat w % 256)))) ≠ 0 ∧
    e.depsOver (s.opLine e (BitVec.toNat ((s.thread (0 : BitVec 4) (0 : BitVec 3)).reg (iRs1 w) + BitVec.ofNat 64
    (BitVec.toNat w % 256)))) (BitVec.toNat ((s.thread (0 : BitVec 4) (0 : BitVec 3)).reg (iRs1 w) + BitVec.ofNat 64
    (BitVec.toNat w % 256))) = true ∧ s.opPort key0 e (s.opLine e (BitVec.toNat ((s.thread (0 : BitVec 4) (0 : BitVec
    3)).reg (iRs1 w) + BitVec.ofNat 64 (BitVec.toNat w % 256)))) (BitVec.toNat ((s.thread (0 : BitVec 4) (0 : BitVec 3)).reg
    (iRs1 w) + BitVec.ofNat 64 (BitVec.toNat w % 256))) = some 0 ∧ s.bodyCheck e.part (s.opLine e (BitVec.toNat ((s.thread
    (0 : BitVec 4) (0 : BitVec 3)).reg (iRs1 w) + BitVec.ofNat 64 (BitVec.toNat w % 256)))) = none ∧ (s.port 0).serves =
    true :=
  ⟨iw 0x28 0 1 0, at2 (iw 0x28 0 1 0) 0 0 0 [opLine 1 []] [.idle], { launch0 with ops := [.idle] }, by decide +kernel⟩

/-- For Issues. -/
theorem witness_IssueWaiter :
    ∃ (w : Word) (s : State) (e : Entry), s.issuesAt (0 : BitVec 4) (0 : BitVec 3) w key0 e = true ∧ iOp w = 41 ∧
    BitVec.extractLsb' 0 11 w = BitVec.ofNat 11 0 ∧ s.mayIssue (0 : BitVec 4) (0 : BitVec 3) e (BitVec.toNat ((s.thread (0 :
    BitVec 4) (0 : BitVec 3)).reg (iRs1 w))) = true ∧ opKind (s.opLine e (BitVec.toNat ((s.thread (0 : BitVec 4) (0 : BitVec
    3)).reg (iRs1 w)))) ≠ 0 ∧ BitVec.toNat ((s.thread (0 : BitVec 4) (0 : BitVec 3)).reg (iRs2 w)) < 16384 ∧ s.soIn e.part
    (BitVec.toNat ((s.thread (0 : BitVec 4) (0 : BitVec 3)).reg (iRs2 w))) = true ∧ e.windowSize < 16 ∧ (s.obj (BitVec.toNat
    ((s.thread (0 : BitVec 4) (0 : BitVec 3)).reg (iRs2 w)))).holds ((s.thread (0 : BitVec 4) (0 : BitVec 3)).reg (iRd w)) =
    false :=
  ⟨rw 0x29 3 1 2 0, at2 (rw 0x29 3 1 2 0) 0 63 5 [opLine 1 []] [.idle], { launch0 with ops := [.idle] },
    by decide +kernel⟩

/-- For Waits. -/
theorem witness_QueueDepth :
    ∃ (w : Word) (s : State) (e : Entry), s.standsAt (0 : BitVec 4) (0 : BitVec 3) w = true ∧ (s.thread (0 : BitVec 4) (0 :
    BitVec 3)).launch = some key0 ∧ s.entry key0 = some e ∧ iOp w = 42 ∧ BitVec.extractLsb' 0 16 w = BitVec.ofNat 16 0 ∧
    BitVec.toNat ((s.thread (0 : BitVec 4) (0 : BitVec 3)).reg (iRs1 w)) < blkOps ((s.thread (0 : BitVec 4) (0 : BitVec
    3)).lines.getD 0 (0 : Line)) ∧ (s.thread (0 : BitVec 4) (0 : BitVec 3)).present (Place.op (BitVec.toNat ((s.thread (0 :
    BitVec 4) (0 : BitVec 3)).reg (iRs1 w))) 0) = true ∧ s.opPort key0 e (s.opLine e (BitVec.toNat ((s.thread (0 : BitVec 4)
    (0 : BitVec 3)).reg (iRs1 w)))) (BitVec.toNat ((s.thread (0 : BitVec 4) (0 : BitVec 3)).reg (iRs1 w))) = some 0 ∧ 0 <
    1024 :=
  ⟨iw 0x2A 3 1 0, at2 (iw 0x2A 3 1 0) 0 63 5 [opLine 1 []] [.idle], { launch0 with ops := [.idle] }, by decide +kernel⟩

/-- For Waits. -/
theorem witness_QueueDepthNone :
    ∃ (w : Word) (s : State) (e : Entry), s.standsAt (0 : BitVec 4) (0 : BitVec 3) w = true ∧ (s.thread (0 : BitVec 4) (0 :
    BitVec 3)).launch = some key0 ∧ s.entry key0 = some e ∧ iOp w = 42 ∧ BitVec.extractLsb' 0 16 w = BitVec.ofNat 16 0 ∧
    BitVec.toNat ((s.thread (0 : BitVec 4) (0 : BitVec 3)).reg (iRs1 w)) < blkOps ((s.thread (0 : BitVec 4) (0 : BitVec
    3)).lines.getD 0 (0 : Line)) ∧ (s.thread (0 : BitVec 4) (0 : BitVec 3)).present (Place.op (BitVec.toNat ((s.thread (0 :
    BitVec 4) (0 : BitVec 3)).reg (iRs1 w))) 0) = true ∧ s.opPort key0 e (s.opLine e (BitVec.toNat ((s.thread (0 : BitVec 4)
    (0 : BitVec 3)).reg (iRs1 w)))) (BitVec.toNat ((s.thread (0 : BitVec 4) (0 : BitVec 3)).reg (iRs1 w))) = none :=
  ⟨iw 0x2A 3 1 0, at2 (iw 0x2A 3 1 0) 0 63 5 [opLine 1 [(0, 0x10001)]] [.idle], { launch0 with ops := [.idle] },
    by decide +kernel⟩

/-- For Waits. -/
theorem witness_WaitN :
    ∃ (w : Word) (s : State), iOp w = 43 ∧ BitVec.extractLsb' 0 11 w = BitVec.ofNat 11 0 ∧ (s.thread (0 : BitVec 4) (0 :
    BitVec 3)).launch = some key0 ∧ s.entry key0 = some launch0 ∧ launch0.nDone < 2 ^ 64 ∧ s.standsAt (0 : BitVec 4) (0 :
    BitVec 3) w = true ∧ (decide (BitVec.toNat ((s.thread (0 : BitVec 4) (0 : BitVec 3)).reg (iRs1 w)) ≤ launch0.nDone) ||
    decide ((s.thread (0 : BitVec 4) (0 : BitVec 3)).reg (iRs2 w) ≠ 0) && decide (min (BitVec.toNat ((s.thread (0 : BitVec
    4) (0 : BitVec 3)).reg (iRs2 w))) (2 ^ 48 - 1) ≤ (s.thread (0 : BitVec 4) (0 : BitVec 3)).count)) = true :=
  ⟨rw 0x2B 3 1 2 0, at2 (rw 0x2B 3 1 2 0) 0 0 5 [] [], by decide +kernel⟩

/-- For Waits. -/
theorem witness_WaitNWaits :
    ∃ (w : Word) (s : State), iOp w = 43 ∧ BitVec.extractLsb' 0 11 w = BitVec.ofNat 11 0 ∧ (s.thread (0 : BitVec 4) (0 :
    BitVec 3)).launch = some key0 ∧ s.entry key0 = some launch0 ∧ launch0.nDone < 2 ^ 64 ∧ s.standsAt (0 : BitVec 4) (0 :
    BitVec 3) w = true ∧ (decide (BitVec.toNat ((s.thread (0 : BitVec 4) (0 : BitVec 3)).reg (iRs1 w)) ≤ launch0.nDone) ||
    decide ((s.thread (0 : BitVec 4) (0 : BitVec 3)).reg (iRs2 w) ≠ 0) && decide (min (BitVec.toNat ((s.thread (0 : BitVec
    4) (0 : BitVec 3)).reg (iRs2 w))) (2 ^ 48 - 1) ≤ (s.thread (0 : BitVec 4) (0 : BitVec 3)).count)) = false :=
  ⟨rw 0x2B 3 1 2 0, at2 (rw 0x2B 3 1 2 0) 1 1 5 [] [], by decide +kernel⟩

/-- For Waits. -/
theorem witness_WaitNDone :
    ∃ (w : Word) (s : State), iOp w = 43 ∧ BitVec.extractLsb' 0 11 w = BitVec.ofNat 11 0 ∧ (s.thread (0 : BitVec 4) (0 :
    BitVec 3)).launch = some key0 ∧ s.entry key0 = some launch0 ∧ launch0.nDone < 2 ^ 64 ∧ s.canonical = true ∧ s.notLast (0
    : BitVec 4) (0 : BitVec 3) = true ∧ s.insn (0 : BitVec 4) (0 : BitVec 3) = w ∧ (s.thread (0 : BitVec 4) (0 : BitVec
    3)).st = ThrState.waiting ∧ (decide (BitVec.toNat ((s.thread (0 : BitVec 4) (0 : BitVec 3)).reg (iRs1 w)) ≤
    launch0.nDone) || decide ((s.thread (0 : BitVec 4) (0 : BitVec 3)).reg (iRs2 w) ≠ 0) && decide (min (BitVec.toNat
    ((s.thread (0 : BitVec 4) (0 : BitVec 3)).reg (iRs2 w))) (2 ^ 48 - 1) ≤ (s.thread (0 : BitVec 4) (0 : BitVec 3)).count))
    = true :=
  ⟨rw 0x2B 3 1 2 0, core0 [block 64 0 0] [(0, (rw 0x2B 3 1 2 0).toNat)] (fun th =>
    { regs3 1 7 0 th with st := .waiting, progress := progressOf 3 7 }), by decide +kernel⟩

/-- For PatchesAndCopies. -/
theorem witness_PatchSteps :
    ∃ (w : Word) (s : State), s.standsAt (0 : BitVec 4) (0 : BitVec 3) w = true ∧ iOp w = 44 ∧ BitVec.extractLsb' 0 3 w =
    BitVec.ofNat 3 0 ∧ 1 ≤ BitVec.toNat ((s.thread (0 : BitVec 4) (0 : BitVec 3)).reg (iRs2 w)) ∧ BitVec.toNat ((s.thread (0
    : BitVec 4) (0 : BitVec 3)).reg (iRs2 w)) ≤ 256 ∧ BitVec.toNat ((s.thread (0 : BitVec 4) (0 : BitVec 3)).reg (iRs1 w)) +
    BitVec.toNat ((s.thread (0 : BitVec 4) (0 : BitVec 3)).reg (iRs2 w)) ≤ blkOps ((s.thread (0 : BitVec 4) (0 : BitVec
    3)).lines.getD 0 (0 : Line)) ∧ (s.thread (0 : BitVec 4) (0 : BitVec 3)).count < BitVec.toNat ((s.thread (0 : BitVec 4)
    (0 : BitVec 3)).reg (iRs2 w)) ∧ (s.thread (0 : BitVec 4) (0 : BitVec 3)).present (Place.op (BitVec.toNat ((s.thread (0 :
    BitVec 4) (0 : BitVec 3)).reg (iRs1 w)) + (s.thread (0 : BitVec 4) (0 : BitVec 3)).count) (32 + 4 * (BitVec.toNat w /
    256 % 8))) = true ∧ ((s.thread (0 : BitVec 4) (0 : BitVec 3)).writable ((Option.map (fun x => x.ops) ((s.thread (0 :
    BitVec 4) (0 : BitVec 3)).launch.bind s.entry)).getD []) (Place.op (BitVec.toNat ((s.thread (0 : BitVec 4) (0 : BitVec
    3)).reg (iRs1 w)) + (s.thread (0 : BitVec 4) (0 : BitVec 3)).count) (32 + 4 * (BitVec.toNat w / 256 % 8))) = true) :=
  ⟨rw 0x2C 3 1 2 0x108, at2 (rw 0x2C 3 1 2 0x108) 0 2 5 [opLine 1 [(0x10, 0xFFFFFFFF)], 0] [.idle, .idle],
    by decide +kernel⟩

/-- For PatchesAndCopies. -/
theorem witness_CopySteps :
    ∃ (w : Word) (s : State), s.standsAt (0 : BitVec 4) (0 : BitVec 3) w = true ∧ iOp w = 45 ∧ BitVec.extractLsb' 0 11 w =
    BitVec.ofNat 11 0 ∧ 8 ≤ BitVec.toNat ((s.thread (0 : BitVec 4) (0 : BitVec 3)).reg (iRs2 w)) ∧ BitVec.toNat ((s.thread
    (0 : BitVec 4) (0 : BitVec 3)).reg (iRs2 w)) ≤ 4096 ∧ BitVec.toNat ((s.thread (0 : BitVec 4) (0 : BitVec 3)).reg (iRs2
    w)) % 8 = 0 ∧ BitVec.toNat ((s.thread (0 : BitVec 4) (0 : BitVec 3)).reg (iRs1 w)) % 8 = 0 ∧ BitVec.toNat ((s.thread (0
    : BitVec 4) (0 : BitVec 3)).reg (iRd w)) % 8 = 0 ∧ (BitVec.toNat ((s.thread (0 : BitVec 4) (0 : BitVec 3)).reg (iRs1 w))
    + BitVec.toNat ((s.thread (0 : BitVec 4) (0 : BitVec 3)).reg (iRs2 w)) ≤ BitVec.toNat ((s.thread (0 : BitVec 4) (0 :
    BitVec 3)).reg (iRd w)) ∨ BitVec.toNat ((s.thread (0 : BitVec 4) (0 : BitVec 3)).reg (iRd w)) + BitVec.toNat ((s.thread
    (0 : BitVec 4) (0 : BitVec 3)).reg (iRs2 w)) ≤ BitVec.toNat ((s.thread (0 : BitVec 4) (0 : BitVec 3)).reg (iRs1 w))) ∧
    (s.thread (0 : BitVec 4) (0 : BitVec 3)).count < BitVec.toNat ((s.thread (0 : BitVec 4) (0 : BitVec 3)).reg (iRs2 w)) ∧
    (s.thread (0 : BitVec 4) (0 : BitVec 3)).count % 8 = 0 ∧ (∀ i < BitVec.toNat ((s.thread (0 : BitVec 4) (0 : BitVec
    3)).reg (iRs2 w)) / 8, (s.thread (0 : BitVec 4) (0 : BitVec 3)).place (BitVec.toNat ((s.thread (0 : BitVec 4) (0 :
    BitVec 3)).reg (iRs1 w)) + 8 * i) ≠ Place.none ∧ (s.thread (0 : BitVec 4) (0 : BitVec 3)).writable ((Option.map (fun x
    => x.ops) ((s.thread (0 : BitVec 4) (0 : BitVec 3)).launch.bind s.entry)).getD []) ((s.thread (0 : BitVec 4) (0 : BitVec
    3)).place (BitVec.toNat ((s.thread (0 : BitVec 4) (0 : BitVec 3)).reg (iRd w)) + 8 * i)) = true) ∧ (∀ i < min 8
    ((BitVec.toNat ((s.thread (0 : BitVec 4) (0 : BitVec 3)).reg (iRs2 w)) - (s.thread (0 : BitVec 4) (0 : BitVec 3)).count)
    / 8), (s.thread (0 : BitVec 4) (0 : BitVec 3)).present ((s.thread (0 : BitVec 4) (0 : BitVec 3)).place (BitVec.toNat
    ((s.thread (0 : BitVec 4) (0 : BitVec 3)).reg (iRs1 w)) + (s.thread (0 : BitVec 4) (0 : BitVec 3)).count + 8 * i)) =
    true ∧ (s.thread (0 : BitVec 4) (0 : BitVec 3)).present ((s.thread (0 : BitVec 4) (0 : BitVec 3)).place (BitVec.toNat
    ((s.thread (0 : BitVec 4) (0 : BitVec 3)).reg (iRd w)) + (s.thread (0 : BitVec 4) (0 : BitVec 3)).count + 8 * i)) =
    true) :=
  ⟨rw 0x2D 3 1 2 0, at2 (rw 0x2D 3 1 2 0) 0 8 0x200 [] [], by decide +kernel⟩

/-- For EndsAndSkips. -/
theorem witness_EndOfProgram :
    ∃ (s : State), s.at (0 : BitVec 4) (0 : BitVec 3) (3221225472 : Word) = true ∧ (s.thread (0 : BitVec 4) (0 : BitVec
    3)).launch = some key0 ∧ s.entry key0 = some launch0 :=
  ⟨at2 0xC0000000 0 0 0 [] [], by decide +kernel⟩

/-- For EndsAndSkips. -/
theorem witness_EndOfProgramDrains :
    ∃ (e : Entry) (s : State), s.at (0 : BitVec 4) (0 : BitVec 3) (3221225472 : Word) = true ∧ (s.thread (0 : BitVec 4) (0 :
    BitVec 3)).launch = some key0 ∧ s.entry key0 = some e :=
  ⟨{ launch0 with ops := [.sent] }, at2 0xC0000000 0 0 0 [] [.sent], by decide +kernel⟩

/-- For EndsAndSkips. -/
theorem witness_IllegalSkips :
    ∃ (w : Word) (s : State), s.standsAt (0 : BitVec 4) (0 : BitVec 3) w = true ∧ (s.thread (0 : BitVec 4) (0 : BitVec
    3)).launch = some key0 ∧ s.entry key0 = some launch0 ∧ iOp w ∉ [1, 2, 3, 4, 5, 6, 7, 8, 16, 17, 20, 21, 22, 23, 24, 25,
    26, 27, 28, 29, 30, 31, 32, 40, 41, 42, 43, 44, 45, 48] :=
  ⟨0, at2 (0) 0 0 0 [] [], by decide +kernel⟩

/-- For EndsAndSkips. -/
theorem witness_RunsOff :
    ∃ (w : Word) (s : State) (e : Entry), s.at (0 : BitVec 4) (0 : BitVec 3) w = true ∧ s.notLast (0 : BitVec 4) (0 : BitVec
    3) = false ∧ (s.thread (0 : BitVec 4) (0 : BitVec 3)).launch = some key0 ∧ s.entry key0 = some e ∧ iOp w = 1 ∧
    BitVec.extractLsb' 4 7 w = BitVec.ofNat 7 0 ∧ e.settled = false ∧ (Instr.maxu (0 : BitVec 4) (0 : BitVec 3), 15) ∈
    [(Instr.add (0 : BitVec 4) (0 : BitVec 3), 0), (Instr.sub (0 : BitVec 4) (0 : BitVec 3), 1), (Instr.and (0 : BitVec 4)
    (0 : BitVec 3), 2), (Instr.or (0 : BitVec 4) (0 : BitVec 3), 3), (Instr.xor (0 : BitVec 4) (0 : BitVec 3), 4),
    (Instr.sll (0 : BitVec 4) (0 : BitVec 3), 5), (Instr.srl (0 : BitVec 4) (0 : BitVec 3), 6), (Instr.sra (0 : BitVec 4) (0
    : BitVec 3), 7), (Instr.mul (0 : BitVec 4) (0 : BitVec 3), 8), (Instr.mulhu (0 : BitVec 4) (0 : BitVec 3), 9),
    (Instr.slt (0 : BitVec 4) (0 : BitVec 3), 10), (Instr.sltu (0 : BitVec 4) (0 : BitVec 3), 11), (Instr.min (0 : BitVec 4)
    (0 : BitVec 3), 12), (Instr.max (0 : BitVec 4) (0 : BitVec 3), 13), (Instr.minu (0 : BitVec 4) (0 : BitVec 3), 14),
    (Instr.maxu (0 : BitVec 4) (0 : BitVec 3), 15)] ∧ BitVec.toNat w % 16 = 15 :=
  ⟨rw 1 1 1 1 15,
    { core0 [block 4 0 0] [(0, (rw 1 1 1 1 15).toNat)] id with entries := [(0, some { launch0 with ops := [.sent] })] },
    { launch0 with ops := [.sent] }, by decide +kernel⟩

/-! ## Registers and host interface -/

/-- For RegisterWrites. -/
theorem witness_RegisterWrites :
    ∃ (s : State) (r : RegSpec), s.canonical = true ∧ s.reaches root pLHSE PageKind.lhse 0 = true ∧ 64 ≤ 72 ∧ 72 < 4096 ∧ 72
    % 4 = 0 ∧ PageKind.lhse.spec 72 = some r ∧ r.rangeBad (7 : Word) = false :=
  ⟨up, ⟨72, 0, 1, 0xFFFFF, 0, 0, 0, 10000, true, [(0, 20, 1, 1048575)]⟩, by decide +kernel⟩

/-- For RefusedAccesses. -/
theorem witness_RefusedAccess :
    ∃ (x : Access), up.canonical = true ∧ up.pwr.mode = PwrMode.active ∧ x.write = true ∧ up.refusal x = some 1 :=
  ⟨write32 0 (pageAddr pGLBL 0x40) 7, by decide +kernel⟩

/-- For NegotiationAndDeclarations. -/
theorem witness_Negotiation :
    ∃ (s : State), s.canonical = true ∧ s.reaches root pGLBL PageKind.glbl 0 = true ∧ s.anyStreamOn = false ∧ (0 : BitVec 8)
    ≠ s.fld (pageAddr pGLBL 68) 8 8 :=
  ⟨up, by decide +kernel⟩

/-- For NegotiationAndDeclarations. -/
theorem witness_NegotiationAgreed :
    ∃ (s : State), s.canonical = true ∧ s.reaches root pGLBL PageKind.glbl 0 = true ∧ s.anyStreamOn = false ∧ (1 : BitVec 8)
    = s.fld (pageAddr pGLBL 68) 8 8 :=
  ⟨up, by decide +kernel⟩

/-- For NegotiationAndDeclarations. -/
theorem witness_NegotiationBusy :
    ∃ (s : State), s.canonical = true ∧ s.reaches root pGLBL PageKind.glbl 0 = true ∧ s.anyStreamOn = true :=
  ⟨up.setStream 5 { StreamE.reset with ctrlEn := true, st := .idle }, by decide +kernel⟩

/-- For NegotiationAndDeclarations. -/
theorem witness_Declarations :
    ∃ (s : State), s.canonical = true ∧ s.reaches root pINTG PageKind.intg 0 = true ∧ ((4 : BitVec 3), 12, 100, 2000) ∈ [((0
    : BitVec 3), 16, 1, 65535), ((1 : BitVec 3), 20, 1, 1048575), ((2 : BitVec 3), 24, 1, 16777215), ((3 : BitVec 3), 12, 0,
    4095), ((4 : BitVec 3), 12, 100, 2000), ((5 : BitVec 3), 12, 500, 2000)] ∧ BitVec.toNat (2000 : Word) < 2 ^ 12 ∧ (s.flag
    (pageAddr pINTG 64) 0 = false ∨ 4 ≤ BitVec.toNat (4 : BitVec 3)) ∧ 100 ≤ BitVec.toNat (2000 : Word) ∧ BitVec.toNat (2000
    : Word) ≤ 2000 :=
  ⟨up, by decide +kernel⟩

/-- For NegotiationAndDeclarations. -/
theorem witness_DeclarationsRange :
    ∃ (s : State), s.canonical = true ∧ s.reaches root pINTG PageKind.intg 0 = true ∧ ((5 : BitVec 3), 12, 500, 2000) ∈ [((0
    : BitVec 3), 16, 1, 65535), ((1 : BitVec 3), 20, 1, 1048575), ((2 : BitVec 3), 24, 1, 16777215), ((3 : BitVec 3), 12, 0,
    4095), ((4 : BitVec 3), 12, 100, 2000), ((5 : BitVec 3), 12, 500, 2000)] ∧ BitVec.toNat (499 : Word) < 2 ^ 12 ∧ (s.flag
    (pageAddr pINTG 64) 0 = false ∨ 4 ≤ BitVec.toNat (5 : BitVec 3)) ∧ (BitVec.toNat (499 : Word) < 500 ∨ 2000 <
    BitVec.toNat (499 : Word)) :=
  ⟨up.wr (pageAddr pINTG 0x40) 1, by decide +kernel⟩

/-- For NegotiationAndDeclarations. -/
theorem witness_DeclarationsLocked :
    ∃ (s : State), s.canonical = true ∧ s.reaches root pINTG PageKind.intg 0 = true ∧ ((3 : BitVec 3), 12, 0, 4095) ∈ [((0 :
    BitVec 3), 16, 1, 65535), ((1 : BitVec 3), 20, 1, 1048575), ((2 : BitVec 3), 24, 1, 16777215), ((3 : BitVec 3), 12, 0,
    4095), ((4 : BitVec 3), 12, 100, 2000), ((5 : BitVec 3), 12, 500, 2000)] ∧ BitVec.toNat (4095 : Word) < 2 ^ 12 ∧ s.flag
    (pageAddr pINTG 64) 0 = true ∧ BitVec.toNat (3 : BitVec 3) < 4 :=
  ⟨up.wr (pageAddr pINTG 0x40) 1, by decide +kernel⟩

/-- For UnitControl. -/
theorem witness_UnitControl :
    ∃ (s : State), s.canonical = true ∧ s.reaches root (BitVec.ofNat 8 pSCAL).toNat PageKind.scal 0 = true ∧
    PageKind.scal.fixedCtrl = false ∧ PageKind.scal ≠ PageKind.part ∧ s.anyStreamOn = false ∧ s.pageEn (BitVec.ofNat 8
    pSCAL).toNat = false :=
  ⟨up.wr (pageAddr pSCAL 0x0C) 0, by decide +kernel⟩

/-- For UnitControl. -/
theorem witness_UnitControlPart :
    ∃ (s : State), s.canonical = true ∧ s.reaches root (pPART (3 : BitVec 4)) PageKind.part (BitVec.toNat (3 : BitVec 4)) =
    true ∧ s.enabled (3 : BitVec 4) = false :=
  ⟨up, by decide +kernel⟩

/-- For UnitControl. -/
theorem witness_UnitControlDone :
    ∃ (s : State), s.canonical = true ∧ pageAt (BitVec.ofNat 8 pDISP).toNat = some (PageKind.disp, 0) ∧ s.srstBusy
    (BitVec.ofNat 8 pDISP).toNat = true ∧ (PageKind.disp = PageKind.disp ∨ PageKind.disp = PageKind.harb ∨ PageKind.disp =
    PageKind.dbug ∨ PageKind.disp = PageKind.scal ∨ PageKind.disp = PageKind.shol ∨ PageKind.disp = PageKind.ftch) :=
  ⟨up.wr (pageAddr pDISP 0x0C) 2, by decide +kernel⟩

/-- For PartitionConfig. -/
theorem witness_PartitionEnable :
    ∃ (s : State), s.canonical = true ∧ s.reaches root (pPART (0 : BitVec 4)) PageKind.part (BitVec.toNat (0 : BitVec 4)) =
    true ∧ s.enabled (0 : BitVec 4) = false ∧ s.resetting (0 : BitVec 4) = false ∧ ((s.funcRange (0 : BitVec 4)).1 ≤ s.num
    (rPART (0 : BitVec 4) 108) 0 12) ∧ (s.num (rPART (0 : BitVec 4) 108) 0 12 < (s.funcRange (0 : BitVec 4)).1 +
    (s.funcRange (0 : BitVec 4)).2) ∧ 1 ≤ s.num (rPART (0 : BitVec 4) 104) 0 17 :=
  ⟨(up.wr (rPART 0 0x44) 0x10000).wr (rPART 0 0x68) 1, by decide +kernel⟩

/-- For PartitionConfig. -/
theorem witness_PartitionIncomplete :
    ∃ (s : State), s.canonical = true ∧ s.reaches root (pPART (0 : BitVec 4)) PageKind.part (BitVec.toNat (0 : BitVec 4)) =
    true ∧ s.enabled (0 : BitVec 4) = false ∧ (s.num (rPART (0 : BitVec 4) 108) 0 12 < (s.funcRange (0 : BitVec 4)).1 ∨
    (s.funcRange (0 : BitVec 4)).1 + (s.funcRange (0 : BitVec 4)).2 ≤ s.num (rPART (0 : BitVec 4) 108) 0 12 ∨ s.num (rPART
    (0 : BitVec 4) 104) 0 17 = 0) :=
  ⟨up.wr (rPART 0 0x68) 1, by decide +kernel⟩

/-- For PartitionConfig. -/
theorem witness_PartitionDisable :
    ∃ (s : State), s.canonical = true ∧ s.reaches root (pPART (0 : BitVec 4)) PageKind.part (BitVec.toNat (0 : BitVec 4)) =
    true ∧ s.enabled (0 : BitVec 4) = true ∧ s.resetting (0 : BitVec 4) = false ∧ s.partStreamOn (0 : BitVec 4) = false :=
  ⟨up.wr (rPART 0 0x0C) 1, by decide +kernel⟩

/-- For PartitionConfig. -/
theorem witness_PartitionBusy :
    ∃ (s : State), s.canonical = true ∧ s.reaches root (pPART (0 : BitVec 4)) PageKind.part (BitVec.toNat (0 : BitVec 4)) =
    true ∧ s.enabled (0 : BitVec 4) = true ∧ s.partStreamOn (0 : BitVec 4) = true :=
  ⟨((withPart up).wr (rPART 0 0x0C) 1).setStream 3 { StreamE.reset with ctrlEn := true, st := .idle }, by decide +kernel⟩

/-- For PartitionConfig. -/
theorem witness_FuncRange :
    ∃ (s : State), s.canonical = true ∧ s.reaches root (pPART (0 : BitVec 4)) PageKind.part (BitVec.toNat (0 : BitVec 4)) =
    true ∧ s.enabled (0 : BitVec 4) = false ∧ (s.funcRangeOk (0 : BitVec 4) (BitVec.ofNat 3 0 ++ (2 : BitVec 13) ++
    BitVec.ofNat 4 0 ++ (1 : BitVec 12)) = true) :=
  ⟨up.wr (rPART 0 0x44) 0x20000, by decide +kernel⟩

/-- For PartitionConfig. -/
theorem witness_HarbQuota :
    ∃ (s : State), s.canonical = true ∧ s.reaches root (pPART (0 : BitVec 4)) PageKind.part (BitVec.toNat (0 : BitVec 4)) =
    true ∧ s.quotaOk (0 : BitVec 4) (BitVec.ofNat 32 (BitVec.toNat (4 : BitVec 7))) = true ∧ s.quotaOk (0 : BitVec 4)
    (BitVec.ofNat 32 (BitVec.toNat (5 : BitVec 7))) = false :=
  ⟨up.wr (rPART 1 0x4C) 60, by decide +kernel⟩

/-- For ContextCommands. -/
theorem witness_ContextCommands :
    ∃ (s : State), s.canonical = true ∧ s.reaches root (pPART (0 : BitVec 4)) PageKind.part (BitVec.toNat (0 : BitVec 4)) =
    true ∧ s.flag (rPART (0 : BitVec 4) 128) 31 = false ∧ (Instr.flush root (0 : BitVec 4) (1 : BitVec 16) true, (3 : BitVec
    4), true) ∈ [(Instr.create root (0 : BitVec 4) (1 : BitVec 16), (1 : BitVec 4), false), (Instr.destroy root (0 : BitVec
    4) (1 : BitVec 16), (2 : BitVec 4), false), (Instr.flush root (0 : BitVec 4) (1 : BitVec 16) true, (3 : BitVec 4),
    true), (Instr.handleInval root (0 : BitVec 4) (1 : BitVec 16), (4 : BitVec 4), false)] ∧ s.flag (rPART (0 : BitVec 4)
    120) 27 = false ∧ BitVec.toNat (1 : BitVec 16) < s.num (rPART (0 : BitVec 4) 104) 0 17 ∧ s.slotOf (0 : BitVec 4) (1 :
    BitVec 16) = none ∧ (Instr.create root (0 : BitVec 4) (2 : BitVec 16), (1 : BitVec 4), false) ∈ [(Instr.create root (0 :
    BitVec 4) (2 : BitVec 16), (1 : BitVec 4), false), (Instr.destroy root (0 : BitVec 4) (2 : BitVec 16), (2 : BitVec 4),
    false), (Instr.flush root (0 : BitVec 4) (2 : BitVec 16) true, (3 : BitVec 4), true), (Instr.handleInval root (0 :
    BitVec 4) (2 : BitVec 16), (4 : BitVec 4), false)] ∧ s.num (rPART (0 : BitVec 4) 104) 0 17 ≤ BitVec.toNat (2 : BitVec
    16) :=
  ⟨up.wr (rPART 0 0x68) 2, by decide +kernel⟩

/-- For ContextCommands. -/
theorem witness_ContextCommandBusy :
    ∃ (s : State), s.canonical = true ∧ s.reaches root (pPART (0 : BitVec 4)) PageKind.part (BitVec.toNat (0 : BitVec 4)) =
    true ∧ s.flag (rPART (0 : BitVec 4) 128) 31 = false ∧ (Instr.create root (0 : BitVec 4) (1 : BitVec 16), (1 : BitVec 4),
    false) ∈ [(Instr.create root (0 : BitVec 4) (1 : BitVec 16), (1 : BitVec 4), false), (Instr.destroy root (0 : BitVec 4)
    (1 : BitVec 16), (2 : BitVec 4), false), (Instr.flush root (0 : BitVec 4) (1 : BitVec 16) true, (3 : BitVec 4), true),
    (Instr.handleInval root (0 : BitVec 4) (1 : BitVec 16), (4 : BitVec 4), false)] ∧ s.flag (rPART (0 : BitVec 4) 120) 27 =
    true :=
  ⟨up.wr (rPART 0 0x78) 0x8000000, by decide +kernel⟩

/-- For ContextCommands. -/
theorem witness_ContextCreate :
    ∃ (c : CtxCmd) (s : State), (asked (Why.ctxCmd (0 : BitVec 4) 0) 2).why = Why.ctxCmd (0 : BitVec 4) 0 ∧ (afterR
    s).ctxCmd (0 : BitVec 4) = some c ∧ (afterR s).flag (rPART (0 : BitVec 4) 128) 31 = false ∧ s.gets true (0 : BitVec 8)
    (0 : BitVec 4) (afterR s) (asked (Why.ctxCmd (0 : BitVec 4) 0) 2) ∧ (asked (Why.ctxCmd (0 : BitVec 4) 0) 2).len = 128 ∧
    c.op = 1 ∧ c.step = 0 ∧ (afterR s).heldLine1 (0 : BitVec 4) c.ctx = none ∧ (afterR s).harb.changes = [] ∧ BitVec.getLsbD
    (0 : Line) 0 = false ∧ ((((afterR s).launchesOf (0 : BitVec 4) c.ctx).any fun x => x.2.past4) = false) ∧
    BitVec.extractLsb' 0 5 (0 : Line) = BitVec.ofNat 5 0 ∧ BitVec.toNat (Line.w32 (0 : Line) 8) % 2 ^ 25 ≤ 16777216 :=
  ⟨⟨1, 0, false, false, 0, 0, 0, 0, 0, 0, 0⟩, reads (up.setCtxCmd 0 (some (⟨1, 0, false, false, 0, 0, 0, 0, 0, 0, 0⟩)))
    (.ctxCmd 0 0) 2, by unfold State.gets; decide +kernel⟩

/-- For ContextCommands. -/
theorem witness_ContextAnswers :
    ∃ (c : CtxCmd) (s : State), (wrote (Why.ctxCmd (0 : BitVec 4) 1)).why = Why.ctxCmd (0 : BitVec 4) 1 ∧ (afterW s).ctxCmd
    (0 : BitVec 4) = some c ∧ (afterW s).flag (rPART (0 : BitVec 4) 128) 31 = false ∧ s.gets false (0 : BitVec 8) (0 :
    BitVec 4) (afterW s) (wrote (Why.ctxCmd (0 : BitVec 4) 1)) ∧ c.op ≠ 2 :=
  ⟨⟨1, 0, false, false, 0, 2, 0, 0, 0, 0, 0⟩, writes (up.setCtxCmd 0 (some (⟨1, 0, false, false, 0, 2, 0, 0, 0, 0, 0⟩)))
    (.ctxCmd 0 1), by unfold State.gets; decide +kernel⟩

/-- For ContextCommands. -/
theorem witness_RecordWriteBack :
    ∃ (x : Staged) (s : State), s.gets false (0 : BitVec 8) (0 : BitVec 4) (afterW s) (wrote (Why.ctxWb (0 : BitVec 4) (0 :
    BitVec 16) 0 false)) ∧ (wrote (Why.ctxWb (0 : BitVec 4) (0 : BitVec 16) 0 false)).why = Why.ctxWb (0 : BitVec 4) (0 :
    BitVec 16) 0 false ∧ (List.find? (fun y => decide (y.part = 0) && decide (y.ctx = 0)) (afterW s).harb.staged = some x) ∧
    x.again = false :=
  ⟨⟨0, 0, [0, 0, 0], true, false, 1⟩, writes
    { up with harb := { up.harb with staged := [(⟨0, 0, [0, 0, 0], true, false, 1⟩)] } } (.ctxWb 0 0 0 false),
    by unfold State.gets; decide +kernel⟩

/-- For ContextCommands. -/
theorem witness_RecordWriteBackAgain :
    ∃ (x : Staged) (s : State), s.gets false (0 : BitVec 8) (0 : BitVec 4) (afterW s) (wrote (Why.ctxWb (0 : BitVec 4) (0 :
    BitVec 16) 0 true)) ∧ (wrote (Why.ctxWb (0 : BitVec 4) (0 : BitVec 16) 0 true)).why = Why.ctxWb (0 : BitVec 4) (0 :
    BitVec 16) 0 true ∧ (List.find? (fun y => decide (y.part = 0) && decide (y.ctx = 0)) (afterW s).harb.staged = some x) ∧
    x.again = true :=
  ⟨⟨0, 0, [0, 0, 0], true, true, 1⟩, writes
    { up with harb := { up.harb with staged := [(⟨0, 0, [0, 0, 0], true, true, 1⟩)] } } (.ctxWb 0 0 0 true),
    by unfold State.gets; decide +kernel⟩

/-! ## Streams -/

/-- A stream that fetches, one read of its ring outstanding. -/
def ringing (n : Nat) : State :=
  reads ((withPart up).setStream 0
    { StreamE.reset with st := .fetching, cons := 15, hint := 3, fetching := true, fetchPos := 0 }) (.ring 0 15 n false) n

/-- An entry with waits done. -/
def pointE (t : EType) (n : Nat) : Entry := { Entry.fresh t 0 0 [0, line [(0, 5), (12, 2 ^ 31)]] with pairDone := n }

/-- An entry at the head of stream 0. -/
def atHead (e : Entry) : State :=
  { (withPart up).setStream 0 { StreamE.reset with st := .blocked, head := some 0, inflight := 1 } with entries := [(0, some e)] }

/-- For DoorbellsAndStreams. -/
theorem witness_DoorbellDropped :
    ∃ (s : State), s.canonical = true ∧ s.serves = true ∧ mayRing root (0 : BitVec 12) = true ∧ s.partOf (0 : BitVec 12) =
    some (0 : BitVec 4) ∧ s.noRun = true ∧ ((s.stream (streamOf (0 : BitVec 12) (0 : BitVec 2))).st = StreamState.disabled ∨
    (s.stream (streamOf (0 : BitVec 12) (0 : BitVec 2))).st = StreamState.draining ∨ (s.stream (streamOf (0 : BitVec 12) (0
    : BitVec 2))).st = StreamState.faulted) :=
  ⟨withPart up, by decide +kernel⟩

/-- For DoorbellsAndStreams. -/
theorem witness_DoorbellRings :
    ∃ (s : State), s.canonical = true ∧ s.serves = true ∧ mayRing (0 : BitVec 13) (0 : BitVec 12) = true ∧ s.partOf (0 :
    BitVec 12) = some (0 : BitVec 4) ∧ s.noRun = true ∧ (s.stream (streamOf (0 : BitVec 12) (3 : BitVec 2))).st =
    StreamState.idle :=
  ⟨(withPart up).setStream 3 { StreamE.reset with st := .idle }, by decide +kernel⟩

/-- For DoorbellsAndStreams. -/
theorem witness_DoorbellPends :
    ∃ (s : State), s.canonical = true ∧ s.serves = true ∧ mayRing (0 : BitVec 13) (0 : BitVec 12) = true ∧ s.partOf (0 :
    BitVec 12) = some (0 : BitVec 4) ∧ s.noRun = true ∧ (s.stream (streamOf (0 : BitVec 12) (3 : BitVec 2))).st ∉
    [StreamState.disabled, StreamState.draining, StreamState.faulted, StreamState.idle] :=
  ⟨(withPart up).setStream 3 { StreamE.reset with st := .paused }, by decide +kernel⟩

/-- For DoorbellsAndStreams. -/
theorem witness_Pause :
    ∃ (s : State), s.canonical = true ∧ s.serves = true ∧ mayRing (0 : BitVec 13) (0 : BitVec 12) = true ∧ s.partOf (0 : BitVec 12) = some (0 : BitVec 4) ∧ ((s.stream
    (streamOf (0 : BitVec 12) (3 : BitVec 2))).st = StreamState.ready ∨ (s.stream (streamOf (0 : BitVec 12) (3 : BitVec
    2))).st = StreamState.idle) :=
  ⟨((withPart up).setStream 3 { StreamE.reset with st := .idle }), by decide +kernel⟩

/-- For DoorbellsAndStreams. -/
theorem witness_PauseLater :
    ∃ (s : State), s.canonical = true ∧ s.serves = true ∧ mayRing (0 : BitVec 13) (0 : BitVec 12) = true ∧ s.partOf (0 : BitVec 12) = some (0 : BitVec 4) ∧ (s.stream
    (streamOf (0 : BitVec 12) (3 : BitVec 2))).st ≠ StreamState.ready ∧ (s.stream (streamOf (0 : BitVec 12) (3 : BitVec
    2))).st ≠ StreamState.idle :=
  ⟨((withPart up).setStream 3 { StreamE.reset with st := .blocked }), by decide +kernel⟩

/-- For DoorbellsAndStreams. -/
theorem witness_Resume :
    ∃ (s : State), s.canonical = true ∧ s.serves = true ∧ mayRing (0 : BitVec 13) (0 : BitVec 12) = true ∧ s.partOf (0 : BitVec 12) = some (0 : BitVec 4) ∧ (s.stream
    (streamOf (0 : BitVec 12) (3 : BitVec 2))).st = StreamState.paused ∧ ((s.stream (streamOf (0 : BitVec 12) (3 : BitVec
    2))).dbPending = true ∨ (s.stream (streamOf (0 : BitVec 12) (3 : BitVec 2))).hint ≠ (s.stream (streamOf (0 : BitVec 12)
    (3 : BitVec 2))).cons) :=
  ⟨((withPart up).setStream 3 { StreamE.reset with st := .paused, pause := true, hint := 1 }), by decide +kernel⟩

/-- For DoorbellsAndStreams. -/
theorem witness_ResumeIdle :
    ∃ (s : State), s.canonical = true ∧ s.serves = true ∧ mayRing (0 : BitVec 13) (0 : BitVec 12) = true ∧ s.partOf (0 : BitVec 12) = some (0 : BitVec 4) ∧ (s.stream
    (streamOf (0 : BitVec 12) (3 : BitVec 2))).st = StreamState.paused ∧ (s.stream (streamOf (0 : BitVec 12) (3 : BitVec
    2))).dbPending = false ∧ (s.stream (streamOf (0 : BitVec 12) (3 : BitVec 2))).hint = (s.stream (streamOf (0 : BitVec 12)
    (3 : BitVec 2))).cons :=
  ⟨((withPart up).setStream 3 { StreamE.reset with st := .paused, pause := true }), by decide +kernel⟩

/-- For DoorbellsAndStreams. -/
theorem witness_StreamEnable :
    ∃ (s : State), s.canonical = true ∧ s.reaches root pFTCH PageKind.ftch 0 = true ∧ (s.stream (s.fld (pageAddr pFTCH 64) 0
    14)).st = StreamState.disabled ∧
    (((match s.partOf (funcOf (s.fld (pageAddr pFTCH 64) 0 14)) with | some p => s.partEn p | none => false) &&
    s.unitPages.all s.pageEn && decide (4 ≤ (s.stream (s.fld (pageAddr pFTCH 64) 0 14)).log2.toNat) && decide ((s.stream
    (s.fld (pageAddr pFTCH 64) 0 14)).log2.toNat ≤ 16) && decide ((s.stream (s.fld (pageAddr pFTCH 64) 0 14)).startPos.toNat
    < 2 ^ (s.stream (s.fld (pageAddr pFTCH 64) 0 14)).log2.toNat)) = true) :=
  ⟨withPart up, by decide +kernel⟩

/-- For DoorbellsAndStreams. -/
theorem witness_StreamNotReady :
    ∃ (s : State), s.canonical = true ∧ s.reaches root pFTCH PageKind.ftch 0 = true ∧ (s.stream (s.fld (pageAddr pFTCH 64) 0
    14)).st = StreamState.disabled ∧
    (((match s.partOf (funcOf (s.fld (pageAddr pFTCH 64) 0 14)) with | some p => s.partEn p | none => false) &&
    s.unitPages.all s.pageEn && decide (4 ≤ (s.stream (s.fld (pageAddr pFTCH 64) 0 14)).log2.toNat) && decide ((s.stream
    (s.fld (pageAddr pFTCH 64) 0 14)).log2.toNat ≤ 16) && decide ((s.stream (s.fld (pageAddr pFTCH 64) 0 14)).startPos.toNat
    < 2 ^ (s.stream (s.fld (pageAddr pFTCH 64) 0 14)).log2.toNat)) = false) :=
  ⟨up, by decide +kernel⟩

/-- For DoorbellsAndStreams. -/
theorem witness_StreamDraining :
    ∃ (s : State), s.canonical = true ∧ s.reaches root pFTCH PageKind.ftch 0 = true ∧ (s.stream (s.fld (pageAddr pFTCH 64) 0
    14)).st = StreamState.draining ∧ (s.stream (s.fld (pageAddr pFTCH 64) 0 14)).st ≠ StreamState.disabled ∧ ((s.stream
    (s.fld (pageAddr pFTCH 64) 0 14)).inflight ≠ 0 ∨ (s.stream (s.fld (pageAddr pFTCH 64) 0 14)).fetching = true) :=
  ⟨up.setStream 0 { StreamE.reset with st := .draining, inflight := 1 }, by decide +kernel⟩

/-- For DoorbellsAndStreams. -/
theorem witness_StreamDisable :
    ∃ (s : State), s.canonical = true ∧ s.reaches root pFTCH PageKind.ftch 0 = true ∧ (s.stream (s.fld (pageAddr pFTCH 64) 0
    14)).st ≠ StreamState.disabled ∧ (s.stream (s.fld (pageAddr pFTCH 64) 0 14)).inflight = 0 ∧ (s.stream (s.fld (pageAddr
    pFTCH 64) 0 14)).fetching = false :=
  ⟨up.setStream 0 { StreamE.reset with st := .blocked }, by decide +kernel⟩

/-- For Fetches. -/
theorem witness_ChannelTake :
    ∃ (s : State), s.canonical = true ∧ s.fetch.reenter = [] ∧ s.fetchHeld = false ∧ (Tbl.get (fun x => none) s.fetch.chans
    (BitVec.toNat (4 : BitVec 4)) = none) ∧ s.fetch.queue (BitVec.toNat (4 : BitVec 4) % 4) = [(0 : BitVec 14)] ∧ (s.stream
    (0 : BitVec 14)).pause = false ∧ s.streamHeld (0 : BitVec 14) = false ∧ (classOf (0 : BitVec 14)).toNat = BitVec.toNat
    (4 : BitVec 4) % 4 ∧ s.cached (0 : BitVec 14) (s.stream (0 : BitVec 14)).cons = none ∧ (s.stream (0 : BitVec
    14)).cons.toNat < 2 ^ (s.stream (0 : BitVec 14)).log2.toNat ∧ 1 ≤ ((s.stream (0 : BitVec 14)).hint.toNat + 2 ^ (s.stream
    (0 : BitVec 14)).log2.toNat - (s.stream (0 : BitVec 14)).cons.toNat) % 2 ^ (s.stream (0 : BitVec 14)).log2.toNat :=
  ⟨{ (withPart up).setStream 0 { StreamE.reset with st := .ready, cons := 15, hint := 3 } with fetch := { Fetch.reset with q0 := [0] } },
    by decide +kernel⟩

/-- For Fetches. -/
theorem witness_Prefetch :
    ∃ (s : State), s.canonical = true ∧ ((s.stream (0 : BitVec 14)).st = StreamState.idle ∨ (s.stream (0 : BitVec 14)).st =
    StreamState.ready ∨ (s.stream (0 : BitVec 14)).st = StreamState.blocked) ∧ (s.stream (0 : BitVec 14)).pause = false ∧
    s.prefetching (0 : BitVec 14) = false ∧ s.streamHeld (0 : BitVec 14) = false ∧ s.rst.stopped = false ∧ s.cached (0 :
    BitVec 14) (s.stream (0 : BitVec 14)).cons = none ∧ (s.stream (0 : BitVec 14)).cons.toNat < 2 ^ (s.stream (0 : BitVec
    14)).log2.toNat ∧ 1 ≤ ((s.stream (0 : BitVec 14)).hint.toNat + 2 ^ (s.stream (0 : BitVec 14)).log2.toNat - (s.stream (0
    : BitVec 14)).cons.toNat) % 2 ^ (s.stream (0 : BitVec 14)).log2.toNat :=
  ⟨(withPart up).setStream 0 { StreamE.reset with st := .ready, cons := 15, hint := 3 }, by decide +kernel⟩

/-- For Fetches. -/
theorem witness_RingOwned :
    ∃ (s : State), s.canonical = true ∧ s.gets true (0 : BitVec 8) (0 : BitVec 4) (afterR s) (asked (Why.ring (0 : BitVec
    14) (15 : BitVec 16) 1 false) 1) ∧ (asked (Why.ring (0 : BitVec 14) (15 : BitVec 16) 1 false) 1).why = Why.ring (0 :
    BitVec 14) ((afterR s).stream (0 : BitVec 14)).cons 1 false   ∧ [(0 : Line)].length * 64 = (asked (Why.ring (0 :
    BitVec 14) (15 : BitVec 16) 1 false) 1).len ∧ ((afterR s).stream (0 : BitVec 14)).fetching = true ∧ ((afterR s).stream
    (0 : BitVec 14)).got = [] ∧ ((afterR s).stream (0 : BitVec 14)).st = StreamState.fetching ∧ ((afterR s).stream (0 :
    BitVec 14)).cons.toNat < 2 ^ ((afterR s).stream (0 : BitVec 14)).log2.toNat ∧ BitVec.getLsbD (Line.w32 (0 : Line) 0) 31
    = false ∧ ((afterR s).stream (0 : BitVec 14)).dbPending = false ∧ ((afterR s).stream (0 : BitVec 14)).dbStarted = false :=
  ⟨ringing 1, by unfold State.gets; decide +kernel⟩

/-- For Fetches. -/
theorem witness_RingFault :
    ∃ (s : State) (h : Line), s.canonical = true ∧ s.gets true (0 : BitVec 8) (0 : BitVec 4) (afterR s) (asked (Why.ring (0
    : BitVec 14) (15 : BitVec 16) 1 false) 1) ∧ (asked (Why.ring (0 : BitVec 14) (15 : BitVec 16) 1 false) 1).why = Why.ring
    (0 : BitVec 14) ((afterR s).stream (0 : BitVec 14)).cons 1 false   ∧ [h].length * 64 = (asked (Why.ring (0 :
    BitVec 14) (15 : BitVec 16) 1 false) 1).len ∧ ((afterR s).stream (0 : BitVec 14)).fetching = true ∧ ((afterR s).stream
    (0 : BitVec 14)).got = [] ∧ ((afterR s).stream (0 : BitVec 14)).st = StreamState.fetching ∧ ((afterR s).stream (0 :
    BitVec 14)).cons.toNat < 2 ^ ((afterR s).stream (0 : BitVec 14)).log2.toNat ∧ BitVec.getLsbD (Line.w32 h 0) 31 = true ∧
    (afterR s).headerCheck (0 : BitVec 14) h = Except.error (5 : BitVec 8) :=
  ⟨ringing 1, line [(0, 2 ^ 31)], by
    repeat' apply And.intro
    all_goals first | decide +kernel | (unfold State.gets; decide +kernel) | exact except_error (by decide +kernel) | exact except_ok (by decide +kernel)⟩

/-- For Fetches. -/
theorem witness_RingPad :
    ∃ (s : State) (h : Line), s.canonical = true ∧ s.gets true (0 : BitVec 8) (0 : BitVec 4) (afterR s) (asked (Why.ring (0
    : BitVec 14) (15 : BitVec 16) 1 false) 1) ∧ (asked (Why.ring (0 : BitVec 14) (15 : BitVec 16) 1 false) 1).why = Why.ring
    (0 : BitVec 14) ((afterR s).stream (0 : BitVec 14)).cons 1 false   ∧ [h].length * 64 = (asked (Why.ring (0 :
    BitVec 14) (15 : BitVec 16) 1 false) 1).len ∧ ((afterR s).stream (0 : BitVec 14)).fetching = true ∧ ((afterR s).stream
    (0 : BitVec 14)).got = [] ∧ ((afterR s).stream (0 : BitVec 14)).st = StreamState.fetching ∧ ((afterR s).stream (0 :
    BitVec 14)).cons.toNat < 2 ^ ((afterR s).stream (0 : BitVec 14)).log2.toNat ∧ BitVec.getLsbD (Line.w32 h 0) 31 = true ∧
    (afterR s).headerCheck (0 : BitVec 14) h = Except.ok EType.pad ∧ (BitVec.extractLsb' 27 3 (Line.w32 h 0)).toNat = 0 :=
  ⟨ringing 1, line [(0, 2 ^ 31 + 2 ^ 30 + 2 ^ 20 + 2 ^ 16)], by
    repeat' apply And.intro
    all_goals first | decide +kernel | (unfold State.gets; decide +kernel) | exact except_error (by decide +kernel) | exact except_ok (by decide +kernel)⟩

/-- For Fetches. -/
theorem witness_ReleaseAck :
    ∃ (s : State), s.canonical = true ∧ s.gets false (0 : BitVec 8) (0 : BitVec 4) (afterW s) (wrote (Why.release key0 (3 :
    BitVec 16))) ∧ (wrote (Why.release key0 (3 : BitVec 16))).why = Why.release key0 (3 : BitVec 16) ∧ (afterW s).entry key0
    = some launch0 ∧ ((afterW s).stream key0.stream).fetching = false :=
  ⟨writes { up with entries := [(0, some launch0)] } (.release key0 3), by unfold State.gets; decide +kernel⟩

/-- For Points. -/
theorem witness_SignalEntry :
    ∃ (e : Entry) (s : State), key0.stream = 0 ∧ s.entry key0 = some e ∧ (s.stream (0 : BitVec 14)).sigPending = some
    key0.seq ∧ e.pairDone = 0 ∧ (((s.entriesOf (0 : BitVec 14)).any fun x => x.2.etype.isLaunch && decide (x.1.seq <
    key0.seq) && !x.2.recDone) = false) ∧ unitUpds (e.units.getD 1 (0 : Line)) =
    [{ kind := UpdKind.signal, so := (0 : BitVec 14), value := 5 }] :=
  ⟨pointE .signal 0, (atHead (pointE .signal 0)).setStream 0 { StreamE.reset with st := .ready, sigPending := some 0 },
    by decide +kernel⟩

/-- For Points. -/
theorem witness_SignalNone :
    ∃ (e : Entry) (s : State), key0.stream = 0 ∧ s.entry key0 = some e ∧ (s.stream (0 : BitVec 14)).sigPending = some
    key0.seq ∧ e.pairDone = 0 ∧ (((s.entriesOf (0 : BitVec 14)).any fun x => x.2.etype.isLaunch && decide (x.1.seq <
    key0.seq) && !x.2.recDone) = false) ∧ unitUpds (e.units.getD 1 (0 : Line)) = [] ∧ ((s.stream (0 : BitVec 14)).st ≠
    StreamState.blocked ∨ (s.stream (0 : BitVec 14)).head ≠ none) :=
  ⟨{ pointE .signal 0 with units := [0, 0] },
    { (atHead ({ pointE .signal 0 with units := [0, 0] })).setStream 0 { StreamE.reset with st := .ready, sigPending := some 0 } with entries := [(0, some ({ pointE .signal 0 with units := [0, 0] }))] },
    by decide +kernel⟩

/-- For Points. -/
theorem witness_Barrier :
    ∃ (e : Entry) (s : State), key0.stream = 0 ∧ s.entry key0 = some e ∧ (s.stream (0 : BitVec 14)).head = some key0.seq ∧
    e.etype = EType.barrier ∧ e.stage = Stage.point ∧ (((s.entriesOf (0 : BitVec 14)).any fun x => decide (x.1.seq <
    key0.seq)) = false) :=
  ⟨pointE .barrier 0, atHead (pointE .barrier 0), by decide +kernel⟩

/-- For Points. -/
theorem witness_StreamTimeout :
    ∃ (e : Entry) (s : State), key0.stream = 0 ∧ s.entry key0 = some e ∧ (List.find? (fun x => !x.2.aborted && (decide
    (x.2.stage = Stage.running) || decide (x.2.stage = Stage.draining))) (List.filter (fun x => x.2.running) (s.entriesOf (0
    : BitVec 14))) = some (key0, e)) ∧ BitVec.toNat (s.stream (0 : BitVec 14)).progressT + (s.stream (0 : BitVec
    14)).limitUs.toNat * 1000 ≤ BitVec.toNat s.time :=
  ⟨{ launch0 with executed := true }, { (atHead ({ launch0 with executed := true })) with time := 1000000000 },
    by decide +kernel⟩

/-- For Points. -/
theorem witness_StreamTimeoutAgain :
    ∃ (e : Entry) (s : State), key0.stream = 0 ∧ s.entry key0 = some e ∧ (List.filter (fun x => x.2.running) (s.entriesOf (0
    : BitVec 14)) ≠ []) ∧ (List.find? (fun x => !x.2.aborted && (decide (x.2.stage = Stage.running) || decide (x.2.stage =
    Stage.draining))) (List.filter (fun x => x.2.running) (s.entriesOf (0 : BitVec 14))) = none) ∧ BitVec.toNat (s.stream (0
    : BitVec 14)).progressT + (s.stream (0 : BitVec 14)).limitUs.toNat * 1000 ≤ BitVec.toNat s.time :=
  ⟨{ launch0 with executed := true, aborted := true, stage := .draining },
    { (atHead ({ launch0 with executed := true, aborted := true, stage := .draining })) with time := 1000000000 },
    by decide +kernel⟩

/-- For ModelSwitchesAndEpochs. -/
theorem witness_ModelSwitch :
    ∃ (e : Entry) (s : State), s.entry key0 = some e ∧ e.part = 0 ∧ e.etype = EType.modelSwitch ∧ (s.stream
    key0.stream).head = some key0.seq ∧ e.stage = Stage.point ∧ e.pairDone = 1 ∧ s.windowsStarted (0 : BitVec 4) = true ∧
    s.pointOpen (0 : BitVec 4) = true :=
  ⟨pointE .modelSwitch 1, (atHead (pointE .modelSwitch 1)).wr (rPART 0 0x74) 1, by decide +kernel⟩

/-- For ModelSwitchesAndEpochs. -/
theorem witness_ModelDrained :
    ∃ (e : Entry) (s : State), s.entry key0 = some e ∧ e.part = 0 ∧ e.etype = EType.modelSwitch ∧ s.num (rPART (0 : BitVec
    4) 116) 0 3 = 2 ∧ s.shoal.wins = [] ∧ (∀ x ∈ s.allEntries, x.2.part = 0 → x.2.running = false ∧ (x.2.stage =
    Stage.finished ∨ x.2.stage = Stage.landing → x.2.writesRecord = true → x.2.recDone = true)) :=
  ⟨pointE .modelSwitch 2, (atHead (pointE .modelSwitch 2)).wr (rPART 0 0x74) 2, by decide +kernel⟩

/-- For ModelSwitchesAndEpochs. -/
theorem witness_ModelComplete :
    ∃ (e : Entry) (s : State), s.entry key0 = some e ∧ e.part = 0 ∧ e.etype = EType.modelSwitch ∧ s.num (rPART (0 : BitVec
    4) 116) 0 3 = 3 ∧ (List.find? (fun x => decide (x.2.part = 0) && decide (x.2.etype = EType.modelSwitch) && decide
    (x.2.pairDone = 2)) s.allEntries = some (key0, e)) :=
  ⟨pointE .modelSwitch 2, (atHead (pointE .modelSwitch 2)).wr (rPART 0 0x74) 3, by decide +kernel⟩

/-- For ModelSwitchesAndEpochs. -/
theorem witness_EpochAdvance :
    ∃ (e : Entry) (s : State), s.canonical = true ∧ s.entry key0 = some e ∧ e.part = 0 ∧ e.etype = EType.epochAdvance ∧
    (s.stream key0.stream).head = some key0.seq ∧ e.stage = Stage.point ∧ e.pairDone = 1 ∧ s.windowsStarted (0 : BitVec 4) =
    true ∧ s.pointOpen (0 : BitVec 4) = true ∧ s.flag (rTIDE (0 : BitVec 4) 8) 31 = false :=
  ⟨pointE .epochAdvance 1, (atHead (pointE .epochAdvance 1)).wr (rPART 0 0x74) 1, by decide +kernel⟩

/-- For ModelSwitchesAndEpochs. -/
theorem witness_EpochCommit :
    ∃ (e : Entry) (s : State), s.canonical = true ∧ s.entry key0 = some e ∧ e.part = 0 ∧ e.etype = EType.epochAdvance ∧
    s.advancing (0 : BitVec 4) = some (key0, e) ∧ s.num (rTIDE (0 : BitVec 4) 12) 16 16 = 0 ∧ s.num (rTIDE (0 : BitVec 4) 8)
    0 16 = 0 ∧ s.windowsStarted (0 : BitVec 4) = true ∧ s.flag (rTIDE (0 : BitVec 4) 8) 30 = false ∧ s.cur (0 : BitVec 4) ≠
    281474976710655 ∧ BitVec.getLsbD e.lctrl 0 = false :=
  ⟨pointE .epochAdvance 2, (((atHead (pointE .epochAdvance 2)).wr (rPART 0 0x74) 1).wr (rTIDE 0 0xC) 3).wr (rTIDE 0 8) 0x80000000, by decide +kernel⟩

/-- For ModelSwitchesAndEpochs. -/
theorem witness_EpochRefused :
    ∃ (e : Entry) (s : State), s.canonical = true ∧ s.entry key0 = some e ∧ e.part = 0 ∧ e.etype = EType.epochAdvance ∧
    s.advancing (0 : BitVec 4) = some (key0, e) ∧ s.num (rTIDE (0 : BitVec 4) 12) 16 16 = 0 ∧ s.num (rTIDE (0 : BitVec 4) 8)
    0 16 = 0 ∧ s.windowsStarted (0 : BitVec 4) = true ∧ (s.flag (rTIDE (0 : BitVec 4) 8) 30 = true ∨ s.cur (0 : BitVec 4) =
    281474976710655) :=
  ⟨pointE .epochAdvance 2, ((atHead (pointE .epochAdvance 2)).wr (rPART 0 0x74) 1).wr (rTIDE 0 8) 0xC0000000,
    by decide +kernel⟩

/-! ## Sync objects -/

/-- A fence entry. -/
def fenceE (l : Line) : Entry := { Entry.fresh .wait 0 0 [0, l] with stage := .fence }

/-- Its line's read outstanding. -/
def fenceS (l : Line) : State :=
  reads
    { (withPart up).setStream 0 { StreamE.reset with st := .blocked, head := some 0, inflight := 1 } with entries := [(0, some (fenceE l))] }
    (.fenceRead key0 0) 1

/-- For SyncObjects. -/
theorem witness_SyncWindow :
    ∃ (s : State), s.serves = true ∧ s.noRun = true ∧ s.mayTouch (0 : BitVec 13) (BitVec.toNat (63 : BitVec 14)) = true ∧
    s.mayTouch root (BitVec.toNat (63 : BitVec 14)) = true ∧ root.getLsbD 12 = true :=
  ⟨withPart up, by decide +kernel⟩

/-- For SyncObjects. -/
theorem witness_SyncUpdate :
    ∃ (x : Offer) (s : State), s.canonical = true ∧ bankPick s.sync.offers (1 : BitVec 1) (if (1 : BitVec 1) = 0 then
    s.sync.rot0 else s.sync.rot1) = some x ∧ x.entry = none :=
  ⟨⟨.rdp, ⟨.add, 3, 5⟩, [⟨.signal, 2, 7⟩], none⟩,
    { up with sync := { up.sync with offers := [(⟨.rdp, ⟨.add, 3, 5⟩, [⟨.signal, 2, 7⟩], none⟩)] } }.setObj 3
    { SyncObj.reset with value := 0 - 2, minWait := 0 - 1 }, by decide +kernel⟩

/-- For SyncObjects. -/
theorem witness_SyncForce :
    ∃ (x : Offer) (s : State), s.canonical = true ∧ bankPick s.sync.offers (0 : BitVec 1) (if (0 : BitVec 1) = 0 then
    s.sync.rot0 else s.sync.rot1) = some x ∧ x.entry = none :=
  ⟨⟨.rdp, ⟨.force, 2, 5⟩, [], none⟩,
    { up with sync := { up.sync with offers := [(⟨.rdp, ⟨.force, 2, 5⟩, [], none⟩)] } }.setObj 2
    { SyncObj.reset with value := 9, poison := true }, by decide +kernel⟩

/-- For SyncObjects. -/
theorem witness_BankRotation :
    ∃ (x : Offer), bankPick [x] (0 : BitVec 1) 4 = some x ∧ bankPick [x] (1 : BitVec 1) 4 = none :=
  ⟨⟨.rdp, ⟨.force, 2, 5⟩, [], none⟩, by decide +kernel⟩

/-- For WakePasses. -/
theorem witness_WakePasses :
    ∃ (w : Waiter) (s : State), s.canonical = true ∧ s.sync.passes = [3] :=
  ⟨⟨.op key0 0, 5, false⟩, { up with sync := { up.sync with passes := [3] } }.setObj 3
    { SyncObj.reset with value := 5, minWait := 5, waiters := [⟨.pair key0 0, 9, false⟩, (⟨.op key0 0, 5, false⟩)], flagged := true },
    by decide +kernel⟩

/-- For FencesAndPolls. -/
theorem witness_FenceReads :
    ∃ (l : Line) (s : State), (if false = true then s.answerFap (0 : BitVec 8) (0 : BitVec 4) else s.answer true (0 : BitVec
    8) (0 : BitVec 4)) = (afterR s, some (asked (Why.fenceRead key0 0) 1)) ∧ (asked (Why.fenceRead key0 0) 1).why =
    Why.fenceRead key0 0 ∧ (afterR s).entry key0 = some (fenceE l) ∧ (fenceE l).waitUnit = some l ∧ Line.w64 l (16 * 0) ≤
    Line.w64 (line [(0, 5)]) (if false = true then 0 else BitVec.toNat (Line.w64 l (16 * 0 + 8)) % 64) ∧ Line.w64 (line [(0,
    4)]) (if false = true then 0 else BitVec.toNat (Line.w64 l (16 * 0 + 8)) % 64) < Line.w64 l (16 * 0) ∧ ((fenceE
    l).etype.isLaunch = false ∨ (fenceE l).inPark = true ∨ (afterR s).parkValid = true) ∧ (afterR s).isLocal
    (BitVec.extractLsb' 0 57 (Line.w64 l (16 * 0 + 8))) = true :=
  ⟨line [(0, 5), (12, 0x40000000)], fenceS (line [(0, 5), (12, 0x40000000)]), by decide +kernel⟩

/-- For FencesAndPolls. -/
theorem witness_PollsOne :
    ∃ (p : Poll) (s : State), s.pwr.mode = PwrMode.active ∧ s.powered 13 = true ∧ s.sync.polls = [p] ∧ s.sync.pollQ = [] ∧
    p.value ≤ Line.w64 (line [(0, 5)]) (BitVec.toNat p.addr % 64) ∧ Line.w64 (line [(0, 4)]) (BitVec.toNat p.addr % 64) <
    p.value :=
  ⟨⟨key0, 0, 0, 64, 5⟩, { fenceS 0 with sync := { up.sync with polls := [(⟨key0, 0, 0, 64, 5⟩)] } }, by decide +kernel⟩

/-- For FencesAndPolls. -/
theorem witness_WatchNotify :
    ∃ (p : Poll) (s : State), s.pwr.mode = PwrMode.active ∧ s.powered 29 = true ∧ s.watch (BitVec.toNat (7 : BitVec 8)) =
    { held := some p, cancelling := false } ∧ p.value ≤ 5 ∧ (4 : Dword) < p.value ∧ s.watch (BitVec.toNat (8 : BitVec 8)) =
    { held := none, cancelling := false } ∧ (1 : BitVec 4) ≠ s.fapGen :=
  ⟨⟨key0, 0, 0, 64, 5⟩, (fenceS 0).setWatch 7 ⟨some (⟨key0, 0, 0, 64, 5⟩), false⟩, by decide +kernel⟩

/-- For FencesAndPolls. -/
theorem witness_WatchCancel :
    ∃ (s : State), s.pwr.mode = PwrMode.active ∧ s.answerFap (0 : BitVec 8) (0 : BitVec 4) = ((s.answerFap (0 : BitVec 8) (0
    : BitVec 4)).1, some (asked (Why.watchCancel 7) 1)) ∧ (asked (Why.watchCancel 7) 1).why = Why.watchCancel 7 :=
  ⟨({ up with fap := [asked (.watchCancel 7) 1] }).setWatch 7 ⟨none, true⟩, by decide +kernel⟩

/-- For MirrorsAndAtomics. -/
theorem witness_MirrorEnable :
    ∃ (s : State), s.canonical = true ∧ s.reaches root pSYNC PageKind.sync 0 = true ∧ s.mirrorsOn = [] :=
  ⟨up, by decide +kernel⟩

/-- For MirrorsAndAtomics. -/
theorem witness_MirrorEnableOne :
    ∃ (s : State), s.canonical = true ∧ s.reaches root pSYNC PageKind.sync 0 = true ∧ s.mirrorsOn = [4] ∧ (s.mirrorE 4).out
    = false :=
  ⟨up.wr (bankKey 4 (rSYNC 0x64)) 0x80000003, by decide +kernel⟩

/-- For MirrorsAndAtomics. -/
theorem witness_MirrorEntry :
    ∃ (s : State), s.canonical = true ∧ s.reaches root pSYNC PageKind.sync 0 = true ∧ s.flag (bankKey (s.num (rSYNC 96) 0
    10) (rSYNC 100)) 31 = false ∧ (s.mirrorOf (BitVec.toNat (3 : BitVec 14))).isSome = true ∧ s.mirrorOf (BitVec.toNat (5 :
    BitVec 14)) = none ∧ s.flag (rSYNC 64) 1 = true ∧ (s.mirrorE (s.num (rSYNC 96) 0 10)).out = false :=
  ⟨up.wr (bankKey 4 (rSYNC 0x64)) 0x80000003, by decide +kernel⟩

/-- For MirrorsAndAtomics. -/
theorem witness_MirrorEntryOff :
    ∃ (s : State), s.canonical = true ∧ s.reaches root pSYNC PageKind.sync 0 = true ∧ s.flag (bankKey (s.num (rSYNC 96) 0
    10) (rSYNC 100)) 31 = true :=
  ⟨up.wr (rSYNC 0x64) 0x80000003, by decide +kernel⟩

/-- For MirrorsAndAtomics. -/
theorem witness_MirrorResult :
    ∃ (s : State) (q : MReq), s.canonical = true ∧ s.getsAtom false (0 : BitVec 8) (0 : BitVec 4) (s.answerAtom false (0 :
    BitVec 8) (0 : BitVec 4)).1 q ∧ q.why = Why.mirror 0 ∧ ((s.answerAtom false (0 : BitVec 8) (0 : BitVec 4)).1.mirrorE
    0).stale = true ∧ bit ((s.answerAtom false (0 : BitVec 8) (0 : BitVec 4)).1.mirrorObj 0) 31 = true ∧ (s.answerAtom false
    (0 : BitVec 8) (0 : BitVec 4)).1.flag (rSYNC 64) 1 = true :=
  ⟨({ up with mmp := [⟨some 0, .atomic, 0, .max 5, 64, 8, [], .mirror 0⟩] }.wr (rSYNC 0x64) 0x80000003).setMirror 0 ⟨true,
    true, false⟩, ⟨some 0, .atomic, 0, .max 5, 64, 8, [], .mirror 0⟩, by unfold State.getsAtom; decide +kernel⟩

/-- For MirrorsAndAtomics. -/
theorem witness_MirrorResultEnds :
    ∃ (s : State) (q : MReq), s.canonical = true ∧ s.getsAtom false (0 : BitVec 8) (0 : BitVec 4) (s.answerAtom false (0 :
    BitVec 8) (0 : BitVec 4)).1 q ∧ q.why = Why.mirror 0 ∧ ((s.answerAtom false (0 : BitVec 8) (0 : BitVec 4)).1.mirrorE
    0).stale = false :=
  ⟨({ up with mmp := [⟨some 0, .atomic, 0, .max 5, 64, 8, [], .mirror 0⟩] }.wr (rSYNC 0x64) 0x80000003).setMirror 0 ⟨true,
    false, false⟩, ⟨some 0, .atomic, 0, .max 5, 64, 8, [], .mirror 0⟩, by unfold State.getsAtom; decide +kernel⟩

/-- For MirrorsAndAtomics. -/
theorem witness_MirrorRetry :
    ∃ (s : State), s.canonical = true ∧ s.powered 13 = true ∧ s.mirrorsOn = [0] ∧ (s.mirrorE 0).failed = true ∧ (s.mirrorE
    0).out = false ∧ s.flag (rSYNC 64) 1 = true :=
  ⟨(up.wr (rSYNC 0x64) 0x80000003).setMirror 0 ⟨false, false, true⟩, by decide +kernel⟩

/-- For MirrorsAndAtomics. -/
theorem witness_Atomics :
    ∃ (s : State), s.canonical = true ∧ s.reaches root pSYNC PageKind.sync 0 = true ∧ (Instr.compareSwap root, MOp.cas (0 :
    Dword) (0 : Dword)) ∈ [(Instr.fetchAdd root, MOp.fetchAdd (s.rd64 (rSYNC 128))), (Instr.atomMax root, MOp.max (s.rd64
    (rSYNC 128))), (Instr.compareSwap root, MOp.cas (s.rd64 (rSYNC 136)) (s.rd64 (rSYNC 128)))] ∧ s.flag (rSYNC 112) 27 =
    false ∧ s.isLocal (BitVec.extractLsb' 0 57 (s.rd64 (rSYNC 120))) = true :=
  ⟨up.wr (rSYNC 0x78) 64, by decide +kernel⟩

/-- For MirrorsAndAtomics. -/
theorem witness_AtomicRemote :
    ∃ (s : State), s.canonical = true ∧ s.reaches root pSYNC PageKind.sync 0 = true ∧ (Instr.fetchAdd root, MOp.fetchAdd (0
    : Dword)) ∈ [(Instr.fetchAdd root, MOp.fetchAdd (s.rd64 (rSYNC 128))), (Instr.atomMax root, MOp.max (s.rd64 (rSYNC
    128))), (Instr.compareSwap root, MOp.cas (s.rd64 (rSYNC 136)) (s.rd64 (rSYNC 128)))] ∧ s.flag (rSYNC 112) 27 = false ∧
    s.isLocal (BitVec.extractLsb' 0 57 (s.rd64 (rSYNC 120))) = false :=
  ⟨up.wr (rSYNC 0x7C) 0x4000, by decide +kernel⟩

/-- For MirrorsAndAtomics. -/
theorem witness_AtomicBusy :
    ∃ (s : State), s.canonical = true ∧ s.reaches root pSYNC PageKind.sync 0 = true ∧ (Instr.atomMax root, MOp.max (0 :
    Dword)) ∈ [(Instr.fetchAdd root, MOp.fetchAdd (s.rd64 (rSYNC 128))), (Instr.atomMax root, MOp.max (s.rd64 (rSYNC 128))),
    (Instr.compareSwap root, MOp.cas (s.rd64 (rSYNC 136)) (s.rd64 (rSYNC 128)))] ∧ s.flag (rSYNC 112) 27 = true :=
  ⟨up.wr (rSYNC 0x70) 0x8000000, by decide +kernel⟩

/-- For MirrorsAndAtomics. -/
theorem witness_AtomicResult :
    ∃ (q : MReq) (s : State), s.canonical = true ∧ s.getsAtom false (0 : BitVec 8) (0 : BitVec 4) (s.answerAtom false (0 :
    BitVec 8) (0 : BitVec 4)).1 q ∧ q.why = Why.atom :=
  ⟨⟨some 0, .atomic, 0, .max 5, 64, 8, [], .atom⟩,
    { up with mmp := [(⟨some 0, .atomic, 0, .max 5, 64, 8, [], .atom⟩)] }.wr (rSYNC 0x70) 0x8000000,
    by unfold State.getsAtom; decide +kernel⟩

/-! ## Ferry, Harbour, cores -/

/-- An entry on channel 0. -/
def onChan (e : Entry) : State :=
  { ((withPart up).setStream 0 { StreamE.reset with st := .blocked, head := some 0, inflight := 1 }) with entries := [(0, some e)], fetch := { Fetch.reset with chans := [(3, some 0)] } }

/-- A launch in the Ferry. -/
def ferryE : Entry :=
  { Entry.fresh .launch 0 0 [0] with stage := .ferry, cb := [line [(4, 17 * 256)], line [(0, 7)], line [(0, 9), (4, 9)], 0], lines := [block 64 0 17], total := 5, constIn := false }

/-- A launch that waits for its inputs. -/
def inputE : Entry := { Entry.fresh .launch 0 0 [0] with stage := .input, waiting := 2, cb := [0, 0, 0] }

/-- A launch that waits for its context. -/
def queuedE : Entry := { Entry.fresh .launch 0 0 [0] with stage := .harbQueue }

/-- A parked launch. -/
def parkE : Entry :=
  { Entry.fresh .launch 0 0 [0] with stage := .parked, parkAcks := 1, inPark := true, store := 1, total := 1 }

/-- A parked launch that is read back. -/
def backE (n : Nat) : Entry := { parkE with stage := .readback, parkAcks := 0, waiting := n, prepared := true, lines := [0] }

/-- A template command whose directory read is outstanding. -/
def tmplS (op : BitVec 4) : State := reads (up.setTmplCmd 0 (some ⟨op, 1, true, 64, 0, []⟩)) (.tmplCmd 0 0) 1

/-- A launch to be placed. -/
def placeE : Entry := { Entry.fresh .launch 0 0 [0] with stage := .place, lines := [block 64 2 0] }

/-- It, in a partition with a model. -/
def placeS (e : Entry) : State := (onChan e).wr (rPART 0 0x74) 1

/-- A load of a program with reads outstanding. -/
def loadOf (n : Nat) : Load := ⟨⟨2, 0, 64⟩, false, false, [0], n, false, false⟩

/-- For SlicesAndInputs. -/
theorem witness_SlicesNone :
    up.canonical = true ∧ ((up.allEntries.any fun x => decide (x.2.etype = EType.lookupLaunch)) = false) ∧ (List.findSome?
    (fun c => Option.map (fun k => (c, k)) (up.chanReady c)) (List.map (fun i => (up.ferry.last.toNat + 1 + i) % 16)
    (List.range 16)) = none) :=
  by decide +kernel

/-- For SlicesAndInputs. -/
theorem witness_Slices :
    ∃ (s : State), s.canonical = true ∧ ((s.allEntries.any fun x => decide (x.2.etype = EType.lookupLaunch)) = false) ∧
    (List.findSome? (fun c => Option.map (fun k => (c, k)) (s.chanReady c)) (List.map (fun i => (s.ferry.last.toNat + 1 + i)
    % 16) (List.range 16)) = some (3, key0)) ∧ s.entry key0 = some ferryE ∧ s.num (pageAddr pFERY 64) 0 7 = 2 ∧
    ferryE.decode = 0 ∧ 1 ≤ ferryE.lines.length ∧ ferryE.lines.length + 2 ≤ 1 + ceilDiv ferryE.xP 16 + (if ferryE.constIn = true then 4 else 0) ∧ ferryE.lines.length + 2 < ferryE.total :=
  ⟨(onChan ferryE).wr (pageAddr pFERY 0x40) 2, by decide +kernel⟩

/-- For SlicesAndInputs. -/
theorem witness_InputReturns :
    ∃ (s : State), s.canonical = true ∧ s.gets true (0 : BitVec 8) (0 : BitVec 4) (afterR s) (asked (Why.input key0 2 1) 1)
    ∧ (asked (Why.input key0 2 1) 1).why = Why.input key0 2 1 ∧ (afterR s).entry key0 = some inputE ∧ 2 ∈ [1, 2, 3, 4] ∧ [(5
    : Line)].length * 64 = (asked (Why.input key0 2 1) 1).len :=
  ⟨reads (onChan inputE) (.input key0 2 1) 1, by unfold State.gets; decide +kernel⟩

/-- For SlicesAndInputs. -/
theorem witness_InputAhead :
    ∃ (s : State), s.canonical = true ∧ s.gets true (0 : BitVec 8) (0 : BitVec 4) (afterR s) (asked (Why.ahead key0 (64 :
    Addr) true) 1) ∧ (asked (Why.ahead key0 (64 : Addr) true) 1).why = Why.ahead key0 (64 : Addr) true ∧ ((afterR s).stream
    key0.stream).serial = key0.seq ∧ [(5 : Line)].length * 64 = (asked (Why.ahead key0 (64 : Addr) true) 1).len :=
  ⟨reads (onChan inputE) (.ahead key0 64 true) 1, by unfold State.gets; decide +kernel⟩

/-- For SlicesAndInputs. -/
theorem witness_HandleReturns :
    ∃ (s : State), s.canonical = true ∧ s.gets true (0 : BitVec 8) (0 : BitVec 4) (afterR s) (asked (Why.handle 2 9) 1) ∧
    (asked (Why.handle 2 9) 1).why = Why.handle 2 9 ∧ (asked (Why.handle 2 9) 1).len = 64 ∧ (((afterR s).allEntries.any fun
    x => decide (x.2.stage = Stage.miss)) = false) ∧ 9 < staleHandle :=
  ⟨reads up (.handle 2 9) 1, by unfold State.gets; decide +kernel⟩

/-- For SlicesAndInputs. -/
theorem witness_HandleStale :
    ∃ (s : State), s.canonical = true ∧ s.gets true (0 : BitVec 8) (0 : BitVec 4) (afterR s) (asked (Why.handle 2 (16777216
    + 9)) 1) ∧ (asked (Why.handle 2 (16777216 + 9)) 1).why = Why.handle 2 (16777216 + 9) ∧ (asked (Why.handle 2 (16777216 +
    9)) 1).len = 64 ∧ (((afterR s).allEntries.any fun x => decide (x.2.stage = Stage.miss)) = false) ∧ staleHandle ≤
    16777216 + 9 ∧ (((afterR s).mmp.any fun m => decide (m.why = Why.handle 2 (16777216 + 9 - staleHandle))) = false) :=
  ⟨reads up (.handle 2 (0x1000000 + 9)) 1, by unfold State.gets; decide +kernel⟩

/-- For HarbourAndPark. -/
theorem witness_HarbourArrives :
    ∃ (s : State) (l : Line), s.canonical = true ∧ s.gets true (0 : BitVec 8) (0 : BitVec 4) (afterR s) (asked (Why.ctxLoad
    2) 4) ∧ (asked (Why.ctxLoad 2) 4).why = Why.ctxLoad 2 ∧ (asked (Why.ctxLoad 2) 4).len = 256 ∧ ((afterR s).slot 2).st =
    SlotState.loading ∧ ((afterR s).slot 2).missing = 4 ∧ (afterR s).loadWaiters 2 = [] ∧ (afterR s).harb.changes = [] ∧
    (afterR s).harb.staged = [] ∧ (afterR s).ctxCmd ((afterR s).slot 2).part = none ∧ BitVec.getLsbD l 0 = true ∧
    BitVec.getLsbD l 1 = false ∧ (BitVec.getLsbD (0 : Line) 0 = false ∨ BitVec.getLsbD (0 : Line) 1 = true) :=
  ⟨reads (up.setSlot 2 { Slot.reset with st := .loading, missing := 4 }) (.ctxLoad 2) 4, line [(0, 1)],
    by unfold State.gets; decide +kernel⟩

/-- For HarbourAndPark. -/
theorem witness_HarbourServe :
    ∃ (s : State), s.canonical = true ∧ s.harb.queue = [key0] ∧ s.entry key0 = some queuedE ∧ queuedE.prepared = false ∧
    s.slotOf queuedE.part (BitVec.extractLsb' 0 16 queuedE.ctx) = none ∧ (s.slot 0).st = SlotState.free :=
  ⟨{ (onChan queuedE) with harb := { Harbour.reset with queue := [key0] }, fetch := Fetch.reset }, by decide +kernel⟩

/-- For HarbourAndPark. -/
theorem witness_ParkAck :
    ∃ (s : State), s.canonical = true ∧ (afterW s).entry key0 = some parkE ∧ s.gets false (0 : BitVec 8) (0 : BitVec 4)
    (afterW s) (wrote (Why.park key0)) ∧ (wrote (Why.park key0)).why = Why.park key0 :=
  ⟨writes (onChan parkE) (.park key0), by unfold State.gets; decide +kernel⟩

/-- For HarbourAndPark. -/
theorem witness_ReadbackMore :
    ∃ (e : Entry) (s : State), s.canonical = true ∧ (afterR s).entry key0 = some e ∧ s.gets true (0 : BitVec 8) (0 : BitVec
    4) (afterR s) (asked (Why.unpark key0 0) 1) ∧ (asked (Why.unpark key0 0) 1).why = Why.unpark key0 0 ∧ [(5 :
    Line)].length * 64 = (asked (Why.unpark key0 0) 1).len ∧ e.prepared = true ∧ 2 ≤ e.waiting :=
  ⟨backE 2, reads (onChan (backE 2)) (.unpark key0 0) 1, by unfold State.gets; decide +kernel⟩

/-- For TemplateCommands. -/
theorem witness_TemplateCommand :
    ∃ (s : State), s.canonical = true ∧ s.reaches root pFERY PageKind.fery 0 = true ∧ s.fld (pageAddr pFERY 72) 0 4 = 0 ∧
    s.flag (rFERYp (0 : BitVec 4) 100) 31 = false ∧ (Instr.register root (1 : BitVec 12) true, (1 : BitVec 4), true) ∈
    [(Instr.register root (1 : BitVec 12) true, (1 : BitVec 4), true), (Instr.replace root (1 : BitVec 12) true, (2 : BitVec
    4), true), (Instr.retire root (1 : BitVec 12), (3 : BitVec 4), false), (Instr.setPin root (1 : BitVec 12) true, (4 :
    BitVec 4), true)] ∧ s.flag (rFERYp (0 : BitVec 4) 88) 27 = false ∧ BitVec.toNat (1 : BitVec 12) < s.num (rFERYp (0 :
    BitVec 4) 84) 0 13 ∧ (Instr.retire root (2 : BitVec 12), (3 : BitVec 4), false) ∈ [(Instr.register root (2 : BitVec 12)
    true, (1 : BitVec 4), true), (Instr.replace root (2 : BitVec 12) true, (2 : BitVec 4), true), (Instr.retire root (2 :
    BitVec 12), (3 : BitVec 4), false), (Instr.setPin root (2 : BitVec 12) true, (4 : BitVec 4), true)] ∧ s.num (rFERYp (0 :
    BitVec 4) 84) 0 13 ≤ BitVec.toNat (2 : BitVec 12) :=
  ⟨up.wr (rFERYp 0 0x54) 2, by decide +kernel⟩

/-- For TemplateCommands. -/
theorem witness_TemplateBusy :
    ∃ (s : State), s.canonical = true ∧ s.reaches root pFERY PageKind.fery 0 = true ∧ s.fld (pageAddr pFERY 72) 0 4 = 0 ∧
    s.flag (rFERYp (0 : BitVec 4) 100) 31 = false ∧ (Instr.setPin root (1 : BitVec 12) true, (4 : BitVec 4), true) ∈
    [(Instr.register root (1 : BitVec 12) true, (1 : BitVec 4), true), (Instr.replace root (1 : BitVec 12) true, (2 : BitVec
    4), true), (Instr.retire root (1 : BitVec 12), (3 : BitVec 4), false), (Instr.setPin root (1 : BitVec 12) true, (4 :
    BitVec 4), true)] ∧ s.flag (rFERYp (0 : BitVec 4) 88) 27 = true :=
  ⟨up.wr (rFERYp 0 0x58) 0x8000000, by decide +kernel⟩

/-- For TemplateCommands. -/
theorem witness_TemplateRetire :
    ∃ (s : State) (l : Line), s.canonical = true ∧ s.gets true (0 : BitVec 8) (0 : BitVec 4) (afterR s) (asked (Why.tmplCmd
    (0 : BitVec 4) 0) 1) ∧ (asked (Why.tmplCmd (0 : BitVec 4) 0) 1).why = Why.tmplCmd (0 : BitVec 4) 0 ∧ (asked (Why.tmplCmd
    (0 : BitVec 4) 0) 1).len = 64 ∧ (afterR s).tmplCmd (0 : BitVec 4) = some
    { op := (3 : BitVec 4), id := (1 : BitVec 12), pin := true, src := (64 : Addr), step := 0, got := [] } ∧ (afterR
    s).dirGet (0 : BitVec 4) (1 : BitVec 12) = none ∧ (afterR s).flag (rFERYp (0 : BitVec 4) 100) 31 = false ∧ (3 : BitVec
    4) = 3 ∧ (DirEntry.ofLine l (BitVec.toNat (1 : BitVec 12) % 2)).valid = true ∧ ((3 : BitVec 4) = 1 ∧ (DirEntry.ofLine (0
    : Line) (BitVec.toNat (1 : BitVec 12) % 2)).valid = true ∨ ((3 : BitVec 4) = 2 ∨ (3 : BitVec 4) = 3 ∨ (3 : BitVec 4) =
    4) ∧ (DirEntry.ofLine (0 : Line) (BitVec.toNat (1 : BitVec 12) % 2)).valid = false) :=
  ⟨tmplS 3, line [(40, 0x10000)], by unfold State.gets; decide +kernel⟩

/-- For TemplateCommands. -/
theorem witness_TemplateRegister :
    ∃ (s : State), s.canonical = true ∧ s.gets true (0 : BitVec 8) (0 : BitVec 4) (afterR s) (asked (Why.tmplCmd (0 : BitVec
    4) 0) 1) ∧ (asked (Why.tmplCmd (0 : BitVec 4) 0) 1).why = Why.tmplCmd (0 : BitVec 4) 0 ∧ (asked (Why.tmplCmd (0 : BitVec
    4) 0) 1).len = 64 ∧ (afterR s).tmplCmd (0 : BitVec 4) = some
    { op := (1 : BitVec 4), id := (1 : BitVec 12), pin := true, src := (64 : Addr), step := 0, got := [] } ∧ (afterR
    s).dirGet (0 : BitVec 4) (1 : BitVec 12) = none ∧ (afterR s).flag (rFERYp (0 : BitVec 4) 100) 31 = false ∧ ((1 : BitVec
    4) = 1 ∧ (DirEntry.ofLine (0 : Line) (BitVec.toNat (1 : BitVec 12) % 2)).valid = false ∨ (1 : BitVec 4) = 2 ∧
    (DirEntry.ofLine (0 : Line) (BitVec.toNat (1 : BitVec 12) % 2)).valid = true) :=
  ⟨tmplS 1, by unfold State.gets; decide +kernel⟩

/-- For Placement. -/
theorem witness_PlacementLost :
    ∃ (e : Entry) (s : State), s.canonical = true ∧ (s.stream key0.stream).head = some key0.seq ∧ s.entry key0 = some e ∧
    e.stage = Stage.place ∧ e.core = none ∧ s.ctxGone e = true :=
  ⟨{ placeE with slot := some 0 }, placeS ({ placeE with slot := some 0 }), by decide +kernel⟩

/-- For Placement. -/
theorem witness_PlacementHeld :
    ∃ (e : Entry) (s : State), s.canonical = true ∧ (s.stream key0.stream).head = some key0.seq ∧ s.entry key0 = some e ∧
    e.stage = Stage.place ∧ e.core = none ∧ s.ctxGone e = false ∧ s.startHeld e = true :=
  ⟨placeE, onChan (placeE), by decide +kernel⟩

/-- For Placement. -/
theorem witness_PlacementWaits :
    ∃ (e : Entry) (s : State), s.canonical = true ∧ (s.stream key0.stream).head = some key0.seq ∧ s.entry key0 = some e ∧
    e.stage = Stage.place ∧ e.core = none ∧ s.ctxGone e = false ∧ s.startHeld e = false ∧ s.outranked key0 = true :=
  ⟨placeE,
    { (placeS (placeE)).setEntry ⟨0, 1⟩ (some (placeE)) with ferry := { Ferry.reset with waits := [⟨0, 1⟩, key0] } },
    by decide +kernel⟩

/-- For Placement. -/
theorem witness_PlacementStarts :
    ∃ (e : Entry) (s : State), s.canonical = true ∧ (s.stream key0.stream).head = some key0.seq ∧ s.entry key0 = some e ∧
    e.stage = Stage.place ∧ e.core = none ∧ s.ctxGone e = false ∧ s.startHeld e = false ∧ s.outranked key0 = false ∧
    s.place8 (progKey e.part (e.lines.getD 0 (0 : Line))) (blkOps (e.lines.getD 0 (0 : Line))) = Place8.start (5 : BitVec 4) :=
  ⟨placeE, (placeS (placeE)).setCore 5
    { Core.reset with bankA := bank0 (block 64 2 0) [], threads := [(0, thread0 [0])] }, by decide +kernel⟩

/-- For Placement. -/
theorem witness_CopyIn :
    ∃ (s : State), s.canonical = true ∧ (s.thread (0 : BitVec 4) (0 : BitVec 3)).launch = some key0 ∧ s.entry key0 = some
    launch0 ∧ (s.thread (0 : BitVec 4) (0 : BitVec 3)).stall ≠ Stall.start ∧ (s.thread (0 : BitVec 4) (0 : BitVec
    3)).arrived < (s.thread (0 : BitVec 4) (0 : BitVec 3)).lines.length :=
  ⟨core0 [block 64 2 0, 0] [] (fun th => { th with arrived := 1, st := .stalled, stall := .line 1 }), by decide +kernel⟩

/-- For ProgramLoads. -/
theorem witness_ProgramLoad :
    ∃ (s : State), s.canonical = true ∧ s.reaches root (pSKRY (3 : BitVec 4)) PageKind.skry (BitVec.toNat (3 : BitVec 4)) =
    true ∧ s.flag (rSKRY (3 : BitVec 4) 76) 27 = false ∧ 64 ≤ s.num (rSKRY (3 : BitVec 4) 88) 0 16 ∧ s.num (rSKRY (3 :
    BitVec 4) 88) 0 16 ≤ 32768 ∧ s.num (rSKRY (3 : BitVec 4) 88) 0 16 % 64 = 0 ∧ (s.core (3 : BitVec 4)).pins (~~~(s.core (3
    : BitVec 4)).active) = 0 ∧ (s.core (3 : BitVec 4)).load = none ∧ (s.core (3 : BitVec 4)).room
    { part := BitVec.setWidth 6 (2 : BitVec 4), addr := s.addrPair (rSKRY (3 : BitVec 4) 80) 6, len := s.num (rSKRY (3 : BitVec 4) 88) 0 16 }
    = true :=
  ⟨up.wr (rSKRY 3 0x58) 64, by decide +kernel⟩

/-- For ProgramLoads. -/
theorem witness_ProgramLoadBad :
    ∃ (s : State), s.canonical = true ∧ s.reaches root (pSKRY (3 : BitVec 4)) PageKind.skry (BitVec.toNat (3 : BitVec 4)) =
    true ∧ s.flag (rSKRY (3 : BitVec 4) 76) 27 = false ∧ (s.num (rSKRY (3 : BitVec 4) 88) 0 16 < 64 ∨ 32768 < s.num (rSKRY
    (3 : BitVec 4) 88) 0 16 ∨ s.num (rSKRY (3 : BitVec 4) 88) 0 16 % 64 ≠ 0) :=
  ⟨up.wr (rSKRY 3 0x58) 65, by decide +kernel⟩

/-- For ProgramLoads. -/
theorem witness_ProgramLoadBusy :
    ∃ (s : State), s.canonical = true ∧ s.reaches root (pSKRY (3 : BitVec 4)) PageKind.skry (BitVec.toNat (3 : BitVec 4)) =
    true ∧ s.flag (rSKRY (3 : BitVec 4) 76) 27 = false ∧ 64 ≤ s.num (rSKRY (3 : BitVec 4) 88) 0 16 ∧ s.num (rSKRY (3 :
    BitVec 4) 88) 0 16 ≤ 32768 ∧ s.num (rSKRY (3 : BitVec 4) 88) 0 16 % 64 = 0 ∧ ((s.core (3 : BitVec 4)).pins (~~~(s.core
    (3 : BitVec 4)).active) ≠ 0 ∨ (s.core (3 : BitVec 4)).load.isSome = true) :=
  ⟨(up.wr (rSKRY 3 0x58) 64).setCore 3 { Core.reset with load := some (loadOf 1) }, by decide +kernel⟩

/-- For ProgramLoads. -/
theorem witness_ProgramLoadFull :
    ∃ (s : State), s.canonical = true ∧ s.reaches root (pSKRY (3 : BitVec 4)) PageKind.skry (BitVec.toNat (3 : BitVec 4)) =
    true ∧ s.flag (rSKRY (3 : BitVec 4) 76) 27 = false ∧ 64 ≤ s.num (rSKRY (3 : BitVec 4) 88) 0 16 ∧ s.num (rSKRY (3 :
    BitVec 4) 88) 0 16 ≤ 32768 ∧ s.num (rSKRY (3 : BitVec 4) 88) 0 16 % 64 = 0 ∧ (s.core (3 : BitVec 4)).pins (~~~(s.core (3
    : BitVec 4)).active) = 0 ∧ (s.core (3 : BitVec 4)).load = none ∧ (s.core (3 : BitVec 4)).room
    { part := BitVec.setWidth 6 (2 : BitVec 4), addr := s.addrPair (rSKRY (3 : BitVec 4) 80) 6, len := s.num (rSKRY (3 : BitVec 4) 88) 0 16 }
    = false :=
  ⟨(up.wr (rSKRY 3 0x58) 32768).setCore 3 { Core.reset with bankA := ⟨[⟨⟨1, 0, 64⟩, true, true, 0, 0⟩], []⟩ },
    by decide +kernel⟩

/-- For ProgramLoads. -/
theorem witness_ProgramLoaded :
    ∃ (s : State), s.canonical = true ∧ s.gets true (0 : BitVec 8) (0 : BitVec 4) (afterR s) (asked (Why.imem (3 : BitVec 4)
    0) 1) ∧ (asked (Why.imem (3 : BitVec 4) 0) 1).why = Why.imem (3 : BitVec 4) 0 ∧ [(5 : Line)].length * 64 = (asked
    (Why.imem (3 : BitVec 4) 0) 1).len ∧ ((afterR s).core (3 : BitVec 4)).load = some (loadOf 1) ∧ (loadOf 1).missing = 1 ∧
    (loadOf 1).err = false ∧ (loadOf 1).soft = false ∧ (afterR s).swapWaiters (3 : BitVec 4) = [] :=
  ⟨reads (up.setCore 3 { Core.reset with load := some (loadOf 1) }) (.imem 3 0) 1, by unfold State.gets; decide +kernel⟩

/-- For ProgramLoads. -/
theorem witness_ProgramLoadMore :
    ∃ (s : State), s.canonical = true ∧ s.gets true (0 : BitVec 8) (0 : BitVec 4) (afterR s) (asked (Why.imem (3 : BitVec 4)
    0) 1) ∧ (asked (Why.imem (3 : BitVec 4) 0) 1).why = Why.imem (3 : BitVec 4) 0 ∧ [(5 : Line)].length * 64 = (asked
    (Why.imem (3 : BitVec 4) 0) 1).len ∧ ((afterR s).core (3 : BitVec 4)).load = some (loadOf 2) ∧ 2 ≤ (loadOf 2).missing :=
  ⟨reads (up.setCore 3 { Core.reset with load := some (loadOf 2) }) (.imem 3 0) 1, by unfold State.gets; decide +kernel⟩

/-! ## Dispatch and ports -/

/-- A candidate for admission. -/
def candX : Cand := ⟨.op key0 0, 0, 0, 0, 0, 0, 0, [2 ^ 57, 0, 0, 0], []⟩

/-- The block with that candidate. -/
def admitS : State :=
  { (withPort (withPart up)) with entries := [(0, some { launch0 with ops := [.cand false] })], disp := { Disp.reset with cands := [candX] } }

/-- The same with every port's depth 8. -/
def depths : State := { admitS with regs := (up.regs ++ (List.range 128).map (fun n => (rEPRT n 0x44, (8 : Word)))) }

/-- A command of that launch's operation 0, to port 0, at a stage. -/
def cmdX (st : CmdStage) : Cmd := ⟨.op key0 0, 0, 0, 0, 0, 0, 0, 0, st, 0, false, [], [2 ^ 57, 0, 0, 0], [], 0⟩

/-- The block with that command at a stage, its operation sent. -/
def sentS (st : CmdStage) : State :=
  { (withPort (withPart up)) with cclk := 5, entries := [(0, some { launch0 with ops := [.sent] })], disp := { Disp.reset with cmds := [cmdX st] } }

/-- For StartsAndThreadControl. -/
theorem witness_Starts :
    ∃ (e : Entry) (s : State), s.canonical = true ∧ (s.thread (0 : BitVec 4) (0 : BitVec 3)).launch = some key0 ∧ s.entry
    key0 = some e ∧ (s.thread (0 : BitVec 4) (0 : BitVec 3)).st = ThrState.stalled ∧ (s.thread (0 : BitVec 4) (0 : BitVec
    3)).stall = Stall.start ∧ (s.thread (0 : BitVec 4) (0 : BitVec 3)).wantSwap = false ∧ e.stage = Stage.place ∧ e.core =
    some (0 : BitVec 4) ∧ e.thread = some (0 : BitVec 3) ∧ (s.stream key0.stream).head = some key0.seq ∧ 1 + ceilDiv (blkP
    ((s.thread (0 : BitVec 4) (0 : BitVec 3)).lines.getD 0 (0 : Line))) 16 ≤ (s.thread (0 : BitVec 4) (0 : BitVec
    3)).arrived + 1 ∧ (s.thread (0 : BitVec 4) (0 : BitVec 3)).arrived + 1 < (s.thread (0 : BitVec 4) (0 : BitVec
    3)).lines.length ∧ s.ctxGone e = false ∧ s.startHeld e = false ∧ e.etype = EType.launch ∧ emptyClassOps (s.thread (0 :
    BitVec 4) (0 : BitVec 3)).lines (s.placesOf e.part) = [] ∧ s.brkMatch (0 : BitVec 4) ((s.thread (0 : BitVec 4) (0 :
    BitVec 3)).lines.getD 0 (0 : Line)) false = false ∧ (s.fev (funcOf key0.stream) = none) ∧ s.flag (rAUDT 0x108) 31 = false ∧
    ((s.core 0).bank (s.core 0).active).progs.any (fun p => decide (p.key = progKey e.part ((s.thread 0 0).lines.getD 0 0))) = true :=
  ⟨{ Entry.fresh .launch 0 0 [0] with stage := .place, lines := [block 64 1 0, 0], core := some 0, thread := some 0 },
    ({ core0 [block 64 1 0, 0] [] (fun th => { th with st := .stalled, stall := .start, arrived := 0 }) with entries := [(0, some ({ Entry.fresh .launch 0 0 [0] with stage := .place, lines := [block 64 1 0, 0], core := some 0, thread := some 0 }))] }.setStream
    0 { StreamE.reset with st := .blocked, head := some 0, inflight := 1 }).wr (rPART 0 0x74) 1, by decide +kernel⟩

/-- For StartsAndThreadControl. -/
theorem witness_ThreadHalt :
    ∃ (s : State), s.canonical = true ∧ s.reaches root (pSKRY (0 : BitVec 4)) PageKind.skry (BitVec.toNat (0 : BitVec 4)) =
    true ∧ s.flag (rSKRY (0 : BitVec 4) 112) 27 = false ∧ (s.thread (0 : BitVec 4) (s.fld (rSKRY (0 : BitVec 4) 108) 0
    3)).st ∈ [ThrState.running, ThrState.stalled, ThrState.waiting] ∧ (OpState.cand true ∉ (Option.map (fun x => x.ops)
    ((s.thread (0 : BitVec 4) (s.fld (rSKRY (0 : BitVec 4) 108) 0 3)).launch.bind s.entry)).getD []) ∧ (s.thread (0 : BitVec
    4) (s.fld (rSKRY (0 : BitVec 4) 108) 0 3)).st ≠ ThrState.brk :=
  ⟨core0 [block 64 0 0] [] id, by decide +kernel⟩

/-- For StartsAndThreadControl. -/
theorem witness_ThreadStep :
    ∃ (w : Word) (s : State), s.canonical = true ∧ s.reaches root (pSKRY (0 : BitVec 4)) PageKind.skry (BitVec.toNat (0 :
    BitVec 4)) = true ∧ s.flag (rSKRY (0 : BitVec 4) 112) 27 = false ∧ (s.thread (0 : BitVec 4) (s.fld (rSKRY (0 : BitVec 4)
    108) 0 3)).st = ThrState.brk ∧ s.insn (0 : BitVec 4) (s.fld (rSKRY (0 : BitVec 4) 108) 0 3) = w ∧ iOp w = 1 ∧
    BitVec.extractLsb' 0 11 w = BitVec.ofNat 11 0 ∧ s.notLast (0 : BitVec 4) (s.fld (rSKRY (0 : BitVec 4) 108) 0 3) = true ∧
    (s.thread (0 : BitVec 4) (s.fld (rSKRY (0 : BitVec 4) 108) 0 3)).st ∉ [ThrState.running, ThrState.stalled,
    ThrState.waiting] :=
  ⟨rw 1 3 1 2 0, core0 [block 64 0 0] [(0, (rw 1 3 1 2 0).toNat)] (fun th => { regs3 5 6 0 th with st := .brk }),
    by decide +kernel⟩

/-- For AdmissionAndQueues. -/
theorem witness_AdmissionHalted :
    ∃ (s : State), s.canonical = true ∧ s.dispHalted = true :=
  ⟨{ admitS with lhse := { admitS.lhse with mode := .paused } }, by decide +kernel⟩

/-- For AdmissionAndQueues. -/
theorem witness_Admission :
    ∃ (s : State) (e : Entry), s.canonical = true ∧ s.dispHalted = false ∧ s.groupCands (BitVec.toNat (0 : BitVec 3)) =
    [candX] ∧ candX.who = CmdWho.op key0 0 ∧ s.entry key0 = some e ∧ 0 < e.ops.length ∧ e.ops.getD 0 OpState.idle =
    OpState.cand false ∧ ((decide (s.num (rDISP 64) 0 32 ≤ s.cclk - candX.since) && decide (s.occ candX.port < s.depth
    candX.port) && decide ((s.groupQueue (BitVec.toNat (0 : BitVec 3))).length < 64)) = true ∨ s.ordinary (s.groupQueue
    (BitVec.toNat (0 : BitVec 3))).length candX = true) :=
  ⟨admitS, { launch0 with ops := [.cand false] }, by decide +kernel⟩

/-- For GrantsAndReports. -/
theorem witness_GrantPick :
    grantPick [cmdX CmdStage.queued] 5 = some (cmdX CmdStage.queued) :=
  by decide +kernel

/-- For GrantsAndReports. -/
theorem witness_Grants :
    ∃ (s : State), s.canonical = true ∧ s.dispHalted = false ∧ grantPick (s.groupQueue (BitVec.toNat (0 : BitVec 3))) s.cclk
    = some (cmdX CmdStage.queued) :=
  ⟨sentS .queued, by decide +kernel⟩

/-- For GrantsAndReports. -/
theorem witness_CommandTransfer :
    ∃ (s : State), (List.find? (fun c => decide (c.port = BitVec.toNat (0 : BitVec 7)) && decide (c.stage =
    CmdStage.granted)) s.disp.cmds = some (cmdX CmdStage.granted)) ∧ (s.port (BitVec.toNat (0 : BitVec 7))).serves = true :=
  ⟨sentS .granted, by decide +kernel⟩

/-- For GrantsAndReports. -/
theorem witness_CommandHeld :
    ∃ (s : State), (List.find? (fun c => decide (c.port = BitVec.toNat (0 : BitVec 7)) && decide (c.stage =
    CmdStage.granted)) s.disp.cmds = some (cmdX CmdStage.granted)) ∧ (s.port (BitVec.toNat (0 : BitVec 7))).serves = false :=
  ⟨(sentS .granted).setPort 0 Port.reset, by decide +kernel⟩

/-- For GrantsAndReports. -/
theorem witness_ReportAccept :
    ∃ (r : Report) (s : State), s.canonical = true ∧ r.port.toNat / 16 = BitVec.toNat (0 : BitVec 3) ∧ s.portHeard
    r.port.toNat = true ∧ s.pwr.mode = PwrMode.active ∧ s.linkOf (BitVec.toNat (0 : BitVec 3)) = none ∧ (s.fifo
    (BitVec.toNat (0 : BitVec 3))).length < 16 :=
  ⟨⟨0, 0, 0, 0, 0⟩, sentS .sent, by decide +kernel⟩

/-- For GrantsAndReports. -/
theorem witness_ReportFull :
    ∃ (r : Report) (s : State), s.canonical = true ∧ r.port.toNat / 16 = BitVec.toNat (0 : BitVec 3) ∧ s.portHeard
    r.port.toNat = true ∧ s.pwr.mode = PwrMode.active ∧ s.linkOf (BitVec.toNat (0 : BitVec 3)) = none ∧ 16 ≤ (s.fifo
    (BitVec.toNat (0 : BitVec 3))).length :=
  ⟨⟨0, 0, 0, 0, 0⟩,
    { sentS .sent with land := { Landing.reset with fifos := [(0, List.replicate 16 ((⟨0, 0, 0, 0, 0⟩), 0))] } },
    by decide +kernel⟩

/-- For GrantsAndReports. -/
theorem witness_ReportMerge :
    ∃ (r : Report) (s : State), s.canonical = true ∧ 0 < 8 ∧ s.land.fifos = [(0, [(r, 0)])] ∧ s.land.queue.length < 1024 ∧
    s.cmdOf r = some (cmdX CmdStage.sent) ∧ (cmdX CmdStage.sent).who = CmdWho.op key0 0 ∧ s.entry key0 = some ({ launch0 with ops := [.sent] })
    ∧ s.resetting (cmdX CmdStage.sent).part = false ∧ repStatus r = BitVec.ofNat 8 0 :=
  ⟨⟨0, 2 ^ 32 * 7, 0, 2 ^ 32 * 9, 0⟩,
    { sentS .sent with land := { Landing.reset with fifos := [(0, [((⟨0, 2 ^ 32 * 7, 0, 2 ^ 32 * 9, 0⟩), 0)])] } },
    by decide +kernel⟩

/-- For GrantsAndReports. -/
theorem witness_ReportStale :
    ∃ (r : Report) (s : State), s.canonical = true ∧ 0 < 8 ∧ s.land.fifos = [(0, [(r, 0)])] ∧ s.land.queue.length < 1024 ∧
    repGen r ≠ (s.port r.port.toNat).gen :=
  ⟨⟨0, 1, 0, 0, 0⟩, { sentS .sent with land := { Landing.reset with fifos := [(0, [((⟨0, 1, 0, 0, 0⟩), 0)])] } },
    by decide +kernel⟩

/-- For GrantsAndReports. -/
theorem witness_ReportUnknown :
    ∃ (r : Report) (s : State), s.canonical = true ∧ 0 < 8 ∧ s.land.fifos = [(0, [(r, 0)])] ∧ s.land.queue.length < 1024 ∧
    repGen r = (s.port r.port.toNat).gen ∧ s.cmdOf r = none :=
  ⟨⟨0, 16, 0, 0, 0⟩, { sentS .sent with land := { Landing.reset with fifos := [(0, [((⟨0, 16, 0, 0, 0⟩), 0)])] } },
    by decide +kernel⟩

/-- For Scales. -/
theorem witness_ScaleEntries :
    ∃ (s : State), s.canonical = true ∧ s.reaches root pSCAL PageKind.scal 0 = true ∧ BitVec.extractLsb' 4 8 (2032 : BitVec
    12) ≠ BitVec.ofNat 8 0 ∧ BitVec.extractLsb' 4 8 (15 : BitVec 12) = BitVec.ofNat 8 0 ∧ BitVec.toNat (15 : BitVec 6) ≤ 15
    ∧ 15 < BitVec.toNat (16 : BitVec 6) :=
  ⟨up.wr (rSCAL 0x40) 3, by decide +kernel⟩

/-- For Scales. -/
theorem witness_RoundUp :
    1 ≤ 2 :=
  by decide +kernel

/-! ## Landing, Beacon, audit -/

/-- A cached function entry. -/
def fevX (w : Line) : Fev := ⟨0, [w, 0, 0, 0], 0, false⟩

/-- A finished launch. -/
def finE : Entry := { launch0 with stage := .finished, units := [line [(0, 1)]] }

/-- The block with it at Landing. -/
def landS : State :=
  { (withPart up).wr (rAUDT 0x40) 1 with entries := [(0, some finE)], land := { Landing.reset with fev := [fevX (line [(0, 4), (4, 0x20000000)])] } }

/-- A launch in Landing's audit step. -/
def landE : Entry := { launch0 with stage := .landing, lstep := 4 }

/-- The block with it and AUDT.AUDIT_CFG. -/
def audCfg (x : Nat) : State :=
  { (withPart up).wr (rAUDT 0x108) (BitVec.ofNat 32 x) with entries := [(0, some landE)], land := { Landing.reset with hashing := [key0], queue := [key0] }, aud := { Audit.reset with ins := [⟨key0, some 0, some 0, 0⟩] } }

/-- A digest command at a step. -/
def digC (op : BitVec 4) (step : Nat) : DigCmd := ⟨op, 0, step, digBase op 0 1 0, 1, 0, shaInit⟩

/-- For CompletionRecords. -/
theorem witness_RecordWrites :
    ∃ (s : State), s.canonical = true ∧ s.entry key0 = some finE ∧ finE.stage = Stage.finished ∧ finE.etype = EType.launch ∧
    finE.released = true ∧ s.land.queue.length < 1024 ∧ (∀ j ∈ s.land.queue, j.stream ≠ key0.stream) ∧ s.land.hashing = [] ∧
    s.fevValid = true ∧ s.land.fev = [fevX (line [(0, 4), (4, 536870912)])] ∧ ((fevX (line [(0, 4), (4, 536870912)])).func =
    funcOf key0.stream) ∧ (fevX (line [(0, 4), (4, 536870912)])).missing = 0 ∧ s.land.cmd = none ∧ s.land.step2 = [] ∧ (fevX (line [(0, 4), (4, 536870912)])).lines.length = 4 ∧ (fevX (line [(0, 4), (4, 536870912)])).lines.getD 3
    (0 : Line) = 0 ∧ finE.audited s key0 (fevX (line [(0, 4), (4, 536870912)])) = false ∧ key0 ∉ s.aud.logs ∧ s.flag (rAUDT
    (1288 + 16 * finE.part.toNat)) 31 = false ∧ BitVec.getLsbD (Line.w64 ((fevX (line [(0, 4), (4, 536870912)])).lines.getD
    0 (0 : Line)) (16 * (classOf key0.stream).toNat)) 61 = true :=
  ⟨landS, by decide +kernel⟩

/-- For CompletionRecords. -/
theorem witness_RecordAck :
    ∃ (s : State), (afterW s).entry key0 = some landE ∧ s.gets false (0 : BitVec 8) (0 : BitVec 4) (afterW s) (wrote
    (Why.record key0)) ∧ (wrote (Why.record key0)).why = Why.record key0 :=
  ⟨{ writes (withPart up) (.record key0) with entries := [(0, some landE)] }, by unfold State.gets; decide +kernel⟩

/-- For CompletionRecords. -/
theorem witness_FenceAck :
    ∃ (q : MReq) (s : State), (s.answerAtom false (0 : BitVec 8) (0 : BitVec 4)).1.entry key0 = some landE ∧ s.getsAtom
    false (0 : BitVec 8) (0 : BitVec 4) (s.answerAtom false (0 : BitVec 8) (0 : BitVec 4)).1 q ∧ q.why = Why.fence key0 :=
  ⟨⟨some 0, .atomic, 0, .max 5, 64, 8, [], .fence key0⟩,
    { withPart up with entries := [(0, some landE)], mmp := [(⟨some 0, .atomic, 0, .max 5, 64, 8, [], .fence key0⟩)] },
    by unfold State.getsAtom; decide +kernel⟩

/-- For CompletionRecords. -/
theorem witness_AuditFull :
    ∃ (s : State), s.canonical = true ∧ s.land.hashing = [key0] ∧ s.land.queue = [key0] ∧ s.land.cmd = none ∧ s.entry key0 = some landE ∧ (List.find? (fun x => decide
    (x.e = key0)) s.aud.ins = some { e := key0, prog := some (0 : Line), model := some (0 : Line), mid := 0 }) ∧ (some (0 :
    Line)).isSome = true ∧ decide (((BitVec.extractLsb' 12 16 (s.rd (rAUDT (264 + 16 * landE.part.toNat)))).toNat + 1) % 2 ^
    (BitVec.extractLsb' 0 5 (s.rd (rAUDT (264 + 16 * landE.part.toNat)))).toNat = s.num (rAUDT (268 + 16 *
    landE.part.toNat)) 0 16) = true ∧ BitVec.getLsbD (s.rd (rAUDT (264 + 16 * landE.part.toNat))) 30 = true :=
  ⟨audCfg 0x40000000, by decide +kernel⟩

/-- For CompletionRecords. -/
theorem witness_AuditDrops :
    ∃ (s : State), s.canonical = true ∧ s.land.hashing = [key0] ∧ s.land.queue = [key0] ∧ s.land.cmd = none ∧ s.entry key0 = some landE ∧ (List.find? (fun x => decide
    (x.e = key0)) s.aud.ins = some { e := key0, prog := some (0 : Line), model := some (0 : Line), mid := 0 }) ∧ (some (0 :
    Line)).isSome = true ∧ decide (((BitVec.extractLsb' 12 16 (s.rd (rAUDT (264 + 16 * landE.part.toNat)))).toNat + 1) % 2 ^
    (BitVec.extractLsb' 0 5 (s.rd (rAUDT (264 + 16 * landE.part.toNat)))).toNat = s.num (rAUDT (268 + 16 *
    landE.part.toNat)) 0 16) = true ∧ BitVec.getLsbD (s.rd (rAUDT (264 + 16 * landE.part.toNat))) 30 = false :=
  ⟨audCfg 0, by decide +kernel⟩

/-- For CompletionRecords. -/
theorem witness_AuditWrites :
    ∃ (s : State), s.canonical = true ∧ s.land.hashing = [key0] ∧ s.land.queue = [key0] ∧ s.land.cmd = none ∧ s.entry key0 = some landE ∧ (List.find? (fun x => decide
    (x.e = key0)) s.aud.ins = some { e := key0, prog := some (0 : Line), model := some (0 : Line), mid := 0 }) ∧ (some (0 :
    Line)).isSome = true ∧ decide (((BitVec.extractLsb' 12 16 (s.rd (rAUDT (264 + 16 * landE.part.toNat)))).toNat + 1) % 2 ^
    (BitVec.extractLsb' 0 5 (s.rd (rAUDT (264 + 16 * landE.part.toNat)))).toNat = s.num (rAUDT (268 + 16 *
    landE.part.toNat)) 0 16) = false ∧ (BitVec.extractLsb' 12 16 (s.rd (rAUDT (264 + 16 * landE.part.toNat)))).toNat < 2 ^
    (BitVec.extractLsb' 0 5 (s.rd (rAUDT (264 + 16 * landE.part.toNat)))).toNat ∧ 2 ^ (BitVec.extractLsb' 0 5 (s.rd (rAUDT
    (264 + 16 * landE.part.toNat)))).toNat ≤ 65536 :=
  ⟨audCfg 4, by decide +kernel⟩

/-- For CompletionRecords. -/
theorem witness_AuditAck :
    ∃ (s : State), s.canonical = true ∧ s.gets false (0 : BitVec 8) (0 : BitVec 4) (afterW s) (wrote (Why.audit key0)) ∧
    (wrote (Why.audit key0)).why = Why.audit key0 ∧ (afterW s).entry key0 = some landE :=
  ⟨{ writes (withPart up) (.audit key0) with entries := [(0, some landE)] }, by unfold State.gets; decide +kernel⟩

/-- For FunctionEvents. -/
theorem witness_FevRead :
    ∃ (x : Fev) (s : State), s.canonical = true ∧ s.gets true (0 : BitVec 8) (0 : BitVec 4) (afterR s) (asked (Why.fevRead
    (5 : BitVec 12)) 4) ∧ (asked (Why.fevRead (5 : BitVec 12)) 4).why = Why.fevRead (5 : BitVec 12) ∧ (asked (Why.fevRead (5
    : BitVec 12)) 4).len = 256 ∧ [(1 : Line), (2 : Line), (3 : Line), (4 : Line)].length = 4 ∧ (afterR s).land.fev = [x] ∧
    (x.func = 5) ∧ (afterR s).land.queue = [] ∧ (afterR s).land.faults = [] ∧ (afterR s).land.vecs = [] ∧ (afterR
    s).land.hashing = [] ∧ (afterR s).land.cmd = none ∧ (afterR s).land.step2 = [] :=
  ⟨⟨5, [], 4, false⟩, { reads up (.fevRead 5) 4 with land := { Landing.reset with fev := [(⟨5, [], 4, false⟩)] } },
    by unfold State.gets; decide +kernel⟩

/-- For FunctionEvents. -/
theorem witness_MsgTick :
    ∃ (x : Fev) (s : State), s.canonical = true ∧ s.land.fev = [x] ∧ (x.func = 5) ∧ x.missing = 0 ∧
    s.land.queue = [] ∧ s.land.faults = [] ∧ s.land.vecs = [(BitVec.toNat (5 : BitVec 12) * 4 + BitVec.toNat (0 : BitVec 2),
    s.vec (5 : BitVec 12) (0 : BitVec 2))] ∧ (s.vec (5 : BitVec 12) (0 : BitVec 2)).pend ≠ 0 ∧ x.masked (0 : BitVec 2) =
    false ∧ x.badAddr (0 : BitVec 2) = false ∧ 0 < BitVec.toNat s.time ∧ BitVec.toNat (s.vec (5 : BitVec 12) (0 : BitVec
    2)).last + (BitVec.extractLsb' 0 16 (Line.w32
    (x.lines.getD 2 (0 : Line)) (4 * BitVec.toNat (0 : BitVec 2)))).toNat * 64 ≤ BitVec.toNat s.viewTime / 64 * 64 :=
  ⟨⟨5, [0, line [(0, 64)], 0, 0], 0, false⟩,
    { up with time := 640, view := 640 * 65536, land := { Landing.reset with fev := [(⟨5, [0, line [(0, 64)], 0, 0], 0, false⟩)], vecs := [(20, ⟨3, 640, false⟩)] } },
    by decide +kernel⟩

/-- For FunctionEvents. -/
theorem witness_MsgAck :
    ∃ (s : State), s.canonical = true ∧ s.gets false (0 : BitVec 8) (0 : BitVec 4) (afterW s) (wrote (Why.message (5 :
    BitVec 12) 0)) ∧ (wrote (Why.message (5 : BitVec 12) 0)).why = Why.message (5 : BitVec 12) 0 :=
  ⟨writes up (.message 5 0), by unfold State.gets; decide +kernel⟩

/-- For FunctionEvents. -/
theorem witness_FevBusy :
    ∃ (s : State), s.canonical = true ∧ s.reaches root pAUDT PageKind.audt 0 = true ∧ (Instr.refresh root (5 : BitVec 12),
    (1 : BitVec 4), (5 : BitVec 12)) ∈ [(Instr.refresh root (5 : BitVec 12), (1 : BitVec 4), (5 : BitVec 12)),
    (Instr.fevFlush root (5 : BitVec 12), (2 : BitVec 4), (5 : BitVec 12)), (Instr.flushAll root, (3 : BitVec 4), (0 :
    BitVec 12))] ∧ s.flag (rAUDT 72) 27 = true :=
  ⟨up.wr (rAUDT 0x48) 0x8000000, by decide +kernel⟩

/-- For FunctionEvents. -/
theorem witness_FevNoTable :
    ∃ (s : State), s.canonical = true ∧ s.reaches root pAUDT PageKind.audt 0 = true ∧ (Instr.fevFlush root (5 : BitVec 12),
    (2 : BitVec 4), (5 : BitVec 12)) ∈ [(Instr.refresh root (5 : BitVec 12), (1 : BitVec 4), (5 : BitVec 12)),
    (Instr.fevFlush root (5 : BitVec 12), (2 : BitVec 4), (5 : BitVec 12)), (Instr.flushAll root, (3 : BitVec 4), (0 :
    BitVec 12))] ∧ s.flag (rAUDT 72) 27 = false ∧ s.fevValid = false :=
  ⟨up, by decide +kernel⟩

/-- For FunctionEvents. -/
theorem witness_FevRefresh :
    ∃ (s : State), s.canonical = true ∧ s.reaches root pAUDT PageKind.audt 0 = true ∧ (Instr.refresh root (5 : BitVec 12),
    (1 : BitVec 4), (5 : BitVec 12)) ∈ [(Instr.refresh root (5 : BitVec 12), (1 : BitVec 4), (5 : BitVec 12)),
    (Instr.fevFlush root (5 : BitVec 12), (2 : BitVec 4), (5 : BitVec 12)), (Instr.flushAll root, (3 : BitVec 4), (0 :
    BitVec 12))] ∧ s.flag (rAUDT 72) 27 = false ∧ s.fevValid = true ∧ (1 : BitVec 4) = 1 ∧ (s.fev (5 : BitVec 12)).isSome =
    true ∧ s.fevBusy (5 : BitVec 12) = false ∧ ((s.mmp.any fun r => decide (r.why = Why.fevRead (5 : BitVec 12))) =
    false) ∧ (Instr.flushAll root, (3 : BitVec 4), (0 : BitVec 12)) ∈ [(Instr.refresh root (5 : BitVec 12), (1 : BitVec 4),
    (5 : BitVec 12)), (Instr.fevFlush root (5 : BitVec 12), (2 : BitVec 4), (5 : BitVec 12)), (Instr.flushAll root, (3 :
    BitVec 4), (0 : BitVec 12))] ∧ (3 : BitVec 4) ≠ 1 ∧ (s.land.fev =
    [{ func := (5 : BitVec 12), lines := [(0 : Line), (0 : Line), (0 : Line), (0 : Line)], missing := 0, dirty := false }])
        ∧ ((3 : BitVec 4) = 2 → (5 : BitVec 12) = 5) :=
  ⟨{ up.wr (rAUDT 0x40) 1 with land := { Landing.reset with fev := [⟨5, [0, 0, 0, 0], 0, false⟩] } }, by decide +kernel⟩

/-- For FunctionEvents. -/
theorem witness_FevFlushNone :
    ∃ (s : State), s.canonical = true ∧ s.reaches root pAUDT PageKind.audt 0 = true ∧ (Instr.fevFlush root (5 : BitVec 12),
    (2 : BitVec 4), (5 : BitVec 12)) ∈ [(Instr.refresh root (5 : BitVec 12), (1 : BitVec 4), (5 : BitVec 12)),
    (Instr.fevFlush root (5 : BitVec 12), (2 : BitVec 4), (5 : BitVec 12)), (Instr.flushAll root, (3 : BitVec 4), (0 :
    BitVec 12))] ∧ s.flag (rAUDT 72) 27 = false ∧ s.fevValid = true ∧ (2 : BitVec 4) ≠ 1 ∧ s.land.fev = [] ∧ s.mmp = [] :=
  ⟨up.wr (rAUDT 0x40) 1, by decide +kernel⟩

/-- For Beacon. -/
theorem witness_ClaimSpurious :
    ∃ (s : State), s.canonical = true ∧ s.reaches root pBCON PageKind.bcon 0 = true ∧ s.pageEn pBCON = true ∧ (∀ n < 512,
    s.presented (BitVec.toNat (1 : BitVec 3)) n = false) ∧ s.holds (BitVec.toNat (1 : BitVec 3)) ≠ some (BitVec.toNat (511 :
    BitVec 10)) :=
  ⟨up, by decide +kernel⟩

/-- For Beacon. -/
theorem witness_ClaimOff :
    ∃ (s : State), s.canonical = true ∧ s.reaches root pBCON PageKind.bcon 0 = true ∧ s.pageEn pBCON = false :=
  ⟨up.wr (rBCON 0x0C) 0, by decide +kernel⟩

/-- For Beacon. -/
theorem witness_Claim :
    ∃ (s : State), s.canonical = true ∧ s.reaches root pBCON PageKind.bcon 0 = true ∧ 256 < 512 ∧ s.pageEn pBCON = true ∧
    s.presented (BitVec.toNat (0 : BitVec 3)) 256 = true ∧ (∀ m < 256, s.presented (BitVec.toNat (0 : BitVec 3)) m = false) :=
  ⟨(((up.wr (rBCON 0x220) 3)).wr (rBCON 0x2C0) 3).wr (rBCON 0x800) 1, by decide +kernel⟩

/-- For Beacon. -/
theorem witness_Complete :
    ∃ (s : State), s.canonical = true ∧ s.reaches root pBCON PageKind.bcon 0 = true ∧ s.holds (BitVec.toNat (1 : BitVec 3))
    = some (BitVec.toNat (256 : BitVec 10)) ∧ BitVec.toNat (256 : BitVec 10) < 512 ∧ s.num (rBCON (256 + 4 * (BitVec.toNat
    (256 : BitVec 10) / 16))) 0 16 = 0 :=
  ⟨{ up with bcon := { up.bcon with claims := [(1, some 256)] } }, by decide +kernel⟩

/-- For Beacon. -/
theorem witness_CompleteHold :
    ∃ (s : State), s.canonical = true ∧ s.reaches root pBCON PageKind.bcon 0 = true ∧ s.holds (BitVec.toNat (1 : BitVec 3))
    = some (BitVec.toNat (256 : BitVec 10)) ∧ BitVec.toNat (256 : BitVec 10) < 512 ∧ s.num (rBCON (256 + 4 * (BitVec.toNat
    (256 : BitVec 10) / 16))) 0 16 ≠ 0 :=
  ⟨{ up.wr (rBCON 0x140) 3 with bcon := { up.bcon with claims := [(1, some 256)] }, time := 65 }, by decide +kernel⟩

/-- For Beacon. -/
theorem witness_SourceAssert :
    ∃ (s : State), s.canonical = true ∧ s.pwr.mode = PwrMode.active ∧ s.powered 1 = true ∧ srcAssigned (BitVec.toNat (0 :
    BitVec 9)) = true ∧ BitVec.toNat (0 : BitVec 9) < 256 ∧ s.srcCond (BitVec.toNat (0 : BitVec 9)) = false :=
  ⟨up, by decide +kernel⟩

/-- For Beacon. -/
theorem witness_HoldoffExpire :
    ∃ (s : State), s.canonical = true ∧ (Tbl.get (fun x => BitVec.ofNat 64 0) s.bcon.hold (BitVec.toNat (31 : BitVec 5)) ≠
    0) ∧ (Tbl.get (fun x => BitVec.ofNat 64 0) s.bcon.hold (BitVec.toNat (31 : BitVec 5)) ≤ s.time) :=
  ⟨{ up with bcon := { up.bcon with hold := [(31, 64)] }, time := 64 }, by decide +kernel⟩

/-- For Beacon. -/
theorem witness_HoldoffRuns :
    ∃ (s : State), s.canonical = true ∧ (s.time < Tbl.get (fun x => BitVec.ofNat 64 0) s.bcon.hold (BitVec.toNat (31 :
    BitVec 5))) :=
  ⟨{ up with bcon := { up.bcon with hold := [(31, 64)] }, time := 63 }, by decide +kernel⟩

/-- For TideLockRuns. -/
theorem witness_TideFree :
    ∃ (s : State), s.canonical = true ∧ s.reaches root pAUDT PageKind.audt 0 = true ∧ s.flag (rAUDT 512) 27 = false ∧ s.num
    (rAUDT 516) 30 2 = 0 ∧ s.ratioOk = false ∧ s.num (rAUDT 516) 30 2 ≠ 2 :=
  ⟨up, by decide +kernel⟩

/-- For TideLockRuns. -/
theorem witness_TideBusy :
    ∃ (s : State), s.canonical = true ∧ s.reaches root pAUDT PageKind.audt 0 = true ∧ s.flag (rAUDT 512) 27 = true :=
  ⟨up.wr (rAUDT 0x200) 0x8000000, by decide +kernel⟩

/-- For TideLockRuns. -/
theorem witness_TideArm :
    ∃ (s : State), s.canonical = true ∧ s.reaches root pAUDT PageKind.audt 0 = true ∧ s.flag (rAUDT 512) 27 = false ∧ s.num
    (rAUDT 516) 30 2 = 0 ∧ s.ratioOk = true ∧ s.tideLocked ≠ 0 :=
  ⟨((up.wr (pageAddr pCLKR 0x40) 0x3FE).wr (pageAddr pCLKR 0x50) 0x80000000).wr (rAUDT 0x280) 0x80000000,
    by decide +kernel⟩

/-- For TideLockRuns. -/
theorem witness_TideArmNone :
    ∃ (s : State), s.canonical = true ∧ s.reaches root pAUDT PageKind.audt 0 = true ∧ s.flag (rAUDT 512) 27 = false ∧ s.num
    (rAUDT 516) 30 2 = 0 ∧ s.ratioOk = true ∧ s.tideLocked = 0 :=
  ⟨((up.wr (pageAddr pCLKR 0x40) 0x3FE).wr (pageAddr pCLKR 0x50) 0x80000000), by decide +kernel⟩

/-- For TideLockRuns. -/
theorem witness_TideArmed :
    ∃ (s : State), s.canonical = true ∧ s.reaches root pAUDT PageKind.audt 0 = true ∧ s.flag (rAUDT 512) 27 = false ∧ s.num
    (rAUDT 516) 30 2 = 2 ∧ s.num (rAUDT 516) 30 2 ≠ 0 :=
  ⟨up.wr (rAUDT 0x204) 0x80000000, by decide +kernel⟩

/-- For TideLockRuns. -/
theorem witness_TideArmDone :
    ∃ (s : State), s.canonical = true ∧ s.num (rAUDT 516) 30 2 = 1 ∧ s.armIdle = true :=
  ⟨up.wr (rAUDT 0x204) 0x40000000, by decide +kernel⟩

/-- For TideLockRuns. -/
theorem witness_TideStart :
    ∃ (s : State), s.canonical = true ∧ s.aud.going = true ∧ ((List.any s.streams fun x => x.2.pause) = false) :=
  ⟨{ up.wr (rAUDT 0x204) 0x80000000 with aud := { Audit.reset with going := true } }, by decide +kernel⟩

/-- For Digests. -/
theorem witness_DigestBusy :
    ∃ (s : State), s.canonical = true ∧ s.reaches root pAUDT PageKind.audt 0 = true ∧ s.flag (rAUDT 548) 31 = false ∧
    Instr.regProg root (0 : BitVec 6) ∈ [Instr.regProg root (BitVec.setWidth 6 (0 : BitVec 4)), Instr.regModel root
    (BitVec.setWidth 6 (0 : BitVec 4)), Instr.unregProg root (BitVec.setWidth 6 (0 : BitVec 4)), Instr.unregModel root
    (BitVec.setWidth 6 (0 : BitVec 4))] ∧ s.flag (rAUDT 528) 27 = true :=
  ⟨up.wr (rAUDT 0x210) 0x8000000, by decide +kernel⟩

/-- For Digests. -/
theorem witness_DigestNoTable :
    ∃ (s : State), s.canonical = true ∧ s.reaches root pAUDT PageKind.audt 0 = true ∧ s.flag (rAUDT 548) 31 = false ∧
    Instr.unregModel root (0 : BitVec 6) ∈ [Instr.regProg root (BitVec.setWidth 6 (0 : BitVec 4)), Instr.regModel root
    (BitVec.setWidth 6 (0 : BitVec 4)), Instr.unregProg root (BitVec.setWidth 6 (0 : BitVec 4)), Instr.unregModel root
    (BitVec.setWidth 6 (0 : BitVec 4))] ∧ s.flag (rAUDT 528) 27 = false ∧ s.dtabValid (0 : BitVec 4) = false :=
  ⟨up, by decide +kernel⟩

/-- For Digests. -/
theorem witness_Digest :
    ∃ (s : State), s.canonical = true ∧ s.reaches root pAUDT PageKind.audt 0 = true ∧ s.flag (rAUDT 548) 31 = false ∧ s.flag
    (rAUDT 528) 27 = false ∧ s.dtabValid (0 : BitVec 4) = true ∧ 1 ≤ BitVec.toNat (s.rd (rAUDT 540)) ∧ BitVec.toNat (s.rd
    (rAUDT 540)) ≤ 512 ∧ s.rd (rAUDT 540) ≠ 0 ∧ s.rd (rAUDT 544) ≠ 0 :=
  ⟨((up.wr (rAUDT 0x400) 1).wr (rAUDT 0x21C) 512).wr (rAUDT 0x220) 7, by decide +kernel⟩

/-- For Digests. -/
theorem witness_DigestBad :
    ∃ (s : State), s.canonical = true ∧ s.reaches root pAUDT PageKind.audt 0 = true ∧ s.flag (rAUDT 548) 31 = false ∧ s.flag
    (rAUDT 528) 27 = false ∧ s.dtabValid (0 : BitVec 4) = true ∧ (BitVec.toNat (s.rd (rAUDT 540)) = 0 ∨ 512 < BitVec.toNat
    (s.rd (rAUDT 540))) ∧ (s.rd (rAUDT 540) = 0 ∨ s.rd (rAUDT 544) = 0) :=
  ⟨((up.wr (rAUDT 0x400) 1).wr (rAUDT 0x21C) 513), by decide +kernel⟩

/-- For Digests. -/
theorem witness_DigestAck :
    ∃ (s : State), s.canonical = true ∧ s.gets (!true) (0 : BitVec 8) (0 : BitVec 4) (afterW s) (wrote (Why.digCmd 9)) ∧
    (wrote (Why.digCmd 9)).why = Why.digCmd 9 ∧ (afterW s).aud.dig = some (digC (1 : BitVec 4) 2) ∧ (afterW s).flag (rAUDT
    548) 31 = false ∧ true = true :=
  ⟨writes { up with aud := { Audit.reset with dig := some (digC 1 2) } } (.digCmd 9),
    by unfold State.gets; decide +kernel⟩

/-- For Digests. -/
theorem witness_DigestLine :
    ∃ (s : State), s.canonical = true ∧ s.gets (!false) (0 : BitVec 8) (0 : BitVec 4) (afterR s) (asked (Why.digCmd 0) 1) ∧
    (asked (Why.digCmd 0) 1).why = Why.digCmd 0 ∧ (afterR s).aud.dig = some (digC (1 : BitVec 4) 0) ∧ (afterR s).flag (rAUDT
    548) 31 = false   ∧ (asked (Why.digCmd 0) 1).len = 64 ∧ (digC (1 : BitVec 4) 0).step = 0 ∧ (digC (1 :
    BitVec 4) 0).op = 1 ∧ (entryValid (0 : Line) = false ∨ entryAddr (0 : Line) = entryAddr (digC (1 : BitVec 4) 0).entry ∧
    entryLines (0 : Line) = entryLines (digC (1 : BitVec 4) 0).entry) :=
  ⟨reads { up with aud := { Audit.reset with dig := some (digC 1 0) } } (.digCmd 0) 1,
    by unfold State.gets; decide +kernel⟩

/-! ## Shoal, Reef -/

/-- A lookup that has been admitted. -/
def lk : Lookup := ⟨key0, 0, 0, 1, 1, [line [(0, 0x10000), (4, 3)]], true, 0, false, false⟩

/-- A lookup launch. -/
def shoalE : Entry := { Entry.fresh .lookupLaunch 0 0 [0] with stage := .shoal }

/-- A row of a table directory. -/
def row0 : Line := line [(8, 10), (0xC, 64), (0x10, 2 ^ 31)]

/-- The block with a lookup and windows. -/
def shoalS (l : Lookup) (wins : List Win) : State :=
  { ((((((withPort (withPart up)).setStream 0 { StreamE.reset with st := .blocked, head := some 0, inflight := 1 }).wr (rSHOL 0x400) 0x80).wr (rSHOLp 0 0x10) 1).wr (rSHOLp 0 0x14) 1).wr (rSHOLp 0 0x1C) 0x10001) with entries := [(0, some shoalE)], shoal := { Shoal.reset with lookups := [l], dirs := [(0, some [row0])], wins := wins } }

/-- A window of indexes. -/
def winI (idx : List (Nat × Nat)) (asn : List Nat) (st : WinState) : Win :=
  ⟨0, 4, 0, false, st, 0x80FF0400, 5, [⟨key0, idx, asn, 0, 1⟩], 64, 0, 0, [], []⟩

/-- A table directory read. -/
def tblR (n : Nat) : TblRead := ⟨0, true, true, [0, 0], n, false⟩

/-- An event of Harbour's page about partition 3. -/
def evX (sev : Nat) : Event := { ev pHARB 2 sev with part := some 3 }

/-- For LookupWindows. -/
theorem witness_LookupRefused :
    ∃ (l : Lookup) (s : State), s.canonical = true ∧ (s.stream key0.stream).head = some key0.seq ∧ s.entry key0 = some
    shoalE ∧ (List.find? (fun l => decide (l.e = key0)) s.shoal.lookups = some l) ∧ shoalE.stage = Stage.shoal ∧
    shoalE.window = none ∧ l.asked = true ∧ l.missing = 0 ∧ ((s.shoal.reads.any fun r => decide (r.part = shoalE.part) &&
    r.cmd) = false) ∧ s.lkCheck shoalE.part l = some (0x32, none) :=
  ⟨{ lk with lines := [0] }, shoalS ({ lk with lines := [0] }) [], by decide +kernel⟩

/-- For LookupWindows. -/
theorem witness_LookupOpens :
    ∃ (s : State), s.canonical = true ∧ (s.stream key0.stream).head = some key0.seq ∧ s.entry key0 = some shoalE ∧
    (List.find? (fun l => decide (l.e = key0)) s.shoal.lookups = some lk) ∧ shoalE.stage = Stage.shoal ∧ shoalE.window =
    none ∧ lk.asked = true ∧ lk.missing = 0 ∧ ((s.shoal.reads.any fun r => decide (r.part = shoalE.part) && r.cmd) = false)
    ∧ s.lkCheck shoalE.part lk = none ∧ ((s.flag (rSHOLp shoalE.part 4) 31 && !s.flag (rSHOL (2560 + 4 * ((funcOf
    key0.stream).toNat / 32))) ((funcOf key0.stream).toNat % 32)) = true) ∧ s.openWin shoalE.part = none ∧ s.winHeld
    shoalE.part = false ∧ s.freePlan shoalE.part = some 0 ∧ s.windowOutranked shoalE.part key0 = false ∧ (s.win shoalE.part
    (Tbl.get (fun x => 0) s.shoal.nextNum shoalE.part.toNat) = none) ∧ 1 < cfgMaxReq (s.rd (rSHOLp shoalE.part 4)) ∧
    BitVec.getLsbD (s.rd (rSHOLp shoalE.part 4)) 30 = false :=
  ⟨(shoalS lk []).wr (rSHOLp 0 4) 0x80FF0400, by decide +kernel⟩

/-- For LookupWindows. -/
theorem witness_LookupJoins :
    ∃ (w : Win) (s : State), s.canonical = true ∧ (s.stream key0.stream).head = some key0.seq ∧ s.entry key0 = some shoalE ∧
    (List.find? (fun l => decide (l.e = key0)) s.shoal.lookups = some lk) ∧ shoalE.stage = Stage.shoal ∧ shoalE.window =
    none ∧ lk.asked = true ∧ lk.missing = 0 ∧ ((s.shoal.reads.any fun r => decide (r.part = shoalE.part) && r.cmd) = false)
    ∧ s.lkCheck shoalE.part lk = none ∧ ((s.flag (rSHOLp shoalE.part 4) 31 && !s.flag (rSHOL (2560 + 4 * ((funcOf
    key0.stream).toNat / 32))) ((funcOf key0.stream).toNat % 32)) = true) ∧ s.openWin shoalE.part = some w ∧ s.win
    shoalE.part w.num = some w ∧ w.indices + lk.n ≤ cfgMaxIdx w.cfg ∧ w.worst + s.worstOf shoalE.part lk.indices ≤
    s.planBytes shoalE.part ∧ w.members.length + 1 < cfgMaxReq w.cfg ∧ BitVec.getLsbD w.cfg 30 = false :=
  ⟨⟨0, 4, 0, false, .opened, 0x80FF0400, 5, [⟨⟨1, 9⟩, [(0, 1)], [], 0, 0⟩], 64, 0, 0, [], []⟩, shoalS lk [(⟨0, 4, 0,
    false, .opened, 0x80FF0400, 5, [⟨⟨1, 9⟩, [(0, 1)], [], 0, 0⟩], 64, 0, 0, [], []⟩)], by decide +kernel⟩

/-- For LookupWindows. -/
theorem witness_LookupWaits :
    ∃ (w : Win) (s : State), s.canonical = true ∧ (s.stream key0.stream).head = some key0.seq ∧ s.entry key0 = some shoalE ∧
    (List.find? (fun l => decide (l.e = key0)) s.shoal.lookups = some lk) ∧ shoalE.stage = Stage.shoal ∧ shoalE.window =
    none ∧ lk.asked = true ∧ lk.missing = 0 ∧ ((s.shoal.reads.any fun r => decide (r.part = shoalE.part) && r.cmd) = false)
    ∧ s.lkCheck shoalE.part lk = none ∧ ((s.flag (rSHOLp shoalE.part 4) 31 && !s.flag (rSHOL (2560 + 4 * ((funcOf
    key0.stream).toNat / 32))) ((funcOf key0.stream).toNat % 32)) = true) ∧ s.openWin shoalE.part = none ∧ (s.freePlan
    shoalE.part = none ∨ s.winHeld shoalE.part = true ∨ s.windowOutranked shoalE.part key0 = true) :=
  ⟨⟨0, 4, 0, false, .sealing, 0x80FF0400, 5, [⟨⟨1, 9⟩, [(0, 1)], [], 0, 0⟩], 64, 0, 0, [], []⟩, shoalS lk [(⟨0, 4, 0,
    false, .sealing, 0x80FF0400, 5, [⟨⟨1, 9⟩, [(0, 1)], [], 0, 0⟩], 64, 0, 0, [], []⟩)], by decide +kernel⟩

/-- For LookupWindows. -/
theorem witness_IndexList :
    ∃ (l : Lookup) (s : State), s.canonical = true ∧ s.gets true (0 : BitVec 8) (0 : BitVec 4) (afterR s) (asked
    (Why.indexList key0 0) 1) ∧ (asked (Why.indexList key0 0) 1).why = Why.indexList key0 0 ∧ [(5 : Line)].length * 64 =
    (asked (Why.indexList key0 0) 1).len :=
  ⟨{ lk with missing := 2, lines := [0] }, reads (shoalS ({ lk with missing := 2, lines := [0] }) []) (.indexList key0 0)
    1, by unfold State.gets; decide +kernel⟩

/-- For LookupWindows. -/
theorem witness_WindowTimer :
    ∃ (w : Win) (s : State), s.canonical = true ∧ s.openWin (0 : BitVec 4) = some w ∧ s.win (0 : BitVec 4) w.num = some w ∧
    w.tClose ≤ s.view :=
  ⟨⟨0, 4, 0, false, .opened, 0x80FF0400, 5, [⟨⟨1, 9⟩, [(0, 1)], [], 0, 0⟩], 64, 0, 0, [], []⟩,
    { shoalS lk [(⟨0, 4, 0, false, .opened, 0x80FF0400, 5, [⟨⟨1, 9⟩, [(0, 1)], [], 0, 0⟩], 64, 0, 0, [], []⟩)] with view := 5 },
    by decide +kernel⟩

/-- For LookupWindows. -/
theorem witness_WindowTimerEarly :
    ∃ (w : Win) (s : State), s.canonical = true ∧ s.openWin (0 : BitVec 4) = some w ∧ s.win (0 : BitVec 4) w.num = some w ∧
    s.view < w.tClose :=
  ⟨⟨0, 4, 0, false, .opened, 0x80FF0400, 5, [⟨⟨1, 9⟩, [(0, 1)], [], 0, 0⟩], 64, 0, 0, [], []⟩,
    { shoalS lk [(⟨0, 4, 0, false, .opened, 0x80FF0400, 5, [⟨⟨1, 9⟩, [(0, 1)], [], 0, 0⟩], 64, 0, 0, [], []⟩)] with view := 4 },
    by decide +kernel⟩

/-- For LookupWindows. -/
theorem witness_IndexInsert :
    ∃ (w : Win) (s : State), s.canonical = true ∧ s.shoal.intake = [((0 : BitVec 4), 4, key0)] ∧ s.win (0 : BitVec 4) 4 =
    some w ∧ (List.find? (fun m => decide (m.e = key0)) w.members = some
    { e := key0, idx := [(0, 3)], asn := [], pass := 0, acks := 1 })   :=
  ⟨winI [(0, 3)] [] .opened,
    { shoalS lk [(winI [(0, 3)] [] .opened)] with shoal := { (shoalS lk [(winI [(0, 3)] [] .opened)]).shoal with intake := [(0, 4, key0)] } },
    by decide +kernel⟩

/-- For LookupWindows. -/
theorem witness_WindowSeal :
    ∃ (w : Win) (s : State), s.shoal.sealQ = [((0 : BitVec 4), 4)] ∧ s.win (0 : BitVec 4) 4 = some w :=
  ⟨winI [(0, 3)] [] .sealing,
    { shoalS lk [(winI [(0, 3)] [] .sealing)] with shoal := { (shoalS lk [(winI [(0, 3)] [] .sealing)]).shoal with sealQ := [(0, 4)] } },
    by decide +kernel⟩

/-- For LookupWindows. -/
theorem witness_MapWrite :
    ∃ (w : Win) (s : State), (afterW s).canonical = true ∧ s.gets false (0 : BitVec 8) (0 : BitVec 4) (afterW s) (wrote
    (Why.mapWrite key0)) ∧ (wrote (Why.mapWrite key0)).why = Why.mapWrite key0 ∧ (afterW s).entry key0 = some shoalE ∧
    shoalE.stage = Stage.shoal ∧ (afterW s).shoal.wins = [w] ∧ w.members =
    [{ e := key0, idx := [(0, 3)], asn := [0], pass := 0, acks := 1 }] ∧ key0 = key0 ∧ 1 = 1 ∧ w.st = WinState.releasing :=
  ⟨winI [(0, 3)] [0] .releasing, writes (shoalS lk [(winI [(0, 3)] [0] .releasing)]) (.mapWrite key0),
    by unfold State.gets; decide +kernel⟩

/-- For LookupWindows. -/
theorem witness_MapWriteWaits :
    ∃ (w : Win) (s : State), (afterW s).canonical = true ∧ s.gets false (0 : BitVec 8) (0 : BitVec 4) (afterW s) (wrote
    (Why.mapWrite key0)) ∧ (wrote (Why.mapWrite key0)).why = Why.mapWrite key0 ∧ (afterW s).entry key0 = some shoalE ∧
    shoalE.stage = Stage.shoal ∧ (afterW s).shoal.wins = [w] ∧ w.members =
    [{ e := key0, idx := [(0, 3)], asn := [0], pass := 0, acks := 1 }] ∧ key0 = key0 ∧ w.st ≠ WinState.releasing :=
  ⟨winI [(0, 3)] [0] .gathering, writes (shoalS lk [(winI [(0, 3)] [0] .gathering)]) (.mapWrite key0),
    by unfold State.gets; decide +kernel⟩

/-- For TableDirectories. -/
theorem witness_Reload :
    ∃ (s : State), s.canonical = true ∧ s.reaches root pSHOL PageKind.shol 0 = true ∧ s.flag (rSHOL 136) 27 = false ∧
    s.partEn (0 : BitVec 4) = true ∧ s.partEn (1 : BitVec 4) = false :=
  ⟨withPart up, by decide +kernel⟩

/-- For TableDirectories. -/
theorem witness_ReloadBusy :
    ∃ (s : State), s.canonical = true ∧ s.reaches root pSHOL PageKind.shol 0 = true ∧ s.flag (rSHOL 136) 27 = true :=
  ⟨up.wr (rSHOL 0x88) 0x8000000, by decide +kernel⟩

/-- For TableDirectories. -/
theorem witness_ReloadDone :
    ∃ (s : State), s.canonical = true ∧ s.gets true (0 : BitVec 8) (0 : BitVec 4) (afterR s) (asked (Why.tableDir (0 :
    BitVec 4) 0) 1) ∧ (asked (Why.tableDir (0 : BitVec 4) 0) 1).why = Why.tableDir (0 : BitVec 4) 0 ∧ [row0].length * 64 =
    (asked (Why.tableDir (0 : BitVec 4) 0) 1).len ∧ (afterR s).shoal.reads = [tblR 1] ∧ (tblR 1).part = 0 ∧ (tblR 1).started
    = true ∧ (tblR 1).cmd = true ∧ (tblR 1).err = false ∧ (tblR 1).missing = 1 ∧ (setLines (tblR 1).lines 0 [row0]).any
    teBad = false :=
  ⟨{ reads up (.tableDir 0 0) 1 with shoal := { Shoal.reset with reads := [tblR 1] } },
    by unfold State.gets; decide +kernel⟩

/-- For TableDirectories. -/
theorem witness_ReloadBad :
    ∃ (s : State), s.canonical = true ∧ s.gets true (0 : BitVec 8) (0 : BitVec 4) (afterR s) (asked (Why.tableDir (0 :
    BitVec 4) 0) 1) ∧ (asked (Why.tableDir (0 : BitVec 4) 0) 1).why = Why.tableDir (0 : BitVec 4) 0 ∧ [line [(12, 1), (16, 2
    ^ 31)]].length * 64 = (asked (Why.tableDir (0 : BitVec 4) 0) 1).len ∧ (afterR s).shoal.reads = [tblR 1] ∧ (tblR 1).part
    = 0 ∧ (tblR 1).started = true ∧ (tblR 1).cmd = true ∧ (tblR 1).err = false ∧ (tblR 1).missing = 1 ∧ (setLines (tblR
    1).lines 0 [line [(12, 1), (16, 2 ^ 31)]]).any teBad = true :=
  ⟨{ reads up (.tableDir 0 0) 1 with shoal := { Shoal.reset with reads := [tblR 1] } },
    by unfold State.gets; decide +kernel⟩

/-- For TableDirectories. -/
theorem witness_ReloadMore :
    ∃ (s : State), s.canonical = true ∧ s.gets true (0 : BitVec 8) (0 : BitVec 4) (afterR s) (asked (Why.tableDir (0 :
    BitVec 4) 0) 1) ∧ (asked (Why.tableDir (0 : BitVec 4) 0) 1).why = Why.tableDir (0 : BitVec 4) 0 ∧ [row0].length * 64 =
    (asked (Why.tableDir (0 : BitVec 4) 0) 1).len ∧ (afterR s).shoal.reads = [tblR 2] ∧ (tblR 2).part = 0 ∧ (tblR 2).started
    = true ∧ (tblR 2).cmd = true ∧ (tblR 2).err = false ∧ 2 ≤ (tblR 2).missing :=
  ⟨{ reads up (.tableDir 0 0) 1 with shoal := { Shoal.reset with reads := [tblR 2] } },
    by unfold State.gets; decide +kernel⟩

/-- For FaultRecords. -/
theorem witness_ReefNext :
    ∃ (s : State), s.canonical = true ∧ s.reefNext = some (ev pSHOL 48 1) :=
  ⟨{ up with reef := { up.reef with waiting := [evX 1, ev pSHOL 0x30 1] } }, by decide +kernel⟩

/-- For FaultRecords. -/
theorem witness_ReefTake :
    ∃ (s : State), s.canonical = true ∧ s.powered 1 = true ∧ s.reef.waiting = [evX 5] ∧ s.reef.later = [] ∧ (evX 5).sev ≤ 5 :=
  ⟨{ up with reef := { up.reef with waiting := [evX 5] } }, by decide +kernel⟩

/-- For FaultRecords. -/
theorem witness_QuietTimer :
    ∃ (s : State), s.canonical = true ∧ s.inFault = true ∧ s.quietHeld = false ∧ s.reef.quietEnd ≤ s.time :=
  ⟨{ up.wr (rREEF 0x44) 0x80000000 with reef := { up.reef with pageTimers := [(3, 7)], quietEnd := 5 }, time := 5 },
    by decide +kernel⟩

/-- For FaultRecords. -/
theorem witness_PageTimer :
    ∃ (s : State), s.canonical = true ∧ (Tbl.get (fun x => BitVec.ofNat 64 0) s.reef.pageTimers (BitVec.toNat (3 : BitVec
    8)) ≠ 0) ∧ (Tbl.get (fun x => BitVec.ofNat 64 0) s.reef.pageTimers (BitVec.toNat (3 : BitVec 8)) ≠ BitVec.allOnes 64) ∧
    (Tbl.get (fun x => BitVec.ofNat 64 0) s.reef.pageTimers (BitVec.toNat (3 : BitVec 8)) ≤ s.time) :=
  ⟨{ up with reef := { up.reef with pageTimers := [(3, 7)] }, time := 7 }, by decide +kernel⟩

/-- For FaultRecords. -/
theorem witness_Inject :
    ∃ (s : State), s.canonical = true ∧ s.reaches root pREEF PageKind.reef 0 = true ∧ s.flag (rREEF 208) 27 = false ∧
    BitVec.toNat (5 : BitVec 3) ≤ 5 ∧ 5 < BitVec.toNat (6 : BitVec 3) :=
  ⟨up, by decide +kernel⟩

/-- For StoreErrors. -/
theorem witness_Scrub :
    ∃ (s : State), s.canonical = true ∧ s.flag (rREEF 64) 8 = true ∧ s.powered 1 = true ∧ 0 < 4096 ∧ s.mapBad false false 0
    = false ∧ s.mapBad false true 0 = false ∧ s.fpm false 0 &&& fpmUsed (s.fpm false 0) ≠ s.fpm true 0 &&& fpmUsed (s.fpm
    true 0) :=
  ⟨{ withPart up with fpmB := [(0, 0x41)] }, by decide +kernel⟩

/-- For StoreErrors. -/
theorem witness_ScrubOff :
    ∃ (s : State), s.canonical = true ∧ s.flag (rREEF 64) 8 = false ∧ 0 < 4096 ∧ s.mapBad false false 0 = true ∧ s.mapBad
    false true 0 = false ∧ 9 < 4096 ∧ s.mapBad false false 9 = false ∧ s.mapBad false true 9 = false ∧ s.fpm false 9 = s.fpm
    true 9 ∧ s.fpm false 9 &&& ~~~fpmUsed (s.fpm false 9) = 0 :=
  ⟨{ (withPart up).wr (rREEF 0x40) 0 with reef := { up.reef with bad := [(false, false, 0)] } }, by decide +kernel⟩

/-- For StoreErrors. -/
theorem witness_SramOff :
    ∃ (s : State), s.canonical = true ∧ s.siteOn (SramSite.dmem (3 : BitVec 4) (2 : BitVec 3)) = false :=
  ⟨{ up with pwr := { up.pwr with doms := [] } }, by decide +kernel⟩

/-- For StoreErrors. -/
theorem witness_SramErrors :
    ∃ (s : State), s.canonical = true ∧ s.siteOn (SramSite.dmem (3 : BitVec 4) (2 : BitVec 3)) = true ∧ s.siteOn
    (SramSite.scale (16383 : BitVec 14)) = true ∧ s.siteOn (SramSite.fpm true (4095 : BitVec 12)) = true ∧ s.siteOn
    (SramSite.shoal (15 : BitVec 4)) = true :=
  ⟨up, by decide +kernel⟩

/-- For Lighthouse. -/
theorem witness_Heartbeat :
    ∃ (s : State), s.canonical = true ∧ s.reaches root pLHSE PageKind.lhse 0 = true ∧ s.lhse.aliveOn = false ∧ decide (s.num
    (rLHSE 72) 0 20 * 1000 < BitVec.toNat (s.time - s.lhse.beatT)) = false ∧ s.lhse.a = s.lhse.b :=
  ⟨up, by decide +kernel⟩

/-- For Lighthouse. -/
theorem witness_HeartbeatLost :
    ∃ (s : State), s.canonical = true ∧ decide (s.num (rLHSE 72) 0 20 * 1000 < BitVec.toNat (s.time - s.lhse.beatT)) = true
    ∧ s.flag (rLHSE 80) 28 = true ∧ s.flag (rLHSE 80) 27 = false ∧ s.pwr.mode = PwrMode.active ∧ s.lhse.aliveOn = true :=
  ⟨{ up.wr (rLHSE 0x50) 0x10000000 with time := 10000001, lhse := { up.lhse with aliveOn := true } }, by decide +kernel⟩

/-- For Lighthouse. -/
theorem witness_HaltChange :
    ∃ (s : State), s.canonical = true ∧ s.pwr.coldHeld = false ∧ s.runOn = false :=
  ⟨up, by decide +kernel⟩

/-- For Lighthouse. -/
theorem witness_HaltDisc :
    ∃ (s : State), s.canonical = true ∧ s.lhse.a ≠ s.lhse.b ∧ s.lhse.discHeld = false ∧ s.num (rLHSE 76) 0 16 ≤ s.lhse.disc :=
  ⟨{ up with lhse := { up.lhse with a := true, disc := 100 } }, by decide +kernel⟩

/-! ## Resets and dumps -/

/-- A launch that has executed. -/
def liveE : Entry := { launch0 with executed := true }

/-- Port 0 at a state, with DEPTH valid. -/
def portS (st : PortState) : State :=
  (withPort (withPart up)).setPort 0 { Port.reset with st := st } |>.wr (rEPRT 0 0x44) 0x80000008

/-- The same while a run stands in its setup and a launch is on core 0. -/
def lockedS (st : PortState) : State := { (portS st).wr (rAUDT 0x280) 0x40000000 with entries := [(0, some launch0)] }

/-- A partition reset at a step, started by a command. -/
def runP (n : Nat) : ResetRun := ⟨n, .command, false, 0⟩

/-- Partition 0's reset at a step. -/
def inPart (n : Nat) : State := { sentS .sent with rst := { Resets.none with parts := [(0, some (runP n))] }, time := 1000000 }

/-- A block reset at a step. -/
def runB (n : Nat) (c : Cause) : ResetRun := ⟨n, c, false, 0⟩

/-- The block's reset at a step. -/
def inBlock (n : Nat) (c : Cause) : State :=
  { sentS .sent with rst := { Resets.none with block := some (runB n c) }, time := 1000000 }

/-- A dump at a stage, with ports and acknowledgements to come. -/
def dumpD (ps : List DumpPort) (stage acks : Nat) : Dump := ⟨none, .command, 0, 0, [], ps, stage, acks, false, false, 0⟩

/-- The block that writes such a dump. -/
def dumpS (d : Dump) : State := { up with rst := { Resets.none with dump := some d }, time := 10000 }

/-- A dump's write. -/
def wroteD : MReq := ⟨some 0, .dump, 0, .write, 0, 64, [0], .dump 1⟩

/-- For HangsAndPorts. -/
theorem witness_HangNot :
    ∃ (s : State), s.canonical = true ∧ s.oldest (BitVec.toNat (0 : BitVec 7)) = some (cmdX CmdStage.sent) ∧ (s.port
    (BitVec.toNat (0 : BitVec 7))).serves = true ∧ s.resetting (cmdX CmdStage.sent).part = false ∧ BitVec.toNat s.viewTime -
    BitVec.toNat (cmdX CmdStage.sent).sentT ≤ s.waitLimit (cmdX CmdStage.sent) * 1000 ∧ s.oldest (BitVec.toNat (5 : BitVec
    7)) = none ∧ s.oldestLive (1 : BitVec 4) = none :=
  ⟨sentS .sent, by decide +kernel⟩

/-- For HangsAndPorts. -/
theorem witness_Hang :
    ∃ (s : State), s.canonical = true ∧ s.oldest (BitVec.toNat (0 : BitVec 7)) = some (cmdX CmdStage.sent) ∧ (s.port
    (BitVec.toNat (0 : BitVec 7))).serves = true ∧ s.resetting (cmdX CmdStage.sent).part = false ∧ s.waitLimit (cmdX
    CmdStage.sent) * 1000 < BitVec.toNat s.viewTime - BitVec.toNat (cmdX CmdStage.sent).sentT :=
  ⟨{ sentS .sent with view := 65536000001 * 1000 }, by decide +kernel⟩

/-- For HangsAndPorts. -/
theorem witness_HangLimit :
    ∃ (e : Entry) (s : State), s.canonical = true ∧ s.oldest (BitVec.toNat (0 : BitVec 7)) = some (cmdX CmdStage.sent) ∧
    (s.port (BitVec.toNat (0 : BitVec 7))).serves = true ∧ s.resetting (cmdX CmdStage.sent).part = false ∧ (cmdX
    CmdStage.sent).who = CmdWho.op key0 0 ∧ s.entry key0 = some e ∧ e.executed = true :=
  ⟨{ liveE with ops := [.sent], waitUs := 5 },
    { sentS .sent with entries := [(0, some { liveE with ops := [.sent], waitUs := 5 })] }, by decide +kernel⟩

/-- For HangsAndPorts. -/
theorem witness_Stall :
    ∃ (s : State), s.canonical = true ∧ s.oldestLive (0 : BitVec 4) = some (key0, liveE) ∧ s.flag (rCLKR 280) (BitVec.toNat
    (0 : BitVec 4)) = false ∧ (max (Tbl.get (fun x => BitVec.ofNat 64 0) s.progT (BitVec.toNat (0 : BitVec 4))).toNat
    (liveE.tStart / 65536) + s.num (rCLKR 276) 0 20 * 1000 ≤ BitVec.toNat s.time) :=
  ⟨{ sentS .sent with entries := [(0, some liveE)], time := 10000000 }, by decide +kernel⟩

/-- For HangsAndPorts. -/
theorem witness_StallNot :
    ∃ (s : State), s.canonical = true ∧ s.oldestLive (0 : BitVec 4) = some (key0, liveE) ∧ (BitVec.toNat s.time < max
    (Tbl.get (fun x => BitVec.ofNat 64 0) s.progT (BitVec.toNat (0 : BitVec 4))).toNat (liveE.tStart / 65536) + s.num (rCLKR
    276) 0 20 * 1000) :=
  ⟨{ sentS .sent with entries := [(0, some liveE)], time := 9999999 }, by decide +kernel⟩

/-- For HangsAndPorts. -/
theorem witness_PortAdd :
    ∃ (s : State), s.canonical = true ∧ s.reaches root pCLKR PageKind.clkr 0 = true ∧ s.flag (rCLKR 256) 27 = false ∧ s.flag
    (rCLKR 260) 30 = false ∧ BitVec.toNat (0 : BitVec 10) < s.ecpCount ∧ ((s.port (BitVec.toNat (0 : BitVec 10))).st =
    PortState.offline ∨ (s.port (BitVec.toNat (0 : BitVec 10))).st = PortState.ready ∨ (s.port (BitVec.toNat (0 : BitVec
    10))).st = PortState.dead) ∧ s.portOwner (BitVec.toNat (0 : BitVec 10)) = some (0 : BitVec 4) ∧ s.resetting (0 : BitVec
    4) = false ∧ (s.port (BitVec.toNat (0 : BitVec 10))).defer = 0 ∧ (s.portsLocked (0 : BitVec 4) = false ∨ s.partIdle (0 :
    BitVec 4) = true) ∧ (s.port (BitVec.toNat (0 : BitVec 10))).st = PortState.offline ∧ (s.flag (rEPRT (BitVec.toNat (0 :
    BitVec 10)) 68) 31 && s.pageEn (pEPRT (BitVec.toNat (0 : BitVec 10)))) = true ∧ (s.port (BitVec.toNat (0 : BitVec
    10))).st ≠ PortState.inService ∧ (s.port (BitVec.toNat (0 : BitVec 10))).st ≠ PortState.ready :=
  ⟨portS .offline, by decide +kernel⟩

/-- For HangsAndPorts. -/
theorem witness_PortRange :
    ∃ (s : State), s.canonical = true ∧ s.reaches root pCLKR PageKind.clkr 0 = true ∧ s.flag (rCLKR 256) 27 = false ∧ s.flag
    (rCLKR 260) 30 = false ∧ BitVec.toNat (5 : BitVec 10) < s.ecpCount ∧ s.portOwner (BitVec.toNat (5 : BitVec 10))
    = none ∧ (s.port (BitVec.toNat (5 : BitVec 10))).defer = 0 ∧ (s.port (BitVec.toNat (5 : BitVec
    10))).st = PortState.offline :=
  ⟨up, by decide +kernel⟩

/-- For HangsAndPorts. -/
theorem witness_PortRemove :
    ∃ (s : State), s.canonical = true ∧ s.reaches root pCLKR PageKind.clkr 0 = true ∧ s.flag (rCLKR 256) 27 = false ∧ s.flag
    (rCLKR 260) 30 = false ∧ BitVec.toNat (0 : BitVec 10) < s.ecpCount ∧ ((s.port (BitVec.toNat (0 : BitVec 10))).st =
    PortState.inService ∨ (s.port (BitVec.toNat (0 : BitVec 10))).st = PortState.draining ∨ (s.port (BitVec.toNat (0 :
    BitVec 10))).st = PortState.resetting) ∧ s.portOwner (BitVec.toNat (0 : BitVec 10)) = some (0 : BitVec 4) ∧ s.resetting
    (0 : BitVec 4) = false ∧ (s.port (BitVec.toNat (0 : BitVec 10))).defer = 0 ∧ (s.portsLocked (0 : BitVec 4) = false ∨
    s.partIdle (0 : BitVec 4) = true) ∧ (s.port (BitVec.toNat (0 : BitVec 10))).st = PortState.inService ∧ (s.port
    (BitVec.toNat (0 : BitVec 10))).st ≠ PortState.offline :=
  ⟨portS .inService, by decide +kernel⟩

/-- For HangsAndPorts. -/
theorem witness_PortReadmit :
    ∃ (s : State), s.canonical = true ∧ s.reaches root pCLKR PageKind.clkr 0 = true ∧ s.flag (rCLKR 256) 27 = false ∧ s.flag
    (rCLKR 260) 30 = false ∧ BitVec.toNat (0 : BitVec 10) < s.ecpCount ∧ s.portOwner (BitVec.toNat (0 : BitVec 10)) = some
    (0 : BitVec 4) ∧ s.resetting (0 : BitVec 4) = false ∧ (s.port (BitVec.toNat (0 : BitVec 10))).defer = 0 ∧ (s.portsLocked
    (0 : BitVec 4) = false ∨ s.partIdle (0 : BitVec 4) = true) ∧ (s.port (BitVec.toNat (0 : BitVec 10))).st =
    PortState.ready ∧ (s.flag (rEPRT (BitVec.toNat (0 : BitVec 10)) 68) 31 && s.pageEn (pEPRT (BitVec.toNat (0 : BitVec
    10)))) = true :=
  ⟨portS .ready, by decide +kernel⟩

/-- For HangsAndPorts. -/
theorem witness_PortDefers :
    ∃ (s : State), s.canonical = true ∧ s.reaches root pCLKR PageKind.clkr 0 = true ∧ s.flag (rCLKR 256) 27 = false ∧ s.flag
    (rCLKR 260) 30 = false ∧ BitVec.toNat (0 : BitVec 10) < s.ecpCount ∧ s.portOwner (BitVec.toNat (0 : BitVec 10)) = some
    (0 : BitVec 4) ∧ s.resetting (0 : BitVec 4) = false ∧ (s.port (BitVec.toNat (0 : BitVec 10))).defer = 0 ∧ s.portsLocked
    (0 : BitVec 4) = true ∧ s.partIdle (0 : BitVec 4) = false ∧ (s.port (BitVec.toNat (0 : BitVec 10))).st =
    PortState.offline ∧ (s.flag (rEPRT (BitVec.toNat (0 : BitVec 10)) 68) 31 && s.pageEn (pEPRT (BitVec.toNat (0 : BitVec
    10)))) = true :=
  ⟨lockedS .offline, by decide +kernel⟩

/-- For HangsAndPorts. -/
theorem witness_PortDeferred :
    ∃ (s : State), s.canonical = true ∧ s.portOwner (BitVec.toNat (0 : BitVec 7)) = some (0 : BitVec 4) ∧ s.resetting (0 :
    BitVec 4) = false ∧ s.partIdle (0 : BitVec 4) = true ∧ (s.port (BitVec.toNat (0 : BitVec 7))).defer = 2 ∧ (s.port
    (BitVec.toNat (0 : BitVec 7))).st = PortState.inService :=
  ⟨(portS .inService).setPort 0 { Port.reset with st := .inService, defer := 2 }, by decide +kernel⟩

/-- For HangsAndPorts. -/
theorem witness_EngineReset :
    ∃ (s : State), s.canonical = true ∧ s.portHeard (BitVec.toNat (0 : BitVec 7)) = true ∧ (s.port (BitVec.toNat (0 : BitVec
    7))).st = PortState.resetting ∧ (s.port (BitVec.toNat (0 : BitVec 7))).reqT = some (5 : Dword) ∧ decide (s.num (rCLKR
    268) 0 20 * 1000 ≤ BitVec.toNat (s.time - (5 : Dword))) = true :=
  ⟨{ (portS .inService).setPort 0 { Port.reset with st := .resetting, reqT := some 5, back := 2 } with time := 1000005 },
    by decide +kernel⟩

/-- For HangsAndPorts. -/
theorem witness_EngineResetEarly :
    ∃ (s : State), s.canonical = true ∧ (s.port (BitVec.toNat (0 : BitVec 7))).reqT = some (5 : Dword) ∧ (s.port
    (BitVec.toNat (0 : BitVec 7))).st = PortState.resetting ∧ decide (s.num (rCLKR 268) 0 20 * 1000 ≤ BitVec.toNat (s.time -
    (5 : Dword))) = false :=
  ⟨{ (portS .inService).setPort 0 { Port.reset with st := .resetting, reqT := some 5, back := 2 } with time := 1000004 },
    by decide +kernel⟩

/-- For PartitionResets. -/
theorem witness_PartitionStarts :
    ∃ (s : State), s.canonical = true ∧ (List.find? (fun x => decide (x.1 = 0)) s.rst.partWant = some ((0 : BitVec 4),
    Cause.s4)) ∧ s.resetting (0 : BitVec 4) = false ∧ s.canReset = true ∧ (s.partNote (0 : BitVec 4)).escalates = false :=
  ⟨{ sentS .sent with rst := { Resets.none with partWant := [(0, .s4)] } }, by decide +kernel⟩

/-- For PartitionResets. -/
theorem witness_PartitionEscalates :
    ∃ (s : State), s.canonical = true ∧ (List.find? (fun x => decide (x.1 = 0)) s.rst.partWant = some ((0 : BitVec 4),
    Cause.s4)) ∧ s.resetting (0 : BitVec 4) = false ∧ s.canReset = true ∧ (s.partNote (0 : BitVec 4)).escalates = true :=
  ⟨{ (sentS .sent).wr (rREEF 0xC0) 1 with rst := { Resets.none with partWant := [(0, .s4)], starts := [(0, true)] } },
    by decide +kernel⟩

/-- For PartitionResets. -/
theorem witness_PartitionDrained :
    ∃ (s : State), s.canonical = true ∧ s.partRun (0 : BitVec 4) = some (runP 3) ∧ (runP 3).step = 3 ∧ s.drainOver (runP 3)
    (s.portsOf (0 : BitVec 4)) = true ∧ (runP 3).step ≠ 4 ∧ (runP 3).step ≠ 5 :=
  ⟨inPart 3, by decide +kernel⟩

/-- For PartitionResets. -/
theorem witness_PartitionPortsDone :
    ∃ (s : State), s.canonical = true ∧ s.partRun (0 : BitVec 4) = some (runP 4) ∧ (runP 4).step = 4 ∧ (∀ n ∈ s.portsOf (0 :
    BitVec 4), (s.port n).back = 0) ∧ (runP 4).step ≠ 3 :=
  ⟨inPart 4, by decide +kernel⟩

/-- For PartitionResets. -/
theorem witness_PartitionDone :
    ∃ (s : State), s.canonical = true ∧ s.partRun (0 : BitVec 4) = some (runP 5) ∧ (runP 5).step = 5 ∧ s.cleaning (0 :
    BitVec 4) = false ∧ s.ctxCmd (0 : BitVec 4) = none ∧ ((List.all s.ports fun x => decide (x.2.defer = 0)) = true) :=
  ⟨inPart 5, by decide +kernel⟩

/-- For BlockResets. -/
theorem witness_BlockStarts :
    ∃ (s : State), s.canonical = true ∧ s.rst.blockWant = some Cause.s5 ∧ s.rst.block = none ∧ s.canReset = true :=
  ⟨{ sentS .sent with rst := { Resets.none with blockWant := some .s5 } }, by decide +kernel⟩

/-- For BlockResets. -/
theorem witness_BlockNone :
    ∃ (s : State), s.canonical = true ∧ s.rst.blockWant = none ∧ s.rst.block = none ∧ s.reloading = false ∧ s.flag (pageAddr
    pGLBL 112) 0 = false ∧ s.pwr.mode = PwrMode.active ∧ s.flag (rCLKR 260) 30 = false :=
  ⟨up.wr (pageAddr pGLBL 0x70) 0, by decide +kernel⟩

/-- For BlockResets. -/
theorem witness_BlockGrace :
    ∃ (s : State), s.canonical = true ∧ s.rst.block = some (runB 2 Cause.s5) ∧ (runB 2 Cause.s5).step = 2 ∧ (runB 2
    Cause.s5).cause = Cause.s5 ∧ decide (s.num (rCLKR 272) 0 20 * 1000 ≤ BitVec.toNat (s.time - (runB 2 Cause.s5).t)) = true :=
  ⟨inBlock 2 .s5, by decide +kernel⟩

/-- For BlockResets. -/
theorem witness_BlockGraceEarly :
    ∃ (s : State), s.canonical = true ∧ s.rst.block = some (runB 2 Cause.s5) ∧ (runB 2 Cause.s5).step = 2 ∧ (runB 2
    Cause.s5).cause = Cause.s5 ∧ decide (s.num (rCLKR 272) 0 20 * 1000 ≤ BitVec.toNat (s.time - (runB 2 Cause.s5).t)) =
    false :=
  ⟨{ inBlock 2 .s5 with time := 999999 }, by decide +kernel⟩

/-- For BlockResets. -/
theorem witness_BlockDrained :
    ∃ (s : State), s.canonical = true ∧ s.rst.block = some (runB 3 Cause.command) ∧ (runB 3 Cause.command).step = 3 ∧
    s.drainOver (runB 3 Cause.command) (List.range s.ecpCount) = true :=
  ⟨inBlock 3 .command, by decide +kernel⟩

/-- For BlockResets. -/
theorem witness_BlockPortsDone :
    ∃ (s : State), s.canonical = true ∧ s.rst.block = some (runB 4 Cause.command) ∧ (runB 4 Cause.command).step = 4 ∧
    ((List.all s.ports fun x => decide (x.2.back = 0)) = true) :=
  ⟨inBlock 4 .command, by decide +kernel⟩

/-- For BlockResets. -/
theorem witness_BlockSettled :
    ∃ (s : State), s.canonical = true ∧ s.rst.block = some (runB 5 Cause.command) ∧ (runB 5 Cause.command).step = 5 ∧
    ((s.mmp.all fun x => !x.settles) = true) :=
  ⟨inBlock 5 .command, by decide +kernel⟩

/-- For BlockResets. -/
theorem witness_BlockEnds :
    ∃ (s : State), s.canonical = true ∧ s.rst.block = some (runB 7 Cause.command) ∧ (runB 7 Cause.command).step = 7 ∧
    s.reloading = false :=
  ⟨inBlock 7 .command, by decide +kernel⟩

/-- For Dumps. -/
theorem witness_DumpBeat :
    ∃ (d : Dump) (s : State), s.canonical = true ∧ s.rst.dump = some d ∧ d.stage = 0 ∧ 0 = BitVec.toNat (0 : BitVec 7) ∧
    false = false ∧ s.portHeard (BitVec.toNat (0 : BitVec 7)) = true ∧ d.ports =
    [{ port := 0, beats := [], isOver := false, late := false }, { port := 1, beats := [], isOver := false, late := false }]
    ∧ 1 ≠ BitVec.toNat (0 : BitVec 7)   ∧ BitVec.toNat d.t + 10000 ≤ BitVec.toNat s.time :=
  ⟨dumpD [⟨0, [], false, false⟩, ⟨1, [], false, false⟩] 0 0, dumpS (dumpD [⟨0, [], false, false⟩, ⟨1, [], false, false⟩] 0
    0), by decide +kernel⟩

/-- For Dumps. -/
theorem witness_DumpBeatEarly :
    ∃ (d : Dump) (s : State), s.canonical = true ∧ s.rst.dump = some d ∧ d.stage = 0 ∧ 0 = BitVec.toNat (0 : BitVec 7) ∧
    false = false ∧ d.ports = [{ port := 0, beats := [], isOver := false, late := false },
    { port := 1, beats := [], isOver := false, late := false }] ∧ 1 ≠ BitVec.toNat (0 : BitVec 7)   ∧ BitVec.toNat
    s.time < BitVec.toNat d.t + 10000 :=
  ⟨dumpD [⟨0, [], false, false⟩, ⟨1, [], false, false⟩] 0 0,
    { dumpS (dumpD [⟨0, [], false, false⟩, ⟨1, [], false, false⟩] 0 0) with time := 9999 }, by decide +kernel⟩

/-- For Dumps. -/
theorem witness_DumpLast :
    ∃ (d : Dump) (s : State), s.canonical = true ∧ s.rst.dump = some d ∧ d.stage = 0 ∧ 0 = BitVec.toNat (0 : BitVec 7) ∧
    false = false ∧ s.portHeard (BitVec.toNat (0 : BitVec 7)) = true ∧ d.ports =
    [{ port := 0, beats := [], isOver := false, late := false }] :=
  ⟨dumpD [⟨0, [], false, false⟩] 0 0, dumpS (dumpD [⟨0, [], false, false⟩] 0 0), by decide +kernel⟩

/-- For Dumps. -/
theorem witness_DumpDone :
    ∃ (d : Dump) (s : State), s.canonical = true ∧ s.gets false (0 : BitVec 8) (0 : BitVec 4) (afterW s) wroteD ∧ wroteD.why
    = Why.dump 1 ∧ (afterW s).rst.dump = some d ∧ d.acks = 1 ∧ d.stage = 1 :=
  ⟨dumpD [] 1 1, { dumpS (dumpD [] 1 1) with mmp := [wroteD] }, by unfold State.gets; decide +kernel⟩

/-- For Dumps. -/
theorem witness_DumpHeader :
    ∃ (d : Dump) (s : State), s.canonical = true ∧ s.gets false (0 : BitVec 8) (0 : BitVec 4) (afterW s) wroteD ∧ wroteD.why
    = Why.dump 1 ∧ (afterW s).rst.dump = some d ∧ d.acks = 1 ∧ d.stage = 2 :=
  ⟨dumpD [] 2 1, { dumpS (dumpD [] 2 1) with mmp := [wroteD] }, by unfold State.gets; decide +kernel⟩

/-! ## Power, clocks, Keeper, links -/

/-- The block while an entry to DROWSE has not yet flushed. -/
def entering : State := { up with pwr := { up.pwr with mode := .entering, cmd := true, depth := .drowse } }

/-- The block in DROWSE. -/
def down : State :=
  { State.reset with time := 50, pwr := { Power.release with mode := .down, depth := .drowse, wave := 0, doms := [] } }

/-- Twelve measured clocks of one frequency. -/
def twelve (n : Nat) : List (BitVec 12) := List.replicate 12 (BitVec.ofNat 12 n)

/-- A state record with its check value. -/
def crcd (r : Line) : Line := Line.put r 0x38 (crc64 (bytesOf r 56))

/-- A state record with the states of its slots, of MIN_SVN 3. -/
def record (st : Nat) (tries : Nat) : Line := crcd (line [(0, 0x53544154), (8, 6), (0x10, st), (0x14, 3)])

/-- The block with a boot due. -/
def bootS : State := { up with keep := { up.keep with bootDue := true } }

/-- The block with KEEP.BOOT_STAT, a mailbox source, and a current record. -/
def mboxS (stat : Word) (r : Line) : State :=
  { (((up.wr (rKEEP 0x44) stat).wr (rKEEP 0x68) 320).wr (rKEEP 0x60) 0x80000) with keep := { up.keep with record := some r, svn := 9 } }

/-- A mailbox command whose last record write is out. -/
def mdone (op : BitVec 4) (code : BitVec 4) : MboxCmd := ⟨op, 1, 6, [], 0, code, record 0x0304 0⟩

/-- For PowerEntry. -/
theorem witness_IdleDue :
    ∃ (s : State), s.canonical = true ∧ s.pwr.mode = PwrMode.active ∧ (s.flag (rPWRC 72) 0 && s.quiet && decide (s.num
    (rPWRC 76) 0 16 ≤ s.pwr.quietC)) = true :=
  ⟨{ up.wr (rPWRC 0x48) 1 with pwr := { up.pwr with quietC := 300 } }, by decide +kernel⟩

/-- For PowerEntry. -/
theorem witness_IdleNotDue :
    ∃ (s : State), s.canonical = true ∧ (s.pwr.mode ≠ PwrMode.active ∨ (s.flag (rPWRC 72) 0 && s.quiet && decide (s.num
    (rPWRC 76) 0 16 ≤ s.pwr.quietC)) = false) ∧ s.pwr.mode ≠ PwrMode.idle ∧ (s.flag (rPWRC 72) 1 && s.quiet && decide
    (s.pwr.quietC ≠ 0) && decide (s.num (rPWRC 80) 0 20 * 1000 ≤ BitVec.toNat (s.time - s.pwr.quietT))) = false ∧ s.reaches
    root pPWRC PageKind.pwrc 0 = true ∧ s.flag (rPWRC 64) 27 = false ∧ s.quiet = true ∧ s.flag (rCLKR 260) 30 = false ∧
    s.anyStreamOn = false :=
  ⟨up, by decide +kernel⟩

/-- For PowerEntry. -/
theorem witness_IdleLeft :
    ∃ (s : State), s.canonical = true ∧ s.pwr.mode = PwrMode.idle :=
  ⟨{ up with pwr := { up.pwr with mode := .idle } }, by decide +kernel⟩

/-- For PowerEntry. -/
theorem witness_EntryRefused :
    ∃ (s : State), s.canonical = true ∧ s.reaches root pPWRC PageKind.pwrc 0 = true ∧ s.flag (rPWRC 64) 27 = false ∧ s.quiet
    = false ∧ s.flag (rCLKR 260) 30 = false ∧ (s.quiet = false ∨ s.anyStreamOn = true) :=
  ⟨up.wr (rSYNC 0x70) 0x08000000, by decide +kernel⟩

/-- For PowerEntry. -/
theorem witness_EntryOos :
    ∃ (s : State), s.canonical = true ∧ s.reaches root pPWRC PageKind.pwrc 0 = true ∧ s.flag (rPWRC 64) 27 = false ∧ s.flag
    (rCLKR 260) 30 = true :=
  ⟨up.wr (rCLKR 0x104) 0x40000000, by decide +kernel⟩

/-- For PowerEntry. -/
theorem witness_AutoDrowse :
    ∃ (s : State), s.canonical = true ∧ (s.pwr.mode = PwrMode.active ∨ s.pwr.mode = PwrMode.idle) ∧ (s.flag (rPWRC 72) 1 &&
    s.quiet && decide (s.pwr.quietC ≠ 0) && decide (s.num (rPWRC 80) 0 20 * 1000 ≤ BitVec.toNat (s.time - s.pwr.quietT))) =
    true :=
  ⟨{ up.wr (rPWRC 0x48) 2 with time := 10000000, pwr := { up.pwr with quietC := 300 } }, by decide +kernel⟩

/-- For PowerEntry. -/
theorem witness_EntryGoes :
    ∃ (s : State), s.canonical = true ∧ s.pwr.mode = PwrMode.entering ∧ s.pwr.flushed = false ∧ s.quiet = true ∧ s.rdp.held
    = [] :=
  ⟨{ entering with mmp := [⟨none, .fetch, 0, .read, 0, 64, [], .pinReload 0 0 0⟩] }, by decide +kernel⟩

/-- For PowerEntry. -/
theorem witness_EntryFlushed :
    ∃ (s : State), s.canonical = true ∧ s.pwr.mode = PwrMode.entering ∧ s.pwr.flushed = false ∧ s.quiet = true ∧ s.rdp.held
    = [] ∧ s.entryWaits = false :=
  ⟨(entering.wr (rCLKR 0x50) 0x80000000).wr (rAUDT 0x204) 0xC0000001, by decide +kernel⟩

/-- For PowerEntry. -/
theorem witness_EntryWaitsFor :
    ∃ (s : State), s.canonical = true ∧ s.pwr.mode = PwrMode.entering ∧ s.pwr.flushed = false ∧ s.quiet = true ∧ s.rdp.held
    = [] ∧ s.entryWaits = true :=
  ⟨{ entering with mmp := [⟨none, .writeback, 0, .write, 0, 64, [0], .message 0 0⟩] }, by decide +kernel⟩

/-- For PowerEntry. -/
theorem witness_EntryAborted :
    ∃ (s : State), s.canonical = true ∧ s.pwr.mode = PwrMode.entering ∧ s.pwr.flushed = false ∧ s.quiet = false ∧ s.rdp.held
    = [] :=
  ⟨entering.wr (rSYNC 0x70) 0x08000000, by decide +kernel⟩

/-- For PowerUp. -/
theorem witness_AckRise :
    ∃ (s : State) (dom : BitVec 5), s.canonical = true ∧ s.domUsed dom.toNat = true ∧ s.pwr.coldHeld = false ∧ (s.dom
    dom.toNat).ack = false ∧ (s.dom dom.toNat).req = true ∧ s.pwr.fatal = false ∧ s.pwr.mode ≠ PwrMode.waking ∧ s.rdp.held =
    [] :=
  ⟨{ up with time := 100, pwr := { up.pwr with doms := Tbl.set (fun _ => Dom.off) up.pwr.doms 5 ⟨true, true, true, false, 20⟩ } },
    5, by decide +kernel⟩

/-- For PowerUp. -/
theorem witness_AckFall :
    ∃ (s : State) (dom : BitVec 5), s.canonical = true ∧ s.domUsed dom.toNat = true ∧ s.pwr.coldHeld = false ∧ (s.dom
    dom.toNat).ack = true ∧ (s.dom dom.toNat).req = false ∧ s.pwr.mode = PwrMode.entering ∧ s.pwr.flushed = true ∧
    s.rdp.held = [] ∧ ((((if (s.dom dom.toNat).reqT = noReq then s else s.wr (rPWRC 112) (BitVec.ofNat 32 (max (BitVec.toNat
    (s.rd (rPWRC 112))) (min (BitVec.toNat (s.time - (s.dom dom.toNat).reqT)) 4294967295)))).updDom dom.toNat fun x =>
    { req := x.req, iso := x.iso, ret := x.ret, ack := false, reqT := noReq }).domains.any fun d => (((if (s.dom
    dom.toNat).reqT = noReq then s else s.wr (rPWRC 112) (BitVec.ofNat 32 (max (BitVec.toNat (s.rd (rPWRC 112))) (min
    (BitVec.toNat (s.time - (s.dom dom.toNat).reqT)) 4294967295)))).updDom dom.toNat fun x =>
    { req := x.req, iso := x.iso, ret := x.ret, ack := false, reqT := noReq }).dom d).ack) = true) :=
  ⟨{ up with time := 100, pwr := { up.pwr with mode := .entering, flushed := true, doms := [(5, ⟨false, true, true, true, 20⟩), (6, ⟨false, true, true, true, 20⟩)] } },
    5, by decide +kernel⟩

/-- For PowerUp. -/
theorem witness_AckFallLast :
    ∃ (s : State) (dom : BitVec 5), s.canonical = true ∧ s.domUsed dom.toNat = true ∧ s.pwr.coldHeld = false ∧ (s.dom
    dom.toNat).ack = true ∧ (s.dom dom.toNat).req = false ∧ s.pwr.mode = PwrMode.entering ∧ s.pwr.flushed = true ∧
    s.rdp.held = [] ∧ ((((if (s.dom dom.toNat).reqT = noReq then s else s.wr (rPWRC 112) (BitVec.ofNat 32 (max (BitVec.toNat
    (s.rd (rPWRC 112))) (min (BitVec.toNat (s.time - (s.dom dom.toNat).reqT)) 4294967295)))).updDom dom.toNat fun x =>
    { req := x.req, iso := x.iso, ret := x.ret, ack := false, reqT := noReq }).domains.any fun d => (((if (s.dom
    dom.toNat).reqT = noReq then s else s.wr (rPWRC 112) (BitVec.ofNat 32 (max (BitVec.toNat (s.rd (rPWRC 112))) (min
    (BitVec.toNat (s.time - (s.dom dom.toNat).reqT)) 4294967295)))).updDom dom.toNat fun x =>
    { req := x.req, iso := x.iso, ret := x.ret, ack := false, reqT := noReq }).dom d).ack) = false) ∧ s.pwr.want = 0 ∧
    decide (s.num (rPWRC 96) 0 20 * 1000 ≤ BitVec.toNat (s.time - (s.dom dom.toNat).reqT)) = false :=
  ⟨{ up with time := 100, pwr := { up.pwr with mode := .entering, flushed := true, doms := [(5, ⟨false, true, true, true, 20⟩)] } },
    5, by decide +kernel⟩

/-- For PowerUp. -/
theorem witness_AckLost :
    ∃ (s : State) (dom : BitVec 5), s.canonical = true ∧ s.domUsed dom.toNat = true ∧ s.pwr.coldHeld = false ∧ (s.dom
    dom.toNat).ack = true ∧ (s.dom dom.toNat).req = true ∧ s.rdp.held = [] :=
  ⟨up, 31, by decide +kernel⟩

/-- For PowerUp. -/
theorem witness_AckTimesOut :
    ∃ (s : State) (dom : BitVec 5), s.canonical = true ∧ s.domUsed dom.toNat = true ∧ s.pwr.coldHeld = false ∧ decide (s.num
    (rPWRC 96) 0 20 * 1000 ≤ BitVec.toNat (s.time - (s.dom dom.toNat).reqT)) = true ∧ (s.dom dom.toNat).reqT ≠ noReq ∧
    (s.dom dom.toNat).req = true ∧ (s.dom dom.toNat).ack = false :=
  ⟨{ up with time := 1000020, pwr := { up.pwr with doms := Tbl.set (fun _ => Dom.off) up.pwr.doms 5 ⟨true, true, true, false, 20⟩ } },
    5, by decide +kernel⟩

/-- For PowerUp. -/
theorem witness_AckFallTimesOut :
    ∃ (s : State) (dom : BitVec 5), s.canonical = true ∧ s.domUsed dom.toNat = true ∧ s.pwr.coldHeld = false ∧ decide (s.num
    (rPWRC 96) 0 20 * 1000 ≤ BitVec.toNat (s.time - (s.dom dom.toNat).reqT)) = true ∧ (s.dom dom.toNat).reqT ≠ noReq ∧
    (s.dom dom.toNat).req = false ∧ (s.dom dom.toNat).ack = true :=
  ⟨{ up with time := 1000020, pwr := { up.pwr with mode := .entering, depth := .drowse, flushed := true, doms := Tbl.set (fun _ => Dom.off) up.pwr.doms 5 ⟨false, true, true, true, 20⟩ } },
    5, by decide +kernel⟩

/-- For PowerUp. -/
theorem witness_Wakes :
    ∃ (s : State), s.canonical = true ∧ s.pwr.mode = PwrMode.down ∧ (1 : BitVec 4) ∈ [(1 : BitVec 4), (2 : BitVec 4), (3 :
    BitVec 4)] ∧ s.wakeOk (BitVec.toNat (1 : BitVec 4)) = true ∧ (2 : BitVec 4) ∈ [(1 : BitVec 4), (2 : BitVec 4), (3 :
    BitVec 4)] ∧ s.wakeOk (BitVec.toNat (2 : BitVec 4)) = true ∧ s.flag (rPWRC 84) 2 = true ∧ s.rd64 (rPWRC 88) ≤ s.time :=
  ⟨(down.wr (rPWRC 0x54) 0x05).wr (rPWRC 0x58) 50, by decide +kernel⟩

/-- For PowerUp. -/
theorem witness_WakesNot :
    ∃ (s : State), s.canonical = true ∧ s.pwr.mode = PwrMode.down ∧ s.flag (rPWRC 84) 0 = false ∧ (s.flag (rPWRC 84) 2 =
    false ∨ s.time < s.rd64 (rPWRC 88)) :=
  ⟨down.wr (rPWRC 0x58) 50, by decide +kernel⟩

/-- For PowerUp. -/
theorem witness_WakeEnds :
    ∃ (s : State), s.canonical = true ∧ s.pwr.mode = PwrMode.waking ∧ s.pwr.wave = 4 ∧ s.resyncing = false ∧ s.rdp.held = [] :=
  ⟨{ up with time := 77, pwr := { up.pwr with mode := .waking, wave := 4 } }, by decide +kernel⟩

/-- For PowerUp. -/
theorem witness_WakeWaits :
    ∃ (s : State), s.canonical = true ∧ s.pwr.mode = PwrMode.waking ∧ s.resyncing = true :=
  ⟨{ up with mmp := [⟨none, .fetch, 0, .read, 0, 64, [], .pinReload 0 0 0⟩], pwr := { up.pwr with mode := .waking, wave := 4 } },
    by decide +kernel⟩

/-- For PowerUp. -/
theorem witness_ColdReset :
    ∃ (s : State), s.canonical = true ∧ s.pwr.coldHeld = false :=
  ⟨up, by decide +kernel⟩

/-- For PowerUp. -/
theorem witness_ColdRelease :
    ∃ (s : State), s.canonical = true ∧ s.pwr.coldHeld = true :=
  ⟨{ up with pwr := { up.pwr with coldHeld := true, doms := [] } }, by decide +kernel⟩

/-- For ClocksAndTime. -/
theorem witness_Measures :
    ∃ (s : State), s.canonical = true ∧ s.pwr.coldHeld = false ∧ (twelve 0).length = 12 ∧ (twelve 1000).length = 12 ∧
    (twelve 4095).length = 12 :=
  ⟨up, by decide +kernel⟩

/-- For ClocksAndTime. -/
theorem witness_AlignAsked :
    ∃ (s : State), s.canonical = true ∧ s.pwr.coldHeld = false ∧ s.flag (rCLKR 80) 29 ≠ true ∧ s.alignAble = true ∧ s.runOn
    = false ∧ s.flag (rCLKR 80) 29 = false ∧ s.alignState ≠ 1 :=
  ⟨up, by decide +kernel⟩

/-- For ClocksAndTime. -/
theorem witness_AlignDropped :
    ∃ (s : State), s.canonical = true ∧ s.pwr.coldHeld = false ∧ s.flag (rCLKR 80) 29 ≠ false ∧ s.alignAble = true ∧ s.runOn
    = false :=
  ⟨up.wr (rCLKR 0x50) 0x60000000, by decide +kernel⟩

/-- For ClocksAndTime. -/
theorem witness_AlignChecks :
    ∃ (s : State), s.canonical = true ∧ s.pwr.coldHeld = false ∧ s.alignState = 1 ∧ (5 : BitVec 12) ≠ 0 :=
  ⟨up.wr (rCLKR 0x50) 0x60000000, by decide +kernel⟩

/-- For ClocksAndTime. -/
theorem witness_AlignLoses :
    ∃ (s : State), s.canonical = true ∧ s.pwr.coldHeld = false ∧ s.alignState = 2 ∧ s.flag (rCLKR 80) 29 = true ∧ (5 :
    BitVec 12) ≠ 0 ∧ s.runOn = false :=
  ⟨up.wr (rCLKR 0x50) 0xA0000000, by decide +kernel⟩

/-- For ClocksAndTime. -/
theorem witness_TimeTicks :
    ∃ (s : State), s.canonical = true ∧ s.pwr.coldHeld = false ∧ s.tsync.set = none :=
  ⟨{ up with time := 50, tsync := ⟨-3, 7, none, 0⟩ }, by decide +kernel⟩

/-- For ClocksAndTime. -/
theorem witness_TimeTicksBack :
    ∃ (s : State), s.canonical = true ∧ s.pwr.coldHeld = false ∧ s.tsync.set = none :=
  ⟨{ up with time := 50, view := 10000000000, tsync := ⟨3, 0 - 40, none, 0⟩ }, by decide +kernel⟩

/-- For ClocksAndTime. -/
theorem witness_TimeSetTick :
    ∃ (s : State), s.canonical = true ∧ s.pwr.coldHeld = false ∧ s.tsync.set = some (59 : Dword) :=
  ⟨{ up with time := 50, tsync := ⟨-3, 0, some 59, 0⟩ }, by decide +kernel⟩

/-- For ClocksAndTime. -/
theorem witness_TimeSetBehind :
    ∃ (s : State), s.canonical = true ∧ s.pwr.coldHeld = false ∧ s.tsync.set = some (58 : Dword) :=
  ⟨{ up with time := 50, tsync := ⟨-3, 0, some 58, 0⟩ }, by decide +kernel⟩

/-- For ClocksAndTime. -/
theorem witness_TimeSet :
    ∃ (s : State), s.canonical = true ∧ s.pwr.coldHeld = false ∧ s.reaches root pTIME PageKind.time 0 = true ∧ s.flag (rTIME
    88) 31 = false :=
  ⟨up, by decide +kernel⟩

/-- For ClocksAndTime. -/
theorem witness_PulseSlews :
    ∃ (s : State), s.canonical = true ∧ s.pwr.coldHeld = false ∧ s.flag (rTIME 88) 31 = true ∧ s.tsync.set = none :=
  ⟨{ ((up.wr (rTIME 0x50) 1000).wr (rTIME 0x58) 0xC00003E8).wr (rTIME 0x5C) 77 with time := 25 }, by decide +kernel⟩

/-- For ClocksAndTime. -/
theorem witness_PulseSteps :
    ∃ (s : State), s.canonical = true ∧ s.pwr.coldHeld = false ∧ s.flag (rTIME 88) 31 = true ∧ s.tsync.set = none :=
  ⟨{ ((up.wr (rTIME 0x50) 1001).wr (rTIME 0x58) 0x800003E8).wr (rTIME 0x64) 0x20000000 with time := 25 },
    by decide +kernel⟩

/-- For ClocksAndTime. -/
theorem witness_PulseBack :
    ∃ (s : State), s.canonical = true ∧ s.pwr.coldHeld = false ∧ s.flag (rTIME 88) 31 = true ∧ s.tsync.set = none :=
  ⟨{ ((up.wr (rTIME 0x50) 1001).wr (rTIME 0x58) 0x800003E8) with time := 2500000 }, by decide +kernel⟩

/-- For ClocksAndTime. -/
theorem witness_SyncGone :
    ∃ (s : State), s.canonical = true ∧ s.pwr.coldHeld = false ∧ s.flag (rTIME 88) 31 = true ∧ s.flag (rTIME 100) 29 = false
    ∧ decide (2 * BitVec.toNat (s.rd (rTIME 92)) < BitVec.toNat (s.time - s.tsync.pulseT)) = true :=
  ⟨{ ((up.wr (rTIME 0x58) 0x800003E8).wr (rTIME 0x5C) 10) with time := 21 }, by decide +kernel⟩

/-- For ClocksAndTime. -/
theorem witness_SyncStays :
    ∃ (s : State), s.canonical = true ∧ s.pwr.coldHeld = false ∧ s.flag (rTIME 88) 31 = true ∧ s.flag (rTIME 100) 29 = false
    ∧ decide (2 * BitVec.toNat (s.rd (rTIME 92)) < BitVec.toNat (s.time - s.tsync.pulseT)) = false :=
  ⟨{ ((up.wr (rTIME 0x58) 0x800003E8).wr (rTIME 0x5C) 10) with time := 20 }, by decide +kernel⟩

/-- For KeeperBoots. -/
theorem witness_BootNotDue :
    ∃ (s : State) (x : KeeperStore), s.canonical = true ∧ s.keep.bootDue = false :=
  ⟨up, ⟨0, 0, [], []⟩, by decide +kernel⟩

/-- For KeeperBoots. -/
theorem witness_BootRecovery :
    ∃ (s : State) (x : KeeperStore), s.canonical = true ∧ s.keep.bootDue = true ∧ s.powered 20 = true ∧ currentRec x.rec0
    x.rec1 = none :=
  ⟨bootS, ⟨0, 0, [], []⟩, by decide +kernel⟩

/-- For KeeperBoots. -/
theorem witness_BootConfirmed :
    ∃ (s : State) (x : KeeperStore) (r : Line), s.canonical = true ∧ s.keep.bootDue = true ∧ s.powered 20 = true ∧
    currentRec x.rec0 x.rec1 = some r ∧ slotIn r 3 = none ∧ slotIn r 2 = none ∧ slotIn r 4 = some (0 : BitVec 1) ∧ s.flag
    (rLHSE 80) 28 = false :=
  ⟨bootS, ⟨record 0x0004 0, 0, [], []⟩, record 0x0004 0, by decide +kernel⟩

/-- For KeeperBoots. -/
theorem witness_Restart :
    ∃ (s : State), s.canonical = true ∧ s.reaches root pKEEP PageKind.keep 0 = true :=
  ⟨(up.wr (pageAddr pKEEP 0x44) 0x10000000).wr (pageAddr pKEEP 0x1C) 0x00020005, by decide +kernel⟩

/-- For KeeperBoots. -/
theorem witness_TrialOver :
    ∃ (s : State), s.canonical = true ∧ s.flag (rKEEP 68) 30 = true ∧ s.powered 20 = true ∧ s.keep.bootDue = false ∧ (s.flag
    (rLHSE 80) 27 || decide (s.num (rKEEP 84) 0 16 * 1000000 ≤ BitVec.toNat (s.time - s.keep.jumpT))) = true :=
  ⟨{ up.wr (rKEEP 0x44) 0x50000000 with time := 2000000000 }, by decide +kernel⟩

/-- For KeeperBoots. -/
theorem witness_TrialGoesOn :
    ∃ (s : State), s.canonical = true ∧ s.flag (rKEEP 68) 30 = true ∧ s.powered 20 = true ∧ s.keep.bootDue = false ∧ (s.flag
    (rLHSE 80) 27 || decide (s.num (rKEEP 84) 0 16 * 1000000 ≤ BitVec.toNat (s.time - s.keep.jumpT))) = false :=
  ⟨{ up.wr (rKEEP 0x44) 0x50000000 with time := 1999999999 }, by decide +kernel⟩

/-- For Mailbox. -/
theorem witness_MailboxBusy :
    ∃ (s : State), s.canonical = true ∧ s.reaches root pKEEP PageKind.keep 0 = true ∧ (Instr.load root (1 : BitVec 1), (1 :
    BitVec 4)) ∈ [(Instr.load root (1 : BitVec 1), (1 : BitVec 4)), (Instr.activate root (1 : BitVec 1), (2 : BitVec 4)),
    (Instr.confirm root (1 : BitVec 1), (3 : BitVec 4)), (Instr.erase root (1 : BitVec 1), (4 : BitVec 4))] ∧ s.flag (rKEEP
    92) 27 = true ∧ (Instr.erase root (1 : BitVec 1), (4 : BitVec 4)) ∈ [(Instr.load root (1 : BitVec 1), (1 : BitVec 4)),
    (Instr.activate root (1 : BitVec 1), (2 : BitVec 4)), (Instr.confirm root (1 : BitVec 1), (3 : BitVec 4)), (Instr.erase
    root (1 : BitVec 1), (4 : BitVec 4))] :=
  ⟨up.wr (rKEEP 0x5C) 0x08000000, by decide +kernel⟩

/-- For Mailbox. -/
theorem witness_MailboxWaits :
    ∃ (s : State), s.canonical = true ∧ s.reaches root pKEEP PageKind.keep 0 = true ∧ (Instr.activate root (1 : BitVec 1),
    (2 : BitVec 4)) ∈ [(Instr.load root (1 : BitVec 1), (1 : BitVec 4)), (Instr.activate root (1 : BitVec 1), (2 : BitVec
    4)), (Instr.confirm root (1 : BitVec 1), (3 : BitVec 4)), (Instr.erase root (1 : BitVec 1), (4 : BitVec 4))] ∧ s.flag
    (rKEEP 92) 27 = false ∧ s.flag (rKEEP 68) 28 = false ∧ s.flag (rKEEP 68) 31 = false :=
  ⟨up, by decide +kernel⟩

/-- For Mailbox. -/
theorem witness_MailboxIdleSlot :
    ∃ (r : Line) (s : State), s.canonical = true ∧ s.reaches root pKEEP PageKind.keep 0 = true ∧ s.flag (rKEEP 92) 27 =
    false ∧ s.flag (rKEEP 68) 28 = true ∧ s.keep.record = some r ∧ s.booted ≠ some (1 : BitVec 1) ∧ recState r (1 : BitVec
    1) ≠ 3 ∧ recState r (1 : BitVec 1) ≠ 4 ∧ ((decide (s.num (rKEEP 104) 0 18 < 320 ∨ 196864 < s.num (rKEEP 104) 0 18 ∨
    s.num (rKEEP 104) 0 18 % 64 ≠ 0) || !s.isLocal (s.addrPair (rKEEP 96) 6) || !s.isLocal (s.addrPair (rKEEP 96) 6 +
    BitVec.ofNat 57 (s.num (rKEEP 104) 0 18 - 1))) = false) ∧ (recState r (1 : BitVec 1) ≠ 2 ∨ (slotIn r 3).isSome = true) ∧
    s.booted = some (0 : BitVec 1) ∧ (recState r (0 : BitVec 1) ≠ 3 ∨ s.flag (rKEEP 68) 30 = false) :=
  ⟨record 0x0004 0, mboxS 0x10000000 (record 0x0004 0), by decide +kernel⟩

/-- For Mailbox. -/
theorem witness_MailboxBadSource :
    ∃ (r : Line) (s : State), s.canonical = true ∧ s.reaches root pKEEP PageKind.keep 0 = true ∧ s.flag (rKEEP 92) 27 =
    false ∧ s.flag (rKEEP 68) 28 = true ∧ s.keep.record = some r ∧ s.booted ≠ some (1 : BitVec 1) ∧ recState r (1 : BitVec
    1) ≠ 3 ∧ recState r (1 : BitVec 1) ≠ 4 ∧ ((decide (s.num (rKEEP 104) 0 18 < 320 ∨ 196864 < s.num (rKEEP 104) 0 18 ∨
    s.num (rKEEP 104) 0 18 % 64 ≠ 0) || !s.isLocal (s.addrPair (rKEEP 96) 6) || !s.isLocal (s.addrPair (rKEEP 96) 6 +
    BitVec.ofNat 57 (s.num (rKEEP 104) 0 18 - 1))) = true) :=
  ⟨record 0x0004 0, (mboxS 0x10000000 (record 0x0004 0)).wr (rKEEP 0x68) 300, by decide +kernel⟩

/-- For Mailbox. -/
theorem witness_MailboxBootedSlot :
    ∃ (r : Line) (s : State), s.canonical = true ∧ s.reaches root pKEEP PageKind.keep 0 = true ∧ s.flag (rKEEP 92) 27 =
    false ∧ s.flag (rKEEP 68) 28 = true ∧ s.keep.record = some r ∧ (s.booted = some (0 : BitVec 1) ∨ recState r (0 : BitVec
    1) = 3 ∨ recState r (0 : BitVec 1) = 4) ∧ (s.booted = some (0 : BitVec 1) ∨ recState r (0 : BitVec 1) = 4) :=
  ⟨record 0x0004 0, mboxS 0x10000000 (record 0x0004 0), by decide +kernel⟩

/-- For Mailbox. -/
theorem witness_MailboxActivates :
    ∃ (r : Line) (s : State), s.canonical = true ∧ s.reaches root pKEEP PageKind.keep 0 = true ∧ s.flag (rKEEP 92) 27 =
    false ∧ s.flag (rKEEP 68) 28 = true ∧ s.keep.record = some r ∧ recState r (1 : BitVec 1) = 2 ∧ slotIn r 3 = none :=
  ⟨record 0x0204 0, mboxS 0x10000000 (record 0x0204 0), by decide +kernel⟩

/-- For Mailbox. -/
theorem witness_MailboxConfirms :
    ∃ (r : Line) (s : State), s.canonical = true ∧ s.reaches root pKEEP PageKind.keep 0 = true ∧ s.flag (rKEEP 92) 27 =
    false ∧ s.flag (rKEEP 68) 28 = true ∧ s.keep.record = some r ∧ s.booted = some (0 : BitVec 1) ∧ recState r (0 : BitVec
    1) = 3 ∧ s.flag (rKEEP 68) 30 = true ∧ slotIn r 4 = none :=
  ⟨record 0x0003 0, mboxS 0x50000000 (record 0x0003 0), by decide +kernel⟩

/-- For Mailbox. -/
theorem witness_MailboxConfirmsOther :
    ∃ (r : Line) (s : State), s.canonical = true ∧ s.reaches root pKEEP PageKind.keep 0 = true ∧ s.flag (rKEEP 92) 27 =
    false ∧ s.flag (rKEEP 68) 28 = true ∧ s.keep.record = some r ∧ s.booted = some (0 : BitVec 1) ∧ recState r (0 : BitVec
    1) = 3 ∧ s.flag (rKEEP 68) 30 = true ∧ slotIn r 4 = some (1 : BitVec 1) :=
  ⟨record 0x0403 0, mboxS 0x50000000 (record 0x0403 0), by decide +kernel⟩

/-- For Mailbox. -/
theorem witness_MailboxWrites :
    ∃ (s : State) (c : MboxCmd), s.canonical = true :=
  ⟨up, ⟨1, 0, 0, [], 0, 0, 0⟩, by decide +kernel⟩

/-- For Mailbox. -/
theorem witness_MailboxEnds :
    ∃ (c : MboxCmd) (u : State) (s : State), s.canonical = true ∧ u.canonical = true ∧ s.gets false (0 : BitVec 8) (0 :
    BitVec 4) u (wrote (Why.mbox 0)) ∧ (wrote (Why.mbox 0)).why = Why.mbox 0 ∧ u.keep.cmd = some c ∧ c.step = 6 ∧ u.flag
    (rKEEP 108) 31 = false :=
  ⟨mdone 2 0, afterW (writes { (up.wr (rKEEP 0x5C) 0x08000000) with keep := { up.keep with cmd := some (mdone 2 0) } }
    (.mbox 0)), writes { (up.wr (rKEEP 0x5C) 0x08000000) with keep := { up.keep with cmd := some (mdone 2 0) } } (.mbox
    0), by unfold State.gets; decide +kernel⟩

/-- For LinksAndTrace. -/
theorem witness_LinkFalls :
    ∃ (s : State), s.canonical = true ∧ s.linkOn (BitVec.toNat (0 : BitVec 2)) = true ∧ s.powered 28 = true ∧ s.linkOn
    (BitVec.toNat (1 : BitVec 2)) = false ∧ (s.linkOn (BitVec.toNat (0 : BitVec 2)) = true ∨ ∀ n < s.ecpCount, s.linkOf (n /
    16) ≠ some (BitVec.toNat (0 : BitVec 2))) :=
  ⟨{ (withPort (withPart up)) with cwMap := 1, cw := ⟨[(0, true)], [], []⟩ }, by decide +kernel⟩

/-- For LinksAndTrace. -/
theorem witness_LinkFallsOff :
    ∃ (s : State), s.canonical = true ∧ s.linkOn (BitVec.toNat (0 : BitVec 2)) = true ∧ s.powered 28 = false :=
  ⟨{ State.reset with cwMap := 1, cw := ⟨[(0, true)], [], []⟩ }, by decide +kernel⟩

/-- For LinksAndTrace. -/
theorem witness_LinkRises :
    ∃ (s : State), s.canonical = true ∧ s.linkOn (BitVec.toNat (0 : BitVec 2)) = false ∧ (0 < s.ecpCount ∧ s.linkOf (0 / 16
    : Nat) = some (BitVec.toNat (0 : BitVec 2))) ∧ s.trace.fifo = [] :=
  ⟨{ up.setPort 3 { Port.reset with st := .resetting } with time := 66, cwMap := 1, cw := ⟨[], [(0, 4), (1, 5)], []⟩ },
    by decide +kernel⟩

/-- For LinksAndTrace. -/
theorem witness_TraceOut :
    ∃ (s : State), s.canonical = true ∧ s.trace.fifo = [(5 : Dword), (6 : Dword)] ∧ s.powered 31 = true :=
  ⟨{ up with trace := { up.trace with fifo := [5, 6] } }, by decide +kernel⟩

/-! ## The whole block -/

/-- A thread that waits. -/
def waitS : State := core0 [block 64 0 0] [] (fun th => { th with st := .waiting })

/-- For StepRunsFront. -/
theorem witness_FrontStep :
    ∃ (s : State), s.pending = [Instr.deviceTimeTick, Instr.idleExit] :=
  ⟨{ State.reset with pending := [.deviceTimeTick, .idleExit] }, by decide +kernel⟩

/-- For EmptyQueueTick. -/
theorem witness_EmptyQueueStops :
    ∃ (s : State), s.canonical = true ∧ s.pending = [] ∧ s.clocked = false :=
  ⟨{ up with pwr := { up.pwr with mode := .down } }, by decide +kernel⟩

/-- For EmptyQueueTick. -/
theorem witness_EmptyQueueRuns :
    ∃ (s : State), s.canonical = true ∧ s.pending = [] ∧ s.clocked = true :=
  ⟨core0 [block 64 0 0] [] id, by decide +kernel⟩

/-- For EmptyQueueTick. -/
theorem witness_EmptyQueueWaits :
    ∃ (s : State), s.canonical = true ∧ s.pending = [] ∧ s.clocked = true :=
  ⟨waitS, by decide +kernel⟩

/-- For LateAnswers. -/
theorem witness_LateAnswer :
    ∃ (s : State), s.powered 2 = true ∧ s.pwr.mode ≠ PwrMode.idle ∧ takeReq s.mmp true (5 : BitVec 8) (3 : BitVec 4) = none
    ∧ takeReq s.mmp false (5 : BitVec 8) (3 : BitVec 4) = none ∧ (3 : BitVec 4) ≠ s.mmpGen ∧ Instr.indexListReturn (5 :
    BitVec 8) (3 : BitVec 4) false [] ∈ [Instr.indexListReturn (5 : BitVec 8) (3 : BitVec 4) false [], Instr.reloadDone (5 :
    BitVec 8) (3 : BitVec 4) false [], Instr.fevReadReturn (5 : BitVec 8) (3 : BitVec 4) false [],
    Instr.harbourRecordArrives (5 : BitVec 8) (3 : BitVec 4) false [], Instr.handleEntryReturn (5 : BitVec 8) (3 : BitVec 4)
    false []] :=
  ⟨up, by decide +kernel⟩

/-! ## Hypotheses that a step or a stop answers -/

/-- The next state, where there is one. -/
def nextOf (o : Host.Outcome State Fault Refusal) : State := match o with | .next t => t | _ => State.reset

/-- An outcome that is a next state is that state. -/
theorem eq_nextOf {o : Host.Outcome State Fault Refusal} (h : next? o (fun _ => true) = true) : o = .next (nextOf o) := by
  cases o <;> simp_all [next?, nextOf]

/-- For AdmissionAndQueues: port 0 with a depth of 8, every other port too, and one candidate of group 0. -/
theorem witness_QueueBounds :
    ∃ (s s' : State), s.canonical = true ∧ exec (.admission 0) s = .next s' ∧
      (∀ n, n < 128 → s.occ n ≤ s.depth n ∧ 1 ≤ s.depth n ∧ s.depth n ≤ 64) ∧ (∀ c, s.ahead c ≤ 64 ∧ 1 ≤ s.eqReserve c) ∧
      (s.groupQueue 0).length ≤ 64 ∧ s.disp.cmds.Pairwise (fun a b => a.port = b.port → a.ctag ≠ b.ctag) :=
  ⟨depths, nextOf (exec (.admission 0) depths), by decide +kernel, eq_nextOf (by decide +kernel), by decide +kernel, by decide +kernel,
    by decide +kernel, by decide +kernel⟩

/-- For StepKeepsCanonical and StepKeepsQueueAndParameters. -/
theorem witness_CanonicalBefore : ∃ (s s' : State), s.canonical = true ∧ step s = .next s' :=
  ⟨{ up with pending := [.deviceTimeTick] }, nextOf (step { up with pending := [.deviceTimeTick] }), by decide +kernel, eq_nextOf (by decide +kernel)⟩

/-- For NoStops. -/
theorem witness_StopsOnLength : ∃ (s : State), exec (.clockMeasure []) s = .fault .illFormed := ⟨up, by
  show execClockMeasure [] up = _
  exact if_pos (by decide)⟩


/-! ## Keeper's section of a dump -/

/-- The block after an S5, with firmware 2.3.4 running in slot B. -/
def keeperS : State :=
  (({ up with rst := { Resets.none with dump := some { dumpD [⟨0, [], false, false⟩] 0 0 with cause := .s5 } }, time := 10000 }).wr
    (pageAddr pKEEP 0x44) 0x11020304#32).wr (pageAddr pKEEP 0x70) 77

/-- For Dumps: an S5's dump, whose only scratchpad ends with the next beat. -/
theorem witness_KeeperDumps :
    ∃ (d : Dump) (s : State), s.canonical = true ∧ s.rst.dump = some d ∧ d.stage = 0 ∧ d.ports = [⟨0, [], false, false⟩] ∧
      s.portHeard 0 = true ∧ s.keeperDumps { d with ports := [⟨0, [9], true, false⟩] } = true :=
  ⟨{ dumpD [⟨0, [], false, false⟩] 0 0 with cause := .s5 }, keeperS, by decide +kernel⟩

/-- R575: the first line of Keeper's section. -/
theorem test_keeper_head :
    let h := keeperS.keeperHead 0x123456789A#64 70
    Line.w32 h 0 = 0x4B444D50 ∧ Line.byte h 4 = 1 ∧ Line.w32 h 8 = 0x020304 ∧ Line.w32 h 0xC = 0x11020304 ∧
      Line.w64 h 0x10 = 0x123456789A ∧ Line.w32 h 0x18 = 77 ∧ Line.w32 h 0x1C = 70 ∧ h >>> 256 = 0 := by decide +kernel

/-- R575: the section is 64 KiB. -/
theorem test_keeper_lines :
    (keeperS.keeperLines { dumpD [] 0 0 with cause := .s5 }).length = 1024 := by
  decide +kernel

/-! ## Contexts, handles and parking -/

/-- Partition 0 with four contexts. -/
def ctxUp : State := (withPart up).wr (rPART 0 0x68) 4

/-- Context 1 of partition 0 in slot 2, with the line 0x40 given and two cached handles. -/
def ctxSlot (st : SlotState) (l1 : Line) : State :=
  ctxUp.setSlot 2 { Slot.reset with st := st, part := 0, ctx := 1, recLines := [0, l1, 0, 0], cache := [(7, 5), (8, 6)] }

/-- For NegotiationAndDeclarations: LOCK and PG_IRQEN. -/
theorem witness_LockedIrqen :
    ∃ s : State, s.canonical = true ∧ s.reaches root pINTG .intg 0 = true ∧ s.flag (pageAddr pINTG 0x40) 0 = true ∧ s.rd (pageAddr pINTG 0x18) = 0 :=
  ⟨up.wr (pageAddr pINTG 0x40) 1, by decide +kernel⟩

/-- For UnitControl: TBL_CMD.PART is kept. -/
theorem witness_SoftTblCmd :
    ∃ s : State, s.canonical = true ∧ pageAt (BitVec.ofNat 8 pSHOL).toNat = some (.shol, 0) ∧ s.srstBusy pSHOL = true ∧ s.rd (pageAddr pSHOL 0x88) = 3 ∧
      PageKind.shol.spec 0x88 ≠ none :=
  ⟨(up.wr (pageAddr pSHOL 0x0C) 2).wr (pageAddr pSHOL 0x88) 3, by decide +kernel⟩

/-- For ContextCommands: a completion object that is not the partition's. -/
theorem witness_ContextSoRange :
    ∃ s : State, s.canonical = true ∧ s.reaches root (pPART (0 : BitVec 4)) .part 0 = true ∧ s.flag (rPART 0 0x78) 27 = false ∧
      s.soBad 0 (s.rd (rPART 0 0x80)) = true :=
  ⟨ctxUp.wr (rPART 0 0x80) 0x80000040, by decide +kernel⟩

/-- For ContextCommands: a command of a context that is loading. -/
theorem witness_ContextLoading :
    ∃ s : State, s.canonical = true ∧ s.reaches root (pPART (0 : BitVec 4)) .part 0 = true ∧ s.flag (rPART 0 0x78) 27 = false ∧
      s.soBad 0 (s.rd (rPART 0 0x80)) = false ∧ 1 < s.num (rPART 0 0x68) 0 17 ∧ s.slotOf 0 1 = some 2 ∧ (s.slot 2).st = .loading :=
  ⟨ctxSlot .loading 0, by decide +kernel⟩

/-- For ContextCommands: commands of a resident context that is not VALID, and of one that is; one handle, and all of them. -/
theorem witness_ContextNotCreated :
    ∃ s : State, s.canonical = true ∧ s.reaches root (pPART (0 : BitVec 4)) .part 0 = true ∧ s.flag (rPART 0 0x78) 27 = false ∧
      s.soBad 0 (s.rd (rPART 0 0x80)) = false ∧ 1 < s.num (rPART 0 0x68) 0 17 ∧ s.slotOf 0 1 = some 2 ∧ (s.slot 2).st ≠ .loading ∧
      ((s.slot 2).recLines.getD 1 0).getLsbD 0 = false :=
  ⟨ctxSlot .idle 0, by decide +kernel⟩
theorem witness_ContextResident :
    ∃ s : State, s.canonical = true ∧ s.reaches root (pPART (0 : BitVec 4)) .part 0 = true ∧ s.flag (rPART 0 0x78) 27 = false ∧
      s.soBad 0 (s.rd (rPART 0 0x80)) = false ∧ 1 < s.num (rPART 0 0x68) 0 17 ∧ s.slotOf 0 1 = some 2 ∧ (s.slot 2).st ≠ .loading ∧
      ((s.slot 2).recLines.getD 1 0).getLsbD 0 = true ∧ (s.rd (rPART 0 0x7C)).getLsbD 31 = false :=
  ⟨(ctxSlot .idle 1).wr (rPART 0 0x7C) 7, by decide +kernel⟩
theorem witness_ContextInvalAll :
    ∃ s : State, s.canonical = true ∧ s.reaches root (pPART (0 : BitVec 4)) .part 0 = true ∧ s.flag (rPART 0 0x78) 27 = false ∧
      s.soBad 0 (s.rd (rPART 0 0x80)) = false ∧ 1 < s.num (rPART 0 0x68) 0 17 ∧ s.slotOf 0 1 = some 2 ∧ (s.slot 2).st ≠ .loading ∧
      ((s.slot 2).recLines.getD 1 0).getLsbD 0 = true ∧ (s.rd (rPART 0 0x7C)).getLsbD 31 = true :=
  ⟨(ctxSlot .busy 3).wr (rPART 0 0x7C) 0x80000000, by decide +kernel⟩

/-- For ContextCommands: answers under the partition's reset, and while it is none. -/
theorem witness_ContextAnswerReset :
    ∃ (s : State) (c : CtxCmd), (afterR s).ctxCmd 0 = some c ∧ s.gets true 0 0 (afterR s) (asked (.ctxCmd 0 0) 2) ∧ (afterR s).resetting 0 = true ∧
      [(0 : Line), 0].length * 64 = (asked (.ctxCmd 0 0) 2).len :=
  ⟨{ reads (up.setCtxCmd 0 (some ⟨1, 0, false, false, 0, 0, 0, 0, 0, 0, 0⟩)) (.ctxCmd 0 0) 2 with
      rst := { Resets.none with parts := [(0, some ⟨1, .command, false, 0⟩)] } }, _, rfl, by unfold State.gets; decide +kernel⟩
theorem witness_ContextAnswerRead :
    ∃ (s : State) (c : CtxCmd), (afterR s).ctxCmd 0 = some c ∧ s.gets true 0 0 (afterR s) (asked (.ctxCmd 0 0) 2) ∧ (afterR s).resetting 0 = false ∧
      c.op = 1 ∧ c.step = 0 :=
  ⟨reads (up.setCtxCmd 0 (some ⟨1, 0, false, false, 0, 0, 0, 0, 0, 0, 0⟩)) (.ctxCmd 0 0) 2, _, rfl, by unfold State.gets; decide +kernel⟩
theorem witness_ContextAnswerDestroy :
    ∃ (s : State) (c : CtxCmd), (afterW s).ctxCmd 0 = some c ∧ s.gets false 0 0 (afterW s) (wrote (.ctxCmd 0 1)) ∧ (afterW s).resetting 0 = false ∧
      c.op = 2 ∧ (afterW s).slotOf 0 c.ctx = some 2 :=
  ⟨writes ((ctxSlot .idle 3).setCtxCmd 0 (some ⟨2, 1, false, false, 0, 2, 5, 0, 0, 0, 0⟩)) (.ctxCmd 0 1), _, rfl, by unfold State.gets; decide +kernel⟩

/-- For ContextCommands: the line 0x40 read for a change to a non-resident context. -/
theorem witness_ContextChangeNone :
    ∃ s : State, s.gets true 0 0 (afterR s) (asked (.ctxMod 0 1) 1) ∧
      (afterR s).harb.changes.filter (fun x => decide (x.1 = 0) && decide (x.2.1 = 1)) = [] :=
  ⟨reads ctxUp (.ctxMod 0 1) 1, by unfold State.gets; decide +kernel⟩
theorem witness_ContextChange :
    ∃ s : State, s.gets true 0 0 (afterR s) (asked (.ctxMod 0 1) 1) ∧ (afterR s).slotOf 0 1 = none ∧
      (afterR s).harb.changes.filter (fun x => decide (x.1 = 0) && decide (x.2.1 = 1)) ≠ [] :=
  ⟨reads { ctxUp with harb := { ctxUp.harb with changes := [(0, 1, .lose 4 0 0)] } } (.ctxMod 0 1) 1, by unfold State.gets; decide +kernel⟩

/-! ## Streams, switches and advances -/

/-- For DoorbellsAndStreams: an access of the doorbell page of an unbound function. -/
theorem witness_DoorbellUnbound :
    ∃ s : State, s.canonical = true ∧ s.serves = true ∧ mayRing (1 : BitVec 13) 1 = true ∧ s.partOf 1 = none :=
  ⟨withPart up, by decide +kernel⟩

/-- For DoorbellsAndStreams: INVAL with prefetched units, lines and a prefetch under way. -/
theorem witness_Inval :
    ∃ s : State, s.canonical = true ∧ s.serves = true ∧ mayRing root 0 = true ∧ s.partOf 0 = some 0 ∧ s.fetch.cache ≠ [] ∧ s.ferry.ahead ≠ [] ∧
      s.mmp.map (·.why) = [.ahead key0 64 true] :=
  ⟨let s := (withPart up).setStream 0 { StreamE.reset with st := .blocked }
   { reads s (.ahead key0 64 true) 1 with fetch := { s.fetch with cache := [(0, 0, 5)] }, ferry := { s.ferry with ahead := [(key0, 64, 7)] } }, by decide +kernel⟩

/-- For ModelSwitchesAndEpochs: a launch that holds a thread has not started. -/
theorem witness_ModelSwitchPlaced :
    ∃ (s : State) (e : Entry), s.entry ⟨0, 1⟩ = some e ∧ e.etype = .modelSwitch ∧ (s.stream 0).head = some 1 ∧ e.stage = .point ∧ e.pairDone = 1 ∧
      s.windowsStarted 0 = true ∧ s.pointOpen 0 = true ∧ s.allEntries.filter (fun x => decide (x.2.part = 0) && x.2.core.isSome && !x.2.executed) ≠ [] :=
  ⟨let s := (core0 [block 64 0 0] [] (fun th => { th with st := .stalled, stall := .start })).wr (rPART 0 0x74) 1
   { s.setStream 0 { StreamE.reset with st := .blocked, head := some 1, inflight := 2 } with
      entries := [(0, some { launch0 with stage := .place }), (1, some (pointE .modelSwitch 1))] }, pointE .modelSwitch 1, by decide +kernel⟩

/-- For ModelSwitchesAndEpochs: an advance that waits for its retirement. -/
theorem witness_EpochCommitWaits :
    ∃ (e : Entry) (s : State), s.canonical = true ∧ s.entry key0 = some e ∧ e.part = 0 ∧ e.etype = .epochAdvance ∧ s.advancing 0 = some (key0, e) ∧
      s.num (rTIDE 0 0xC) 16 16 = 0 ∧ s.num (rTIDE 0 8) 0 16 = 0 ∧ s.windowsStarted 0 = true ∧ s.flag (rTIDE 0 8) 30 = false ∧
      s.cur 0 ≠ 0xFFFFFFFFFFFF ∧ e.lctrl.getLsbD 0 = true :=
  ⟨{ pointE .epochAdvance 2 with units := [line [(0x10, 1)], 0] },
    (((atHead { pointE .epochAdvance 2 with units := [line [(0x10, 1)], 0] }).wr (rPART 0 0x74) 1).wr (rTIDE 0 0xC) 3).wr (rTIDE 0 8) 0x80000000, by decide +kernel⟩

/-- For SyncObjects: the last update of a SIGNAL entry of a paused stream that waits for it. -/
theorem witness_SyncSignalEnds :
    ∃ (x : Offer) (s : State), s.canonical = true ∧ bankPick s.sync.offers 0 s.sync.rot0 = some x ∧ x.rest = [] ∧ x.entry = some key0 ∧
      (s.stream 0).st = .blocked ∧ (s.stream 0).head = none ∧ (s.stream 0).pause = true :=
  ⟨⟨.signalEntry, ⟨.signal, 2, 5⟩, [], some key0⟩,
    let s := (atHead (pointE .signal 1)).setStream 0 { StreamE.reset with st := .blocked, sigPending := some 0, inflight := 1, pause := true }
    { s with sync := { s.sync with offers := [⟨.signalEntry, ⟨.signal, 2, 5⟩, [], some key0⟩] } }, by decide +kernel⟩

/-- For FencesAndPolls: an error, a remote word, and a read for an entry that waits for it no more. -/
theorem witness_FenceLate :
    ∃ (s : State) (e : Entry), s.answer true 0 0 = (afterR s, some (asked (.fenceRead key0 0) 1)) ∧ (afterR s).entry key0 = some e ∧
      e.waitUnit = some (line [(0, 5)]) ∧ ¬(e.stage = .fence ∧ e.pairDone = 0) :=
  ⟨let e := { fenceE (line [(0, 5)]) with pairDone := 1 }
   reads { (withPart up).setStream 0 { StreamE.reset with st := .blocked, head := some 0, inflight := 1 } with entries := [(0, some e)] } (.fenceRead key0 0) 1,
   { fenceE (line [(0, 5)]) with pairDone := 1 }, by decide +kernel⟩
theorem witness_FenceRemote :
    ∃ (s : State) (l : Line), s.answerFap 0 0 = ((s.answerFap 0 0).1, some (asked (.fenceRead key0 0) 1)) ∧ (s.answerFap 0 0).1.entry key0 = some (fenceE l) ∧
      (fenceE l).waitUnit = some l ∧ Line.w64 (line [(0, 4)]) 0 < Line.w64 l 0 ∧ (fenceE l).etype.isLaunch = false ∧
      (s.answerFap 0 0).1.isLocal ((Line.w64 l 8).extractLsb' 0 57) = false :=
  ⟨let s := fenceS (line [(0, 5), (12, 0x41000000)])
   { s with mmp := [], fap := [asked (.fenceRead key0 0) 1] }, line [(0, 5), (12, 0x41000000)], by decide +kernel⟩

/-- For FencesAndPolls: a poll read comes back; an interval of two lines, in an order named, with a stream in the queue. -/
theorem witness_PollReturns :
    ∃ (s : State) (p : Poll), s.answer true 0 0 = (afterR s, some (asked (.poll 64) 1)) ∧ (afterR s).pwr.mode ≠ .waking ∧ (afterR s).sync.polls = [p] ∧
      (afterR s).sync.pollQ = [] ∧ (afterR s).isLocal p.addr = true ∧ p.addr &&& ~~~63#57 = 64 ∧ p.value ≤ Line.w64 (line [(8, 5)]) (p.addr.toNat % 64) ∧
      Line.w64 (line [(8, 4)]) (p.addr.toNat % 64) < p.value :=
  ⟨{ reads (fenceS 0) (.poll 64) 1 with sync := { up.sync with polls := [⟨key0, 0, 0, 72, 5⟩] } }, ⟨key0, 0, 0, 72, 5⟩, by decide +kernel⟩
theorem witness_PollsOrdered :
    ∃ s : State, s.pwr.mode = .active ∧ s.powered 13 = true ∧
      distinct (s.sync.polls.map (fun p => s.pollKey p.addr)) ++ s.sync.pollQ.map (fun p => s.pollKey p.addr) = [64, 128, 192] ∧
      [(192 : Addr), 64, 128].Perm [64, 128, 192] ∧ [(192 : Addr), 64, 128].Nodup :=
  ⟨{ fenceS 0 with sync := { up.sync with polls := [⟨key0, 0, 0, 72, 5⟩, ⟨key0, 1, 0, 128, 5⟩], pollQ := [⟨key0, 2, 0, 200, 5⟩] } }, by decide +kernel⟩

/-! ## Inputs, slots and parks -/

/-- A launch of context 1 whose slot is loading. -/
def loadE : Entry := { Entry.fresh .launch 0 0 [0] with stage := .reenter, slot := some 2, asked := 1 }
def loadS (changes : List (BitVec 4 × BitVec 16 × CtxChange)) : State :=
  let s := onChan loadE
  reads ({ s with harb := { s.harb with changes := changes } }.setSlot 2 { Slot.reset with st := .loading, part := 0, ctx := 1, missing := 4 }) (.ctxLoad 2) 4

/-- DESTROY of a context under way. -/
def dying (s : State) : State := s.setCtxCmd 0 (some ⟨2, 0, false, false, 0, 1, 5, 0, 0, 0, 0⟩)

/-- For SlicesAndInputs: the directory line of a template launch. -/
theorem witness_InputDirectory :
    ∃ (s : State) (e : Entry), s.canonical = true ∧ s.gets true 0 0 (afterR s) (asked (.input key0 0 0) 1) ∧ (afterR s).entry key0 = some e ∧
      (asked (.input key0 0 0) 1).len = 64 :=
  ⟨reads (onChan inputE) (.input key0 0 0) 1, inputE, by unfold State.gets; decide +kernel⟩

/-- For SlicesAndInputs: prefetched lines of an entry that was dropped. -/
theorem witness_AheadDropped :
    ∃ s : State, s.canonical = true ∧ s.gets true 0 0 (afterR s) (asked (.ahead key0 64 false) 1) ∧ [(5 : Line)].length * 64 = (asked (.ahead key0 64 false) 1).len :=
  ⟨reads (onChan inputE) (.ahead key0 64 false) 1, by unfold State.gets; decide +kernel⟩

/-- For SlicesAndInputs: the handle of a launch that keeps it for itself, one that a launch waits for, and one read again. -/
theorem witness_HandleOwn :
    ∃ (s : State) (e : Entry), s.canonical = true ∧ s.gets true 0 0 (afterR s) (asked (.handleOwn key0 9) 1) ∧ (asked (.handleOwn key0 9) 1).len = 64 ∧
      (afterR s).entry key0 = some e ∧ e.stage = .miss ∧ e.missIdx = 9 :=
  ⟨reads (onChan { ferryE with stage := .miss, missIdx := 9 }) (.handleOwn key0 9) 1, { ferryE with stage := .miss, missIdx := 9 },
    by unfold State.gets; decide +kernel⟩
theorem witness_HandleWaited :
    ∃ s : State, s.canonical = true ∧ s.gets true 0 0 (afterR s) (asked (.handle 2 9) 1) ∧ 9 < staleHandle ∧
      ((afterR s).allEntries.filter (fun x => decide (x.2.stage = .miss) && decide (x.2.slot = some 2) && decide (x.2.missIdx = 9))).map (·.1) = [key0] :=
  ⟨reads (onChan { ferryE with stage := .miss, missIdx := 9, slot := some 2 }) (.handle 2 9) 1, by unfold State.gets; decide +kernel⟩
theorem witness_HandleAgain :
    ∃ s : State, s.canonical = true ∧ s.gets true 0 0 (s.answer true 0 0).1 (asked (.handle 2 (0x1000000 + 9)) 1) ∧ staleHandle ≤ 0x1000000 + 9 ∧
      (s.answer true 0 0).1.mmp.any (fun m => decide (m.why = .handle 2 (0x1000000 + 9 - staleHandle))) = true :=
  ⟨{ up with mmp := [asked (.handle 2 (0x1000000 + 9)) 1, { asked (.handle 2 9) 1 with tag := some 1 }] }, by unfold State.gets; decide +kernel⟩

/-- For HarbourAndPark: the record of a context for which a launch waits: VALID, with a change waiting, and LOST. -/
theorem witness_RecordWaited :
    ∃ s : State, s.gets true 0 0 (afterR s) (asked (.ctxLoad 2) 4) ∧ ((afterR s).slot 2).st = .loading ∧ (afterR s).loadWaiters 2 = [key0] ∧
      ((afterR s).applyChanges 0 1 1).2.getLsbD 0 = true ∧ ((afterR s).applyChanges 0 1 1).2.getLsbD 1 = false ∧
      (afterR s).harb.changes.any (fun x => decide (x.1 = 0) && decide (x.2.1 = 1)) = false :=
  ⟨loadS [], by unfold State.gets; decide +kernel⟩
theorem witness_RecordLost :
    ∃ s : State, s.gets true 0 0 (afterR s) (asked (.ctxLoad 2) 4) ∧ ((afterR s).slot 2).st = .loading ∧ (afterR s).loadWaiters 2 = [key0] ∧
      ((afterR s).applyChanges 0 1 1).2.getLsbD 1 = true ∧ (afterR s).harb.changes.any (fun x => decide (x.1 = 0) && decide (x.2.1 = 1)) = true :=
  ⟨loadS [(0, 1, .lose 4 5 0)], by unfold State.gets; decide +kernel⟩

/-- For HarbourAndPark: a queued launch whose context is being destroyed; one that is served from its park. -/
theorem witness_ServeLost :
    ∃ s : State, s.harbOrder.find? (fun k => match s.entry k with | some e => s.destroying e | none => false) = some key0 :=
  ⟨dying { (onChan queuedE) with harb := { Harbour.reset with queue := [key0] }, fetch := Fetch.reset }, by decide +kernel⟩
theorem witness_ServeParked :
    ∃ (s t : State), s.harbOrder.find? (fun k => match s.entry k with | some e => s.destroying e | none => false) = none ∧
      s.harbOrder.findSome? (fun k => match s.entry k with
        | some e => (s.takeCtx k e.part (e.ctx.extractLsb' 0 16)).map (fun t => (k, t))
        | none => none) = some (key0, t) :=
  ⟨{ (onChan { backE 0 with stage := .harbQueue, inPark := false }) with harb := { Harbour.reset with queue := [key0] }, fetch := Fetch.reset },
    ({ (onChan { backE 0 with stage := .harbQueue, inPark := false }) with harb := { Harbour.reset with queue := [key0] }, fetch := Fetch.reset }.takeCtx key0 0 0).getD up,
    by decide +kernel⟩

/-- For HarbourAndPark: the last lines of a launch whose context is resident, waits for a slot, or is being destroyed; of a launch
that is not prepared. -/
theorem witness_ReadbackTakes :
    ∃ (s t : State), s.canonical = true ∧ s.gets true 0 0 (afterR s) (asked (.unpark key0 0) 1) ∧ (afterR s).entry key0 = some (backE 1) ∧
      (afterR s).destroying (backE 1) = false ∧
      ((afterR s).setEntry key0 (some { backE 1 with waiting := 0, lines := setLines (backE 1).lines 0 [5], inPark := false })).takeCtx key0 0 0 = some t :=
  ⟨(reads (onChan (backE 1)) (.unpark key0 0) 1).setSlot 3 { Slot.reset with st := .busy },
    (((afterR ((reads (onChan (backE 1)) (.unpark key0 0) 1).setSlot 3 { Slot.reset with st := .busy })).setEntry key0
      (some { backE 1 with waiting := 0, lines := setLines (backE 1).lines 0 [5], inPark := false })).takeCtx key0 0 0).getD up, by unfold State.gets; decide +kernel⟩
theorem witness_ReadbackQueues :
    ∃ s : State, s.canonical = true ∧ s.gets true 0 0 (afterR s) (asked (.unpark key0 0) 1) ∧ (afterR s).entry key0 = some (backE 1) ∧
      (afterR s).destroying (backE 1) = false ∧
      ((afterR s).setEntry key0 (some { backE 1 with waiting := 0, lines := setLines (backE 1).lines 0 [5], inPark := false })).takeCtx key0 0 0 = none :=
  ⟨(List.range 128).foldl (fun s n => s.setSlot n { Slot.reset with st := .loading, part := 1, ctx := BitVec.ofNat 16 n }) (reads (onChan (backE 1)) (.unpark key0 0) 1),
    by unfold State.gets; decide +kernel⟩
theorem witness_ReadbackDestroyed :
    ∃ s : State, s.canonical = true ∧ s.gets true 0 0 (afterR s) (asked (.unpark key0 0) 1) ∧ (afterR s).entry key0 = some (backE 1) ∧
      (afterR s).destroying (backE 1) = true :=
  ⟨dying (reads (onChan (backE 1)) (.unpark key0 0) 1), by unfold State.gets; decide +kernel⟩
theorem witness_ReadbackUnits :
    ∃ (s : State) (e : Entry), s.canonical = true ∧ s.gets true 0 0 (afterR s) (asked (.unpark key0 0) 1) ∧ (afterR s).entry key0 = some e ∧ e.prepared = false ∧
      e.waiting = 1 :=
  ⟨reads (onChan { backE 1 with prepared := false }) (.unpark key0 0) 1, { backE 1 with prepared := false }, by unfold State.gets; decide +kernel⟩

/-- For TemplateCommands: an answer to a command that has ended, and the lines of a pinned image. -/
theorem witness_TemplateGone :
    ∃ s : State, s.gets true 0 0 (afterR s) (asked (.tmplCmd 0 0) 1) ∧ (afterR s).tmplCmd 0 = none ∧ [(5 : Line)].length * 64 = (asked (.tmplCmd 0 0) 1).len :=
  ⟨reads up (.tmplCmd 0 0) 1, by unfold State.gets; decide +kernel⟩
theorem witness_TemplatePins :
    ∃ s : State, s.gets true 0 0 (afterR s) (asked (.pinReload 0 1 0) 1) ∧ [(5 : Line)].length * 64 = (asked (.pinReload 0 1 0) 1).len :=
  ⟨reads up (.pinReload 0 1 0) 1, by unfold State.gets; decide +kernel⟩

/-- For ProgramLoads: an answer to a load that is over, and an error in the last one. -/
theorem witness_ProgramLoadGone :
    ∃ s : State, s.gets true 0 0 (afterR s) (asked (.imem 3 0) 1) ∧ ((afterR s).core 3).load = none ∧ [(5 : Line)].length * 64 = (asked (.imem 3 0) 1).len :=
  ⟨reads up (.imem 3 0) 1, by unfold State.gets; decide +kernel⟩

/-! ## Dispatch and Beacon -/

/-- For AdmissionAndQueues: the candidate of an ISSUE that waits, and the second premise of its bounds. -/
theorem witness_AdmissionIssue :
    ∃ (s : State) (e : Entry), s.canonical = true ∧ s.dispHalted = false ∧ s.groupCands 0 = [candX] ∧ s.entry key0 = some e ∧ 0 < e.ops.length ∧
      e.ops.getD 0 .idle = .cand true ∧ s.ordinary (s.groupQueue 0).length candX = true :=
  ⟨{ admitS with entries := [(0, some { launch0 with ops := [.cand true] })] }, { launch0 with ops := [.cand true] }, by decide +kernel⟩

/-- For AdmissionAndQueues: a gather. -/
theorem witness_AdmissionGather :
    ∃ s : State, s.canonical = true ∧ s.dispHalted = false ∧ s.groupCands 0 = [{ candX with who := .gather 0 0 0 }] ∧
      s.ordinary (s.groupQueue 0).length { candX with who := .gather 0 0 0 } = true :=
  ⟨{ admitS with disp := { Disp.reset with cands := [{ candX with who := .gather 0 0 0 }] } }, by decide +kernel⟩

/-- For GrantsAndReports: a report shown since an earlier CCLK. -/
theorem witness_ReportShown :
    ∃ (r : Report) (s : State), s.canonical = true ∧ r.port.toNat / 16 = (0 : BitVec 3).toNat ∧ s.portHeard r.port.toNat = true ∧
      Tbl.get (fun _ => 0) s.land.shown r.port.toNat = 3 ∧ (s.fifo 0).length < 16 :=
  ⟨⟨0, 0, 0, 0, 0⟩, { sentS .sent with land := { Landing.reset with shown := [(0, 3)] } }, by decide +kernel⟩

/-- For Beacon: a completion of a number above 0x3FF. -/
theorem witness_CompleteBeyond :
    ∃ (s : State) (v : Word), s.canonical = true ∧ s.reaches root pBCON .bcon 0 = true ∧ 0x400 ≤ v.toNat ∧ s.holds (1 : BitVec 3).toNat = some 256 ∧ 256 < 512 :=
  ⟨{ up with bcon := { up.bcon with claims := [(1, some 256)] } }, 0x500, by decide +kernel⟩

/-! ## Ports, resets, dumps -/

/-- For HangsAndPorts: a number beyond the ports that exist, one that the field holds but no port can have, and a reset under way. -/
theorem witness_PortNone :
    ∃ s : State, s.canonical = true ∧ s.reaches root pCLKR .clkr 0 = true ∧ s.flag (rCLKR 0x100) 27 = false ∧ s.flag (rCLKR 0x104) 30 = false ∧
      (100 : BitVec 10).toNat < 128 ∧ s.ecpCount ≤ (100 : BitVec 10).toNat ∧ 128 ≤ (128 : BitVec 10).toNat :=
  ⟨{ up with ecpCount := 64 }, by decide +kernel⟩
theorem witness_PortInReset :
    ∃ s : State, s.canonical = true ∧ s.reaches root pCLKR .clkr 0 = true ∧ s.flag (rCLKR 0x100) 27 = false ∧ s.flag (rCLKR 0x104) 30 = false ∧
      0 < s.ecpCount ∧ s.portOwner 0 = some 0 ∧ s.resetting 0 = true ∧ (s.port 0).defer = 0 ∧ s.partIdle 0 = true :=
  ⟨{ portS .offline with rst := { Resets.none with parts := [(0, some (runP 5))] } }, by decide +kernel⟩
theorem witness_PortUnowned :
    ∃ s : State, s.canonical = true ∧ s.portOwner 5 = none ∧ (s.port 5).defer = 3 ∧ (s.port 5).st = .ready :=
  ⟨(portS .ready).setPort 5 { Port.reset with st := .ready, defer := 3 }, by decide +kernel⟩
theorem witness_PortDeferredAdd :
    ∃ s : State, s.canonical = true ∧ s.portOwner 0 = some 0 ∧ s.resetting 0 = false ∧ s.partIdle 0 = true ∧ (s.port 0).defer = 1 ∧ (s.port 0).st = .offline ∧
      s.portFit 0 = true :=
  ⟨(portS .offline).setPort 0 { Port.reset with st := .offline, defer := 1 }, by decide +kernel⟩

/-- For HangsAndPorts: an acknowledgement that no reset waits for, behind a link. -/
theorem witness_AckUnasked :
    ∃ s : State, s.canonical = true ∧ s.portHeard 0 = true ∧ (s.port 0).st ≠ .resetting ∧ (s.linkOf 0).isSome = true ∧ (s.port 0).reqT = none :=
  ⟨{ portS .inService with cwMap := 1, cw := ⟨[(0, true)], [], []⟩ }, by decide +kernel⟩

/-- For PartitionResets and BlockResets: what is waited for is not over. -/
theorem witness_PartitionWaits :
    ∃ s : State, s.canonical = true ∧ s.partRun 0 = some (runP 4) ∧ (∃ n ∈ s.portsOf 0, (s.port n).back ≠ 0) ∧ s.rst.partWant = [] :=
  ⟨(inPart 4).setPort 0 { Port.reset with st := .resetting, back := 2 }, by decide +kernel⟩
theorem witness_BlockWaits :
    ∃ s : State, s.canonical = true ∧ s.rst.block = some (runB 5 .command) ∧ (runB 5 .command).step ≠ 3 ∧ s.mmp.all (fun x => !x.settles) = false :=
  ⟨writes (inBlock 5 .command) (.message 0 0), by decide +kernel⟩

/-- For Dumps: a beat while none is written, a port behind a link that is asked for its scratchpad, and an acknowledgement of many. -/
theorem witness_DumpNone : ∃ s : State, s.canonical = true ∧ s.portHeard 0 = true ∧ s.rst.dump = none := ⟨up, by decide +kernel⟩
theorem witness_DumpAsked :
    ∃ s : State, s.canonical = true ∧ 0 < s.ecpCount ∧ s.portHeard 0 = true ∧ (s.linkOf 0).isSome = true ∧ 64 ≤ s.num (rCLKR 0x134) 0 17 ∧ 0 ∈ s.portsOf 0 :=
  ⟨{ (portS .inService).wr (rCLKR 0x134) 64 with cwMap := 1, cw := ⟨[(0, true)], [], []⟩ }, by decide +kernel⟩
theorem witness_DumpMore :
    ∃ (d : Dump) (s : State), s.canonical = true ∧ s.gets false 0 0 (afterW s) wroteD ∧ (afterW s).rst.dump = some d ∧ d.acks ≠ 1 :=
  ⟨dumpD [] 1 2, { dumpS (dumpD [] 1 2) with mmp := [wroteD] }, by unfold State.gets; decide +kernel⟩

/-! ## Power, clocks, Keeper and the queue -/

/-- For PowerEntry and PowerUp: an entry that an access ends, an acknowledgement while cold reset is held, and a wake in an entry. -/
theorem witness_EntryEnds :
    ∃ s : State, s.canonical = true ∧ s.pwr.mode = .entering ∧ s.mustAbort = true := ⟨entering.wr (rSYNC 0x70) 0x08000000, by decide +kernel⟩
theorem witness_AckCold :
    ∃ s : State, s.canonical = true ∧ (s.dom 5).ack ≠ true ∧ s.domUsed 5 = true ∧ s.pwr.coldHeld = true :=
  ⟨{ up with pwr := { up.pwr with coldHeld := true, doms := [] } }, by decide +kernel⟩
theorem witness_WakeInEntry :
    ∃ s : State, s.canonical = true ∧ s.pwr.mode = .entering ∧ s.pwr.flushed = true ∧ s.pwr.want = 0 ∧ s.wakeOk (2 : BitVec 4).toNat = true :=
  ⟨{ (up.wr (rPWRC 0x54) 1) with pwr := { up.pwr with mode := .entering, flushed := true, depth := .drowse } }, by decide +kernel⟩

/-- For ClocksAndTime: an ALIGN_REQ or a loss that changes nothing, and a pulse while TIME.SET is pending. -/
theorem witness_AlignSame :
    ∃ s : State, s.canonical = true ∧ s.pwr.coldHeld = false ∧ s.flag (rCLKR 0x50) 29 = true ∧ s.alignState ≠ 2 := ⟨up.wr (rCLKR 0x50) 0x60000000, by decide +kernel⟩
theorem witness_AlignLocked :
    ∃ s : State, s.canonical = true ∧ s.pwr.coldHeld = false ∧ s.flag (rCLKR 0x50) 29 ≠ false ∧ s.alignState = 2 := ⟨up.wr (rCLKR 0x50) 0xA0000000, by decide +kernel⟩
theorem witness_PulsePending :
    ∃ s : State, s.canonical = true ∧ s.pwr.coldHeld = false ∧ s.flag (rTIME 0x58) 31 = true ∧ s.tsync.set ≠ none :=
  ⟨{ (up.wr (rTIME 0x58) 0xC00003E8) with time := 25, tsync := ⟨0, 0, some 59, 0⟩ }, by decide +kernel⟩

/-- For KeeperBoots: a boot with a valid record; a boot that nothing asks for, and no trial. -/
theorem witness_BootRecord :
    ∃ (s : State) (x : KeeperStore) (r : Line), s.canonical = true ∧ s.keep.bootDue = true ∧ s.powered 20 = true ∧ currentRec x.rec0 x.rec1 = some r :=
  ⟨bootS, ⟨record 0x0304 0, 0, [], []⟩, record 0x0304 0, by decide +kernel⟩

/-- For Mailbox: an answer to a command that is over, and one to a LOAD. -/
theorem witness_MailboxGone :
    ∃ s : State, s.gets true 0 0 (afterR s) (asked (.mbox 0) 1) ∧ (afterR s).keep.cmd = none ∧ [(5 : Line)].length * 64 = (asked (.mbox 0) 1).len :=
  ⟨reads up (.mbox 0) 1, by unfold State.gets; decide +kernel⟩
theorem witness_MailboxReads :
    ∃ (s : State) (c : MboxCmd), s.gets true 0 0 (afterR s) (asked (.mbox 0) 1) ∧ (afterR s).keep.cmd = some c ∧ c.step = 2 :=
  ⟨reads { mboxS 0x10000000 (record 0x0004 0) with keep := { up.keep with cmd := some ⟨1, 1, 2, [], 1, 0, 0⟩ } } (.mbox 0) 1, ⟨1, 1, 2, [], 1, 0, 0⟩, by unfold State.gets; decide +kernel⟩

/-- For LinksAndTrace: PD31 unpowered. -/
theorem witness_TraceOff : ∃ s : State, s.canonical = true ∧ s.powered 31 = false := ⟨State.reset, by decide +kernel⟩

/-- For RegisterCommands: a command that nothing refuses, idle and BUSY. -/
theorem witness_RegisterCommand :
    ∃ (s : State) (r : RegSpec), s.canonical = true ∧ s.reaches root pAUDT .audt 0 = true ∧ PageKind.audt.spec 0x48 = some r ∧
      s.refuses .audt 0 0x48 r (opWord 3 0) none = none ∧ opWord 3 0 &&& ~~~(r.writable .audt 0x48) = 0 ∧ cmdMax .audt 0x48 ≠ 0 ∧
      s.flag (s.regKey pAUDT .audt 0x48) 27 = false :=
  ⟨up, (PageKind.audt.spec 0x48).getD ⟨0, 0, 0, 0, 0, 0, 0, 0, false, []⟩, by decide +kernel⟩
theorem witness_RegisterCommandBusy :
    ∃ (s : State) (r : RegSpec), s.canonical = true ∧ s.reaches root pAUDT .audt 0 = true ∧ PageKind.audt.spec 0x48 = some r ∧
      s.refuses .audt 0 0x48 r (opWord 3 0) none = none ∧ opWord 3 0 &&& ~~~(r.writable .audt 0x48) = 0 ∧ s.flag (s.regKey pAUDT .audt 0x48) 27 = true :=
  ⟨up.wr (rAUDT 0x48) 0x08000000, (PageKind.audt.spec 0x48).getD ⟨0, 0, 0, 0, 0, 0, 0, 0, false, []⟩, by decide +kernel⟩

/-- For EmptyQueueTick: a thread that waits for a line that is in, one that tries its ISSUE again, and one that waits. -/
theorem witness_EmptyQueueStalled :
    ∃ s : State, s.canonical = true ∧ s.pending = [] ∧ s.clocked = true ∧ (s.thread 0 0).st = .stalled ∧ (s.thread 0 0).stall = .line 0 ∧ 0 < (s.thread 0 0).arrived :=
  ⟨core0 [block 64 0 0] [] (fun th => { th with st := .stalled, stall := .line 0 }), by decide +kernel⟩
theorem witness_EmptyQueueRetries :
    ∃ s : State, s.canonical = true ∧ s.pending = [] ∧ s.clocked = true ∧ (s.thread 0 0).st = .stalled ∧ (s.thread 0 0).stall = .retry :=
  ⟨core0 [block 64 0 0] [] (fun th => { th with st := .stalled, stall := .retry }), by decide +kernel⟩

/-! ## Flits and test ports (spec/20 R599, R612) -/

/-- R599's worked example: port 41's command with H0, H1 and H2 as given. -/
theorem test_flit_example :
    let f := commandFlit 41 [0x2C7001, 0x2A, 0x11, 0] []
    (List.range 8).map (fun i => Line.byte f (8 + i)) = [0x2A, 0, 0, 0, 0, 0, 0, 0x29] ∧ Line.w64 f 0 = 0x2C7001 ∧ Line.w64 f 0x10 = 0x11 := by decide +kernel

/-- R599: an engine reset, a dump request of 1,024 bytes and a credit, as control flits. -/
theorem test_flit_control :
    Line.byte (controlFlit (.engineReset 41)) 0 = 1 ∧ Line.byte (controlFlit (.engineReset 41)) 0xF = 0xA9 ∧
      Line.w32 (controlFlit (.dumpReq 41 1024)) 8 = 1024 ∧ Line.byte (controlFlit (.credit 5 16)) 0xC = 5 ∧
      Line.byte (controlFlit (.credit 5 16)) 0xD = 16 ∧ Line.byte (controlFlit (.credit 5 16)) 0xF = 0x80 := by decide +kernel

/-- R612 (IEEE 1149.1): five TCK edges with TMS at 1 reset the TAP from each of its sixteen states. -/
theorem test_tap_reset :
    ∀ st ∈ [TapState.reset, .idle] ++ ([false, true].flatMap fun ir => [ScanPhase.select, .capture, .shift, .exit1, .pause, .exit2, .update].map (TapState.scan ir)),
      ((((st.next true).next true).next true).next true).next true = .reset := by decide

/-- R612: from Capture-DR on, BYPASS brings a 0 to TDO and then what TDI held. -/
theorem test_tap_bypass :
    let t := ((⟨.scan false .capture, .bypass, []⟩ : Tap).clock false true).clock false true
    (((⟨.scan false .capture, .bypass, []⟩ : Tap).clock false true).tdo, t.tdo) = (false, true) := by decide

end Sys2Proof.Tests
end

section
/-! SUPPORT. Register writes of R53, R56 and R57: a privileged write of a register that is no command register, by what refuses it
and by what it stores; version negotiation; the declarations of the INTG page and their lock. -/
namespace Sys2Proof.Machine

variable {s : State} {tag : BitVec 13} {page inst off : Nat} {k : PageKind}

/-! ## Words -/

/-- A word that fits in `n` bits lies within their mask. -/
theorem and_mask_of_lt {v : Word} {n : Nat} (hn : n < 32) (hv : v.toNat < 2 ^ n) : v &&& BitVec.ofNat 32 (2 ^ n - 1) = v := by
  have hmask : 2 ^ n < 2 ^ 32 := Nat.pow_lt_pow_right (by decide) hn
  apply BitVec.eq_of_toNat_eq
  rw [BitVec.toNat_and, BitVec.toNat_ofNat, Nat.mod_eq_of_lt (by omega), Nat.and_two_pow_sub_one_eq_mod, Nat.mod_eq_of_lt hv]

/-- A word within a mask has no bit outside it. -/
theorem and_not_of_and_eq {v m : Word} (h : v &&& m = v) : v &&& ~~~m = 0#32 := by
  rw [← h, BitVec.and_assoc, BitVec.and_not_self]
  exact BitVec.and_zero

/-- Two fields side by side, as a number. -/
theorem toNat_append_add {m n : Nat} (x : BitVec m) (y : BitVec n) : (x ++ y).toNat = x.toNat * 2 ^ n + y.toNat := by
  rw [BitVec.toNat_append, ← Nat.shiftLeft_add_eq_or_of_lt y.isLt, Nat.shiftLeft_eq]

/-- Bits that are set need not be cleared first. -/
theorem and_not_or_self (x m : Word) : (x &&& ~~~m) ||| m = x ||| m := by
  ext i
  simp only [BitVec.getElem_or, BitVec.getElem_and, BitVec.getElem_not]
  cases m[i] <;> simp

/-! ## Reads after a write of another register -/

/-- The registers of a canonical state are a canonical table. -/
theorem State.canonical_regs (h : s.canonical = true) : Tbl.wf regReset s.regs = true := by
  simp only [State.canonical, Bool.and_eq_true, and_assoc] at h
  exact h.1

/-- A register after a field of another has been set. -/
theorem State.rd_setF_of_ne (h : s.canonical = true) {key key' : Nat} (hne : key' ≠ key) (lo : Nat) {w : Nat} (v : BitVec w) :
    (s.setF key lo v).rd key' = s.rd key' := by
  rw [State.setF, State.rd_wr (State.canonical_regs h), if_neg hne]

/-- A bit of a register that is not the page's PG_ERR, after an error of the page. -/
theorem State.flag_setErr_of_ne (h : s.canonical = true) {key : Nat} (hne : key ≠ pageAddr page 0x14) (b i : Nat) :
    (s.setErr page b).flag key i = s.flag key i :=
  congrArg (·.getLsbD i) (State.rd_setF_of_ne h hne b _)

/-! ## Registers with one RW field -/

/-- The row of a register with one RW field, of the low `n` bits, and nothing else. -/
def RegSpec.lowField (off n : Nat) (reset : Word) : RegSpec := ⟨off, 0, 1, BitVec.ofNat 32 (2 ^ n - 1), 0, 0, 0, reset, true, []⟩

/-- A value that fits stands in the field, below the bits that were there (R41). -/
theorem RegSpec.store_lowField {n : Nat} (hn : n < 32) (reset old : Word) {v : Word} (hv : v.toNat < 2 ^ n) :
    (RegSpec.lowField off n reset).store (BitVec.ofNat 32 (2 ^ n - 1)) old v = (old &&& ~~~BitVec.ofNat 32 (2 ^ n - 1)) ||| v := by
  have hmask := and_mask_of_lt hn hv
  simp only [RegSpec.store, RegSpec.lowField, BitVec.ofNat_eq_ofNat, BitVec.and_self, hmask, BitVec.and_zero, BitVec.zero_and,
    BitVec.or_zero, BitVec.not_zero, BitVec.and_allOnes]

/-- A field of the low bits set as a whole. -/
theorem State.setF_low {n : Nat} (key : Nat) (v : BitVec n) :
    s.setF key 0 v = s.wr key ((s.rd key &&& ~~~BitVec.ofNat 32 (2 ^ n - 1)) ||| v.setWidth 32) := by
  have hmask : (BitVec.allOnes n).setWidth 32 = BitVec.ofNat 32 (2 ^ n - 1) := by
    simp [← BitVec.toNat_inj]
  simp only [State.setF, putBits, BitVec.shiftLeft_zero, hmask]

/-- On a page whose registers no source masks, the field's bits are the writable ones. -/
theorem RegSpec.writable_lowField (hk : k ≠ .bcon) (n : Nat) (reset : Word) :
    (RegSpec.lowField off n reset).writable k off = BitVec.ofNat 32 (2 ^ n - 1) := by
  cases k with
  | bcon => exact absurd rfl hk
  | _ => simp [RegSpec.writable, RegSpec.lowField]

/-- A register of RW1S bits alone has the bits set that are written 1 (R41). -/
theorem RegSpec.store_of_w1s {r : RegSpec} (hrw : r.rw = 0#32) (hw1c : r.w1c = 0#32) (m old v : Word) :
    r.store m old v = old ||| (v &&& r.w1s &&& m) := by
  simp only [RegSpec.store, hrw, hw1c, BitVec.and_zero, BitVec.zero_and, BitVec.or_zero, BitVec.not_zero, BitVec.and_allOnes]

/-! ## Writes of a register that is no command register -/

/-- An admitted 32-bit write of a functional register is the register's own write. -/
theorem State.access_register (h : s.reaches tag page k inst = true) (hlo : 0x40 ≤ off) (hhi : off < 0x1000) (h4 : off % 4 = 0)
    (hk : k ≠ .time) {r : RegSpec} (hr : k.spec off = some r) (v : Word) :
    s.access (write32 tag (pageAddr page off) v) = (s.regWrite page k inst off r v).answerRdp 0 0 := by
  rw [State.access_write32 h hhi h4 (fun ht => absurd ht hk), State.wordWrite_eq h hlo hr]

/-- A refused write within the register's writable bits sets the error bit alone (log entry 32). -/
theorem State.regWrite_refused {r : RegSpec} {v : Word} {b : Nat} (hw : v &&& ~~~r.writable k off = 0#32)
    (hb : s.refuses k inst off r v none = some b) : s.regWrite page k inst off r v = s.setErr page b := by
  simp [State.regWrite, hw, hb]

/-- A write that nothing refuses, within the writable bits of a register that is no command register, is stored and has its
effect. -/
theorem State.regWrite_stored {r : RegSpec} {v : Word} (hw : v &&& ~~~r.writable k off = 0#32)
    (hb : s.refuses k inst off r v none = none) (hc : cmdMax k off = 0) :
    s.regWrite page k inst off r v = (s.regStore page k inst off r v).regAct k inst off (s.rd (s.regKey page k off)) v := by
  have hop : ¬(1 ≤ (v.extractLsb' 28 4).toNat ∧ (v.extractLsb' 28 4).toNat ≤ 0 ∧ s.flag (s.regKey page k off) 27 = true) := by
    omega
  have hro : ¬v &&& ~~~r.writable k off ≠ 0 := not_not_intro hw
  simp only [State.regWrite, if_neg hro, hb, hc, if_true]
  rw [if_neg hop]

/-- A value that fits its register's field is stored in the field. -/
theorem State.regStore_lowField (hk : k = .glbl ∨ k = .intg) {n : Nat} (hn : n < 32) (reset : Word) {v : Word} (hv : v.toNat < 2 ^ n) :
    s.regStore page k inst off (RegSpec.lowField off n reset) v =
      s.wr (pageAddr page off) ((s.rd (pageAddr page off) &&& ~~~BitVec.ofNat 32 (2 ^ n - 1)) ||| v) := by
  have hbcon : k ≠ .bcon := by rcases hk with rfl | rfl <;> decide
  rw [← RegSpec.store_lowField (off := off) hn reset _ hv, ← RegSpec.writable_lowField (off := off) hbcon n reset]
  rcases hk with rfl | rfl <;> rfl

/-- A value that fits its register's field has no bit outside the writable ones. -/
theorem and_not_writable_lowField (hk : k ≠ .bcon) {n : Nat} (hn : n < 32) (reset : Word) {v : Word} (hv : v.toNat < 2 ^ n) :
    v &&& ~~~(RegSpec.lowField off n reset).writable k off = 0#32 := by
  rw [RegSpec.writable_lowField hk]
  exact and_not_of_and_eq (and_mask_of_lt hn hv)

/-! ## Version negotiation (R53) -/

/-- While a stream is enabled, negotiation sets NEG_BUSY. -/
theorem State.negotiate_busy (h : s.anyStreamOn = true) (major minor : BitVec 8) : s.negotiate major minor = s.setErr pGLBL 16 := by
  simp only [State.negotiate, h, if_true]

/-- Of the block's major version the least of both minor versions is in effect, with VALID. -/
theorem State.negotiate_agreed (h : s.anyStreamOn = false) {major : BitVec 8} (hm : major = s.fld (pageAddr pGLBL 0x44) 8 8)
    (minor : BitVec 8) :
    s.negotiate major minor = s.wr (pageAddr pGLBL 0x4C)
      (BitVec.ofNat 32 (2 ^ 31 + major.toNat * 256 + min minor.toNat (s.fld (pageAddr pGLBL 0x44) 0 8).toNat)) := by
  simp only [State.negotiate, h, ← hm, Bool.false_eq_true, if_false, if_true]
  congr 1
  apply BitVec.eq_of_toNat_eq
  simp only [toNat_append_add, BitVec.toNat_ofNat, apply_ite BitVec.toNat, BitVec.lt_def]
  split <;> omega

/-- Of any other major version the lowest version of the block's is in effect, with REJECTED. -/
theorem State.negotiate_rejected (h : s.anyStreamOn = false) {major : BitVec 8} (hm : major ≠ s.fld (pageAddr pGLBL 0x44) 8 8)
    (minor : BitVec 8) :
    s.negotiate major minor = s.wr (pageAddr pGLBL 0x4C)
      (BitVec.ofNat 32 (2 ^ 30 + (s.fld (pageAddr pGLBL 0x44) 8 8).toNat * 256)) := by
  simp only [State.negotiate, h, hm, Bool.false_eq_true, if_false]
  congr 1
  apply BitVec.eq_of_toNat_eq
  simp only [toNat_append_add, BitVec.toNat_ofNat]
  omega

/-- The word of a write of IF_NEGOTIATE holds the two fields. -/
theorem negotiateWord_eq (major minor : BitVec 8) : (0#16 ++ major ++ minor : Word) = (major ++ minor).setWidth 32 := by
  apply BitVec.eq_of_toNat_eq
  simp only [BitVec.toNat_setWidth, toNat_append_add, BitVec.toNat_ofNat]
  omega

/-- The fields of the word of a write of IF_NEGOTIATE. -/
theorem negotiateWord_major (major minor : BitVec 8) : (0#16 ++ major ++ minor : Word).extractLsb' 8 8 = major := by
  rw [BitVec.extractLsb'_append_eq_of_le (by decide)]
  exact BitVec.extractLsb'_append_eq_right
theorem negotiateWord_minor (major minor : BitVec 8) : (0#16 ++ major ++ minor : Word).extractLsb' 0 8 = minor :=
  BitVec.extractLsb'_append_eq_right

/-- IF_NEGOTIATE stores the two fields and negotiates. -/
theorem answers_ifNegotiate (h : s.reaches tag pGLBL .glbl 0 = true) (major minor : BitVec 8) :
    Answers (.ifNegotiate tag major minor) s ((s.setF (pageAddr pGLBL 0x48) 0 (major ++ minor)).negotiate major minor) := by
  have hrow : PageKind.glbl.spec 0x48 = some (RegSpec.lowField 0x48 16 0) := by decide
  have hfits : (0#16 ++ major ++ minor : Word).toNat < 2 ^ 16 := by
    rw [negotiateWord_eq, BitVec.toNat_setWidth_of_le (by decide)]
    exact (major ++ minor).isLt
  have hw := and_not_writable_lowField (k := .glbl) (off := 0x48) (by decide) (by decide) 0 hfits
  refine congrArg Host.Outcome.next ?_
  rw [State.access_register h (by decide) (by decide) (by decide) (by decide) hrow, State.regWrite_stored hw rfl rfl,
    State.regStore_lowField (.inl rfl) (by decide) 0 hfits]
  simp only [State.regAct, if_true, negotiateWord_major, negotiateWord_minor]
  rw [negotiateWord_eq, State.setF_low]

/-- IF_CAP is as before once IF_NEGOTIATE is stored. -/
theorem State.ifCap_stored (h : s.canonical = true) (w : BitVec 16) (lo n : Nat) :
    (s.setF (pageAddr pGLBL 0x48) 0 w).fld (pageAddr pGLBL 0x44) lo n = s.fld (pageAddr pGLBL 0x44) lo n :=
  congrArg (·.extractLsb' lo n) (State.rd_setF_of_ne h (by decide) 0 w)

/-! ## Declarations (R56, R57) -/

/-- The declarations as R56 lays them out: index, width of the field, least and greatest value. -/
def declarations : List (BitVec 3 × Nat × Nat × Nat) :=
  [(0, 16, 1, 65535), (1, 20, 1, 1048575), (2, 24, 1, 16777215), (3, 12, 0, 4095), (4, 12, 100, 2000), (5, 12, 500, 2000)]

/-- The offset of a declaration. -/
def declOffset (i : BitVec 3) : Nat := 0x44 + 4 * i.toNat

/-- The row of a declaration. -/
def declRow (x : BitVec 3 × Nat × Nat × Nat) : RegSpec :=
  RegSpec.lowField (declOffset x.1) x.2.1 (regReset (pageAddr pINTG (declOffset x.1)))

/-- The model's tables of the INTG page are R56's. -/
theorem spec_declaration : ∀ x ∈ declarations, PageKind.intg.spec (declOffset x.1) = some (declRow x) := by decide
theorem integRange_declaration : ∀ x ∈ declarations, integRange (declOffset x.1) = some x.2.2 := by decide
theorem integWidth_declaration : ∀ x ∈ declarations, integWidth (declOffset x.1) = x.2.1 := by decide
theorem bounds_declaration : ∀ x ∈ declarations, x.1.toNat < 6 ∧ x.2.1 < 32 := by decide

section
variable {x : BitVec 3 × Nat × Nat × Nat} {v : Word}

/-- What refuses a declaration: LOCK, of the first four, before the range of the field (R57). -/
theorem State.integBad_declaration (hx : x ∈ declarations) (hv : v.toNat < 2 ^ x.2.1) :
    s.integBad (declOffset x.1) v =
      if s.flag (pageAddr pINTG 0x40) 0 = true ∧ x.1.toNat < 4 then some 16
      else if v.toNat < x.2.2.1 ∨ x.2.2.2 < v.toNat then some 17
      else none := by
  have hfour : declOffset x.1 < 0x54 ↔ x.1.toNat < 4 := by unfold declOffset; omega
  simp only [State.integBad, integRange_declaration x hx, integWidth_declaration x hx, Nat.mod_eq_of_lt hv, hfour]

/-- A declaration that LOCK does not cover: LOCK is 0, or it is one of the last two. -/
theorem State.not_locked_iff (i : BitVec 3) : ¬(s.flag (pageAddr pINTG 0x40) 0 = true ∧ i.toNat < 4) ↔
    s.flag (pageAddr pINTG 0x40) 0 = false ∨ 4 ≤ i.toNat := by
  rw [Decidable.not_and_iff_or_not, Bool.not_eq_true, Nat.not_lt]

/-- The INTG page's registers have the refusals of R57 alone. -/
theorem State.refuses_intg (off : Nat) (r : RegSpec) (v : Word) : s.refuses .intg inst off r v none = s.integBad off v := rfl

/-- A write of a declaration is the write of its register. -/
theorem answers_integDeclare (h : s.reaches tag pINTG .intg 0 = true) (hx : x ∈ declarations) (v : Word) :
    Answers (.integDeclare tag x.1 v) s (s.regWrite pINTG .intg 0 (declOffset x.1) (declRow x) v) := by
  obtain ⟨hi, -⟩ := bounds_declaration x hx
  have hoff : 0x40 ≤ declOffset x.1 ∧ declOffset x.1 < 0x1000 ∧ declOffset x.1 % 4 = 0 := by unfold declOffset; omega
  obtain ⟨hlo, hhi, h4⟩ := hoff
  exact congrArg Host.Outcome.next (State.access_register h hlo hhi h4 (by decide) (spec_declaration x hx) v)

/-- A value that fits has no bit outside its declaration's field. -/
theorem and_not_writable_declRow (hx : x ∈ declarations) (hv : v.toNat < 2 ^ x.2.1) :
    v &&& ~~~(declRow x).writable .intg (declOffset x.1) = 0#32 :=
  and_not_writable_lowField (by decide) (bounds_declaration x hx).2 _ hv

/-- A declaration that is refused sets its error bit alone. -/
theorem answers_integDeclare_refused (h : s.reaches tag pINTG .intg 0 = true) (hx : x ∈ declarations) (hv : v.toNat < 2 ^ x.2.1)
    {b : Nat} (hb : s.integBad (declOffset x.1) v = some b) : Answers (.integDeclare tag x.1 v) s (s.setErr pINTG b) := by
  rw [← State.regWrite_refused (inst := 0) (and_not_writable_declRow hx hv) ((State.refuses_intg ..).trans hb)]
  exact answers_integDeclare h hx v

/-- A declaration that nothing refuses is stored, and DECL_STATUS follows (R56). -/
theorem answers_integDeclare_stored (h : s.reaches tag pINTG .intg 0 = true) (hx : x ∈ declarations) (hv : v.toNat < 2 ^ x.2.1)
    (hb : s.integBad (declOffset x.1) v = none) :
    Answers (.integDeclare tag x.1 v) s
      ((s.wr (pageAddr pINTG (declOffset x.1))
        ((s.rd (pageAddr pINTG (declOffset x.1)) &&& ~~~BitVec.ofNat 32 (2 ^ x.2.1 - 1)) ||| v)).declared (declOffset x.1)) := by
  obtain ⟨hi, hn⟩ := bounds_declaration x hx
  have hoff : 0x44 ≤ declOffset x.1 ∧ declOffset x.1 ≤ 0x58 := by unfold declOffset; omega
  have hanswer := answers_integDeclare h hx v
  rw [State.regWrite_stored (and_not_writable_declRow hx hv) ((State.refuses_intg ..).trans hb) rfl, declRow,
    State.regStore_lowField (.inr rfl) hn _ hv] at hanswer
  simpa only [State.regAct, if_pos hoff] using hanswer

/-- DECL_STATUS once declaration `i` is stored: its WRITTEN bit, and DECLARED with all six. -/
theorem State.declared_declOffset (s : State) (i : BitVec 3) :
    s.declared (declOffset i) =
      (let u := s.setBit (pageAddr pINTG 0x5C) i.toNat true
       if u.fld (pageAddr pINTG 0x5C) 0 6 = 0x3F#6 then u.setBit (pageAddr pINTG 0x5C) 31 true else u) := by
  have hi : (declOffset i - 0x44) / 4 = i.toNat := by unfold declOffset; omega
  simp only [State.declared, hi]

end

/-! ## The lock (R56, R57) -/

/-- INTEG_LOCK sets LOCK. -/
theorem answers_integLock (h : s.reaches tag pINTG .intg 0 = true) :
    Answers (.integLock tag) s (s.setBit (pageAddr pINTG 0x40) 0 true) := by
  have hrow : PageKind.intg.spec 0x40 = some ⟨0x40, 0, 1, 0, 0, 1, 0, 0, true, []⟩ := by decide
  refine congrArg Host.Outcome.next ?_
  rw [State.access_register h (by decide) (by decide) (by decide) (by decide) hrow, State.regWrite_stored (by decide) rfl rfl]
  have hset : s.setBit (pageAddr pINTG 0x40) 0 true = s.wr (pageAddr pINTG 0x40) (s.rd (pageAddr pINTG 0x40) ||| 1#32) := by
    rw [← and_not_or_self, State.setBit, State.setF_low]
    rfl
  have hstore := RegSpec.store_of_w1s (r := ⟨0x40, 0, 1, 0, 0, 1, 0, 0, true, []⟩) rfl rfl 1 (s.rd (pageAddr pINTG 0x40)) 1
  rw [hset]
  exact congrArg (fun w => (s.wr (pageAddr pINTG 0x40) w).answerRdp 0 0) hstore

/-- A write of a header register below the functional ones is the header's own write. -/
theorem State.access_header (h : s.reaches tag page k inst = true) (hoff : off < 0x40) (h4 : off % 4 = 0) (v : Word) :
    s.access (write32 tag (pageAddr page off) v) = (s.headerWrite page k inst off v).answerRdp 0 0 := by
  rw [State.access_write32 h (by omega) h4 (fun _ => .inl hoff), State.wordWrite, if_pos hoff]

/-- A write of INTG's PG_IRQEN: a 1 on a reserved bit sets RO_WRITE; LOCK refuses the write with LOCKED_WRITE; otherwise its bits
are stored. -/
theorem State.headerWrite_irqen (h : s.canonical = true) (v : Word) :
    s.headerWrite pINTG .intg 0 0x18 v =
      (let t := if v &&& ~~~(headerSpec 0x18).rw ≠ 0 then s.setErr pINTG 2 else s
       if s.flag (pageAddr pINTG 0x40) 0 = true then t.setErr pINTG 16
       else t.wr (pageAddr pINTG 0x18) (v &&& (headerSpec 0x18).rw)) := by
  have hmasks : (headerSpec 0x18).rw ||| (headerSpec 0x18).w1c ||| (headerSpec 0x18).w1s = (headerSpec 0x18).rw := by decide
  have hlock : (s.setErr pINTG 2).flag (pageAddr pINTG 0x40) 0 = s.flag (pageAddr pINTG 0x40) 0 :=
    State.flag_setErr_of_ne h (by decide) 2 0
  unfold State.headerWrite
  by_cases hro : v &&& ~~~(headerSpec 0x18).rw = 0#32
  · simp [hmasks, hro]
  · simp [hmasks, hro, roWrite, hlock]

/-- The access of PG_IRQEN, as a REGISTER_WRITE. -/
theorem answers_irqen (h : s.canonical = true) (hr : s.reaches tag pINTG .intg 0 = true) (v : Word) :
    Answers (.registerWrite tag (BitVec.ofNat 26 (pageAddr pINTG 0x18)) 0x0F (0#32 ++ v)) s
      (let t := if v &&& ~~~(headerSpec 0x18).rw ≠ 0 then s.setErr pINTG 2 else s
       if s.flag (pageAddr pINTG 0x40) 0 = true then t.setErr pINTG 16
       else t.wr (pageAddr pINTG 0x18) (v &&& (headerSpec 0x18).rw)) := by
  rw [← State.headerWrite_irqen h v]
  exact congrArg Host.Outcome.next (State.access_header hr (off := 0x18) (by decide) (by decide) v)

/-- Settles O11: negotiation by stream and major version, each declaration by LOCK and its range, PG_IRQEN by LOCK. -/
theorem negotiationAndDeclarations : Obligations.NegotiationAndDeclarations := by
  refine ⟨fun s tag major minor h hr => ?_, fun s tag h hr => ⟨fun x hx v hv => ?_, fun v => ?_, answers_integLock hr⟩⟩
  · have hanswer := answers_ifNegotiate hr major minor
    have hon : (s.setF (pageAddr pGLBL 0x48) 0 (major ++ minor)).anyStreamOn = s.anyStreamOn := rfl
    have hmajor := State.ifCap_stored h (major ++ minor) 8 8
    have hminor := State.ifCap_stored h (major ++ minor) 0 8
    refine ⟨fun hs => ?_, fun hs hm => ?_, fun hs hm => ?_⟩
    · rwa [State.negotiate_busy (hon.trans hs)] at hanswer
    · rw [State.negotiate_agreed (hon.trans hs) (hm.trans hmajor.symm), hminor] at hanswer
      exact hm ▸ hanswer
    · rwa [State.negotiate_rejected (hon.trans hs) (hmajor ▸ hm), hmajor] at hanswer
  · have hbad := State.integBad_declaration (s := s) hx hv
    refine ⟨fun hlock h4 => ?_, fun hopen hout => ?_, fun hopen hlo hhi => ?_⟩
    · exact answers_integDeclare_refused hr hx hv (by rw [hbad, if_pos ⟨hlock, h4⟩])
    · refine answers_integDeclare_refused hr hx hv ?_
      rw [hbad, if_neg ((State.not_locked_iff x.1).mpr hopen), if_pos hout]
    · have hnone : s.integBad (declOffset x.1) v = none := by
        rw [hbad, if_neg ((State.not_locked_iff x.1).mpr hopen), if_neg (by omega)]
      have hanswer := answers_integDeclare_stored hr hx hv hnone
      rwa [State.declared_declOffset] at hanswer
  · have hanswer := answers_irqen h hr v
    refine ⟨fun hlock => ?_, fun hlock => ?_⟩
    · rwa [hlock, if_pos rfl] at hanswer
    · rwa [hlock, if_neg (by decide)] at hanswer

end Sys2Proof.Machine
end

section
/-! SUPPORT. Skerry instructions that write one register and go on: the ALU row of R215 and the immediate instructions of R214. An
instruction that a thread stands at is run in the state that has given it the slot; the result it writes is the model's bit-vector
operation, read as the spec's arithmetic. -/
namespace Sys2Proof.Machine

variable {s u : State} {c : BitVec 4} {t : BitVec 3} {w : Word} {i : Instr} {v : Dword}

/-! ## Words as numbers -/

/-- A difference modulo 2^64. -/
theorem sub_eq_ofInt (a b : Dword) : a - b = BitVec.ofInt 64 ((a.toNat : Int) - b.toNat) := by
  rw [Int.sub_eq_add_neg, BitVec.ofInt_add, BitVec.ofInt_neg, BitVec.ofInt_natCast, BitVec.ofInt_natCast, BitVec.ofNat_toNat,
    BitVec.ofNat_toNat, BitVec.setWidth_eq, BitVec.setWidth_eq, BitVec.sub_eq_add_neg]

/-- A left shift multiplies. -/
theorem shiftLeft_eq_ofNat (a : Dword) (n : Nat) : a <<< n = BitVec.ofNat 64 (a.toNat * 2 ^ n) :=
  BitVec.eq_of_toNat_eq (by rw [BitVec.toNat_shiftLeft, Nat.shiftLeft_eq, BitVec.toNat_ofNat])

/-- A logical right shift divides the unsigned value. -/
theorem ushiftRight_eq_ofNat (a : Dword) (n : Nat) : a >>> n = BitVec.ofNat 64 (a.toNat / 2 ^ n) := by
  have hlt : a.toNat / 2 ^ n < 2 ^ 64 := Nat.lt_of_le_of_lt (Nat.div_le_self _ _) a.isLt
  apply BitVec.eq_of_toNat_eq
  rw [BitVec.toNat_ushiftRight, Nat.shiftRight_eq_div_pow, BitVec.toNat_ofNat, Nat.mod_eq_of_lt hlt]

/-- An arithmetic right shift divides the signed value, rounding down. -/
theorem sshiftRight_eq_ofInt (a : Dword) (n : Nat) : a.sshiftRight n = BitVec.ofInt 64 (a.toInt / 2 ^ n) := by
  rw [BitVec.sshiftRight_eq, Int.shiftRight_eq_div_pow, Int.natCast_pow, Int.cast_ofNat_Int]

/-- A product modulo 2^64. -/
theorem mul_eq_ofNat (a b : Dword) : a * b = BitVec.ofNat 64 (a.toNat * b.toNat) :=
  BitVec.eq_of_toNat_eq (by rw [BitVec.toNat_mul, BitVec.toNat_ofNat])

/-- The high half of the 128-bit product. -/
theorem mulHigh_eq_ofNat (a b : Dword) :
    (a.setWidth 128 * b.setWidth 128).extractLsb' 64 64 = BitVec.ofNat 64 (a.toNat * b.toNat / 2 ^ 64) := by
  have hlt : a.toNat * b.toNat < 2 ^ (64 + 64) := Nat.pow_add 2 64 64 ▸ Nat.mul_lt_mul'' a.isLt b.isLt
  apply BitVec.eq_of_toNat_eq
  rw [BitVec.extractLsb'_toNat, BitVec.toNat_mul, BitVec.toNat_setWidth_of_le (by decide), BitVec.toNat_setWidth_of_le (by decide),
    Nat.mod_eq_of_lt hlt, Nat.shiftRight_eq_div_pow, BitVec.toNat_ofNat]

/-- A choice by the signed comparison. -/
theorem ite_slt (a b x y : Dword) : (if a.slt b then x else y) = if a.toInt < b.toInt then x else y := by
  simp only [BitVec.slt_iff_toInt_lt]

/-- The sum with the sign-extended immediate. -/
theorem add_iSext_eq_ofInt (a : Dword) (w : Word) : a + iSext w = BitVec.ofInt 64 (a.toInt + (iImm w).toInt) := by
  rw [BitVec.ofInt_add, BitVec.ofInt_toInt, iSext, BitVec.signExtend]

/-- LUI's result: the sign-extended immediate in bits 16 and up. -/
theorem iSext_shiftLeft_eq_ofInt (w : Word) : iSext w <<< 16 = BitVec.ofInt 64 ((iImm w).toInt * 65536) := by
  rw [BitVec.shiftLeft_eq_mul_twoPow, BitVec.ofInt_mul, iSext, BitVec.signExtend]
  rfl

/-- The immediate, zero-extended. -/
theorem iZext_eq_ofNat (w : Word) : iZext w = BitVec.ofNat 64 (iImm w).toNat := (BitVec.ofNat_toNat 64 (iImm w)).symm

/-- The signed value of the immediate, sign-extended. -/
theorem toInt_iSext (w : Word) : (iSext w).toInt = (iImm w).toInt := BitVec.toInt_signExtend_of_le (by decide)

/-! ## The instruction a thread stands at -/

/-- A write of a register leaves the thread's state and lines. -/
@[simp] theorem Thread.setReg_st (th : Thread) (n : Nat) (v : Dword) : (th.setReg n v).st = th.st := by
  unfold Thread.setReg; split <;> rfl
@[simp] theorem Thread.setReg_lines (th : Thread) (n : Nat) (v : Dword) : (th.setReg n v).lines = th.lines := by
  unfold Thread.setReg; split <;> rfl

/-- A write of a register, and how long the thread has waited for the slot, are apart. -/
theorem Thread.setReg_idle (th : Thread) (n : Nat) (v : Dword) (k : Nat) :
    { th with idle := k }.setReg n v = { th.setReg n v with idle := k } := by
  unfold Thread.setReg; split <;> rfl

/-- What it is to stand at an instruction. -/
theorem State.standsAt_iff : s.standsAt c t w = true ↔
    s.canonical = true ∧ s.mayRun c t = true ∧ s.brkAtFirst c t = false ∧ s.insn c t = w ∧
      (s.thread c t).pc + 4 ≠ blkLen ((s.thread c t).lines.getD 0 0) := by
  simp only [State.standsAt, State.at, State.notLast, Bool.and_eq_true, Bool.not_eq_true', decide_eq_true_eq, and_assoc]

/-- The command of the instruction that the thread stands at runs it, the slot being the thread's. -/
theorem State.runInsn_standsAt (h : s.standsAt c t w = true) {f : Word → Bool} (hf : f w = true)
    (sem : Word → BitVec 4 → BitVec 3 → State → State) : s.runInsn c t f sem = sem w c t (s.takeSlot c t) := by
  obtain ⟨-, hrun, hbrk, rfl, -⟩ := State.standsAt_iff.mp h
  simp [State.runInsn, hrun, hf, hbrk]

/-- Taking the slot leaves the registers of the thread. -/
theorem State.reg_takeSlot (h : s.canonical = true) (n : Nat) : ((s.takeSlot c t).thread c t).reg n = (s.thread c t).reg n := by
  rw [(LeavesRest.takeSlot (State.canonical_iff.mp h)).2]
  rfl

/-- An instruction that writes a register and goes on at PC + 4 changes nothing else. -/
theorem runs_writeOn (h : s.standsAt c t w = true) {rd : Nat} (hexec : exec i s = .next ((s.takeSlot c t).writeOn c t rd v)) :
    Runs i s c t (((s.thread c t).setReg rd v).after ((s.thread c t).pc + 4)) := by
  obtain ⟨hcanon, hrun, -, -, hlast⟩ := State.standsAt_iff.mp h
  have hkept := State.canonical_iff.mp hcanon
  have hslot := (LeavesRest.takeSlot (c := c) (t := t) hkept).2
  have hwrite : (s.takeSlot c t).writeOn c t rd v = ((s.takeSlot c t).setThread c t
      { (s.thread c t).setReg rd v with idle := 0 }).retire c t ((s.thread c t).pc + 4) := by
    rw [State.writeOn, State.setReg, hslot, Thread.setReg_idle]
  obtain ⟨hrest, hthread⟩ := LeavesRest.ran hkept { (s.thread c t).setReg rd v with idle := 0 } ((s.thread c t).pc + 4) hrun
    (Thread.setReg_st _ _ _) (by simpa using hlast)
  exact ⟨_, hexec.trans (congrArg Host.Outcome.next hwrite), hthread, hrest⟩

/-! ## The ALU row (R215) -/

/-- The words of the ALU instruction `n`. -/
def aluRow (n : Nat) (w : Word) : Bool := decide (iOp w = 1 ∧ w.toNat % 16 = n)

/-- An ALU word with fn[10:4] = 0 writes the result of the operation fn[3:0]. -/
theorem semAlu_eq_writeOn (h : w.extractLsb' 4 7 = 0#7) :
    semAlu w c t u =
      u.writeOn c t (iRd w) (aluOp (w.toNat % 16) ((u.thread c t).reg (iRs1 w)) ((u.thread c t).reg (iRs2 w))) := by
  have hhigh : (iFn w).extractLsb' 4 7 = w.extractLsb' 4 7 := by ext j hj; simp [iFn]
  have hlow : (iFn w).toNat % 16 = w.toNat % 16 := by simp [iFn]
  rw [semAlu, if_pos (hhigh.trans h), hlow]

/-- The command ADD, which also takes the words of reserved opcodes (log entry 10), is the row's command 0 at an ALU word. -/
theorem exec_add_standsAt (h : s.standsAt c t w = true) (hop : iOp w = 1) :
    exec (.add c t) s = .next (s.runInsn c t (aluRow 0) semAlu) := by
  obtain ⟨-, -, -, rfl, -⟩ := State.standsAt_iff.mp h
  have hassigned : assignedOp 1 = true := by decide
  change execAdd c t s = _
  simp [execAdd, State.runInsn, aluRow, hop, hassigned]

/-- An ALU instruction writes its operation's result. -/
theorem runs_alu (h : s.standsAt c t w = true) (hop : iOp w = 1) (hfn : w.extractLsb' 4 7 = 0#7) {n : Nat}
    (hexec : exec i s = .next (s.runInsn c t (aluRow n) semAlu))
    (hv : aluOp n ((s.thread c t).reg (iRs1 w)) ((s.thread c t).reg (iRs2 w)) = v) (hn : w.toNat % 16 = n) :
    Runs i s c t (((s.thread c t).setReg (iRd w) v).after ((s.thread c t).pc + 4)) := by
  have hcanon := (State.standsAt_iff.mp h).1
  refine runs_writeOn h (hexec.trans (congrArg Host.Outcome.next ?_))
  rw [State.runInsn_standsAt h (decide_eq_true ⟨hop, hn⟩), semAlu_eq_writeOn hfn, State.reg_takeSlot hcanon,
    State.reg_takeSlot hcanon, hn, hv]

/-! ## Immediates (R214) -/

/-- SLTI compares with the signed immediate. -/
theorem immOp_slti (a : Dword) (w : Word) : immOp 8 a w = if a.toInt < (iImm w).toInt then 1 else 0 :=
  toInt_iSext w ▸ ite_slt _ _ _ _

/-- ADDI, ANDI, ORI, XORI and SLTI write their operation's result. -/
theorem runs_imm (h : s.standsAt c t w = true) {op : Nat} (hop : iOp w = op)
    (hexec : exec i s = .next (s.runInsn c t (fun w => decide (iOp w = op)) semImm))
    (hv : immOp op ((s.thread c t).reg (iRs1 w)) w = v) :
    Runs i s c t (((s.thread c t).setReg (iRd w) v).after ((s.thread c t).pc + 4)) := by
  refine runs_writeOn h (hexec.trans (congrArg Host.Outcome.next ?_))
  rw [State.runInsn_standsAt h (decide_eq_true hop), semImm, State.reg_takeSlot (State.standsAt_iff.mp h).1, hop, hv]

/-- The code of a shift by an immediate, in the word itself. -/
theorem shiftCode_eq {code : Nat} (hlt : code < 3) (hcode : (iImm w).toNat / 64 = code) : w.toNat / 64 % 4 = code := by
  have : (iImm w).toNat = w.toNat % 2 ^ 16 := by simp [iImm]
  omega

/-- The shifts by an immediate, by code. -/
def shiOp (code : Nat) (a : Dword) (n : Nat) : Dword :=
  if code = 0 then a <<< n else if code = 1 then a >>> n else a.sshiftRight n

/-- A shift by an immediate, with bits [15:8] of the immediate 0 and a code below 3, writes the shifted value. -/
theorem semShi_eq_writeOn {code : Nat} (hlt : code < 3) (hcode : (iImm w).toNat / 64 = code) :
    semShi w c t u = u.writeOn c t (iRd w) (shiOp code ((u.thread c t).reg (iRs1 w)) ((iImm w).toNat % 64)) := by
  have hhigh : (iImm w).extractLsb' 8 8 = 0#8 := by
    apply BitVec.eq_of_toNat_eq
    rw [BitVec.extractLsb'_toNat, Nat.shiftRight_eq_div_pow, BitVec.toNat_ofNat]
    omega
  have hmod : (iImm w).toNat / 64 % 4 = code := by omega
  simp only [semShi, shiOp, hmod, hhigh, ne_eq, not_true_eq_false, false_or, if_neg (Nat.ne_of_lt hlt)]

/-- A shift by an immediate writes its result. -/
theorem runs_shi (h : s.standsAt c t w = true) {code : Nat} (hlt : code < 3) (hcode : (iImm w).toNat / 64 = code)
    {f : Word → Bool} (hexec : exec i s = .next (s.runInsn c t f semShi)) (hf : w.toNat / 64 % 4 = code → f w = true)
    (hv : shiOp code ((s.thread c t).reg (iRs1 w)) ((iImm w).toNat % 64) = v) :
    Runs i s c t (((s.thread c t).setReg (iRd w) v).after ((s.thread c t).pc + 4)) := by
  have hword := hf (shiftCode_eq hlt hcode)
  refine runs_writeOn h (hexec.trans (congrArg Host.Outcome.next ?_))
  rw [State.runInsn_standsAt h hword, semShi_eq_writeOn hlt hcode, State.reg_takeSlot (State.standsAt_iff.mp h).1, hv]

/-- LUI with rs1 = 0 writes the immediate, shifted. -/
theorem runs_lui (h : s.standsAt c t w = true) (hop : iOp w = 7) (hrs1 : iRs1 w = 0) :
    Runs (.lui c t) s c t (((s.thread c t).setReg (iRd w) (BitVec.ofInt 64 ((iImm w).toInt * 65536))).after ((s.thread c t).pc + 4)) := by
  refine runs_writeOn h (congrArg Host.Outcome.next ?_)
  rw [State.runInsn_standsAt h (decide_eq_true hop), semLui, if_neg (not_not_intro hrs1), iSext_shiftLeft_eq_ofInt]

/-! ## R214, R215 -/

/-- Settles O2: at a word of its own, each command writes the model's result, which is the spec's arithmetic; in the order of the
statement, R215's sixteen instructions and R214's nine. -/
theorem aluResults : Obligations.AluResults := by
  refine ⟨fun s c t w h hop hfn => ?_, fun s c t w h => ?_⟩
  · have hadd := exec_add_standsAt h hop
    exact
      ⟨runs_alu h hop hfn hadd (BitVec.add_def _ _), runs_alu h hop hfn rfl (sub_eq_ofInt _ _),
        runs_alu h hop hfn rfl rfl, runs_alu h hop hfn rfl rfl, runs_alu h hop hfn rfl rfl,
        runs_alu h hop hfn rfl (shiftLeft_eq_ofNat _ _), runs_alu h hop hfn rfl (ushiftRight_eq_ofNat _ _),
        runs_alu h hop hfn rfl (sshiftRight_eq_ofInt _ _),
        runs_alu h hop hfn rfl (mul_eq_ofNat _ _), runs_alu h hop hfn rfl (mulHigh_eq_ofNat _ _),
        runs_alu h hop hfn rfl (ite_slt _ _ _ _), runs_alu h hop hfn rfl rfl,
        runs_alu h hop hfn rfl (ite_slt _ _ _ _), runs_alu h hop hfn rfl (ite_slt _ _ _ _),
        runs_alu h hop hfn rfl rfl, runs_alu h hop hfn rfl rfl⟩
  · have hzext := iZext_eq_ofNat w
    exact
      ⟨fun hop _ => runs_imm h hop rfl (add_iSext_eq_ofInt _ _),
        fun hop _ => runs_imm h hop rfl (congrArg (_ &&& ·) hzext), fun hop _ => runs_imm h hop rfl (congrArg (_ ||| ·) hzext),
        fun hop _ => runs_imm h hop rfl (congrArg (_ ^^^ ·) hzext),
        fun hop hp => runs_shi h (by decide) (of_decide_eq_true hp) rfl (fun hc => decide_eq_true ⟨hop, .inl hc⟩)
          (shiftLeft_eq_ofNat _ _),
        fun hop hp => runs_shi h (by decide) (of_decide_eq_true hp) rfl (fun hc => decide_eq_true ⟨hop, hc⟩)
          (ushiftRight_eq_ofNat _ _),
        fun hop hp => runs_shi h (by decide) (of_decide_eq_true hp) rfl (fun hc => decide_eq_true ⟨hop, hc⟩)
          (sshiftRight_eq_ofInt _ _),
        fun hop hp => runs_lui h hop (of_decide_eq_true hp),
        fun hop _ => runs_imm h hop rfl (immOp_slti _ _)⟩

end Sys2Proof.Machine
end

section
/-! SUPPORT. The SCAL page and SC12 codes (spec/11 R392 to R394, R399, R402): what a write of SCAL.INIT and of SCAL.CFG does to the
selected entry, and which code the bit-by-bit round-up finds. -/
namespace Sys2Proof.Machine

/-! ## The round-up (R393, R394) -/

/-- From `c` on, the search of `n` bits for the least number that satisfies `p`, bit by bit from the highest. -/
def bitSearch (p : Nat → Bool) : Nat → Nat → Nat
  | 0, c => c
  | n + 1, c => bitSearch p n (if p (c + 2 ^ n - 1) then c else c + 2 ^ n)

/-- Where `p` holds on from some number, the search of the numbers from `c` below `c + 2 ^ n` ends at the first that satisfies `p`,
and at the last of them where none does. -/
theorem bitSearch_spec {p : Nat → Bool} (hp : ∀ ⦃a b⦄, a ≤ b → p a = true → p b = true) (n c : Nat) :
    bitSearch p n c < c + 2 ^ n ∧ (p (bitSearch p n c) = true ∨ bitSearch p n c + 1 = c + 2 ^ n) ∧
      ∀ d, c ≤ d → d < bitSearch p n c → p d = false := by
  induction n generalizing c with
  | zero => exact ⟨by simp [bitSearch], .inr rfl, fun d hle hlt => absurd hlt (Nat.not_lt.mpr hle)⟩
  | succ n ih =>
    have hpow : 2 ^ (n + 1) = 2 ^ n + 2 ^ n := Nat.two_pow_succ n
    have hpos : 0 < 2 ^ n := Nat.two_pow_pos n
    unfold bitSearch
    split
    next hlow =>
      obtain ⟨hlt, hend, hleast⟩ := ih c
      refine ⟨by omega, .inl (hend.elim id fun hlast => ?_), hleast⟩
      rwa [show bitSearch p n c = c + 2 ^ n - 1 by omega]
    next hhigh =>
      obtain ⟨hlt, hend, hleast⟩ := ih (c + 2 ^ n)
      refine ⟨by omega, hend.imp_right (by omega), fun d _ hd => ?_⟩
      by_cases hside : c + 2 ^ n ≤ d
      · exact hleast d hside hd
      · exact Bool.eq_false_iff.mpr fun h => hhigh (hp (by omega) h)

/-- The SC12 values rise with the codes (R393): within a step of the exponent with the mantissa, and over it. -/
theorem sc12Value_le_succ (c : Nat) : (16 + c % 16) * 2 ^ (c / 16) ≤ (16 + (c + 1) % 16) * 2 ^ ((c + 1) / 16) := by
  by_cases hc : c % 16 = 15
  · have hmod : (c + 1) % 16 = 0 := by omega
    have hdiv : (c + 1) / 16 = c / 16 + 1 := by omega
    rw [hc, hmod, hdiv, Nat.pow_succ]
    omega
  · have hmod : (c + 1) % 16 = c % 16 + 1 := by omega
    have hdiv : (c + 1) / 16 = c / 16 := by omega
    rw [hmod, hdiv]
    exact Nat.mul_le_mul_right _ (by omega)

/-- A code above one whose value is not below the quotient has a value not below it either. -/
theorem sc12Ge_mono (num den : Nat) ⦃c d : Nat⦄ (hcd : c ≤ d) (h : sc12Ge c num den = true) : sc12Ge d num den = true := by
  induction hcd with
  | refl => exact h
  | @step d _ ih => exact decide_eq_true (Nat.le_trans (of_decide_eq_true ih) (Nat.mul_le_mul_right den (sc12Value_le_succ d)))

/-- The search as a fold over the bits. -/
theorem foldl_eq_bitSearch (p : Nat → Bool) (n c : Nat) :
    (List.range n).reverse.foldl (fun c b => if p (c + 2 ^ b - 1) then c else c + 2 ^ b) c = bitSearch p n c := by
  induction n generalizing c with
  | zero => rfl
  | succ n ih => rw [List.range_succ, List.reverse_concat, List.foldl_cons, ih, bitSearch]

/-- roundup_SC12 is the search of all 4,096 codes, raised to the least code that is not reserved. -/
theorem toNat_sc12Up (num den : Nat) : (sc12Up num den).toNat = max 0x010 (bitSearch (sc12Ge · num den) 12 0) := by
  obtain ⟨hlt, -, -⟩ := bitSearch_spec (sc12Ge_mono num den) 12 0
  have hsearch := foldl_eq_bitSearch (sc12Ge · num den) 12 0
  rw [sc12Up, hsearch, BitVec.toNat_ofNat]
  omega

/-- roundup_SC12 gives the least code whose value is not below the quotient, and the greatest code where none is (R394). -/
theorem sc12Up_least (num den : Nat) :
    0x010 ≤ (sc12Up num den).toNat ∧ (sc12Ge (sc12Up num den).toNat num den = true ∨ (sc12Up num den).toNat = 0xFFF) ∧
      ∀ d, 0x010 ≤ d → d < (sc12Up num den).toNat → sc12Ge d num den = false := by
  obtain ⟨-, hend, hleast⟩ := bitSearch_spec (sc12Ge_mono num den) 12 0
  rw [toNat_sc12Up]
  refine ⟨Nat.le_max_left .., hend.imp (sc12Ge_mono num den (Nat.le_max_right ..)) (by omega), fun d hlo hd => ?_⟩
  exact hleast d (Nat.zero_le d) (by omega)

/-! ## Writes of SCAL.INIT (R399) -/

variable {s : State} {tag : BitVec 13}

/-- The row of SCAL.INIT. -/
def scalInitRow : RegSpec := ⟨0x48, 0, 1, 0, 0, 0, 0xFFF, 0, false, []⟩

/-- The scale in the word of a write of SCAL.INIT lies in the writable bits. -/
theorem scalInitWord_and_mask (v : BitVec 12) : v.setWidth 32 &&& 0xFFF = v.setWidth 32 :=
  and_mask_of_lt (n := 12) (by decide) (by rw [BitVec.toNat_setWidth_of_le (by decide)]; exact v.isLt)

/-- Any field of the scale, in the word of a write of SCAL.INIT. -/
theorem scalInitWord_field (v : BitVec 12) {lo n : Nat} (h : lo + n ≤ 12) :
    (v.setWidth 32).extractLsb' lo n = v.extractLsb' lo n := by
  ext i hi
  have hbit : lo + i < 32 := by omega
  simp only [BitVec.getElem_extractLsb', BitVec.getLsbD_setWidth, hbit, decide_true, Bool.true_and]

/-- SCAL.INIT refuses a code of exponent 0 alone. -/
theorem State.refuses_scalInit (v : Word) :
    s.refuses .scal 0 0x48 scalInitRow v none = if v.extractLsb' 4 8 = 0#8 then some 16 else none := by
  simp [State.refuses, State.shut, idBad, RegSpec.rangeBad, scalInitRow, State.valueBad]

/-- The command SCAL_INIT is the write of its register. -/
theorem answers_scalInit (h : s.reaches tag pSCAL .scal 0 = true) (v : BitVec 12) :
    Answers (.scalInit tag v) s (s.regWrite pSCAL .scal 0 0x48 scalInitRow (v.setWidth 32)) :=
  congrArg Host.Outcome.next
    (State.access_register h (by decide) (by decide) (by decide) (by decide) (show PageKind.scal.spec 0x48 = _ by decide) _)

/-- A write of SCAL.INIT of a code of exponent 0 sets CFG_BAD alone. -/
theorem State.regWrite_scalInit_refused {v : BitVec 12} (hv : v.extractLsb' 4 8 = 0#8) :
    s.regWrite pSCAL .scal 0 0x48 scalInitRow (v.setWidth 32) = s.setErr pSCAL 16 := by
  refine State.regWrite_refused (and_not_of_and_eq (scalInitWord_and_mask v)) ?_
  rw [State.refuses_scalInit, scalInitWord_field v (by decide), if_pos hv]

/-- A write of SCAL.INIT of any other code begins the selected entry anew at this scale, with its configuration. -/
theorem State.regWrite_scalInit_stored {v : BitVec 12} (hv : v.extractLsb' 4 8 ≠ 0#8) :
    s.regWrite pSCAL .scal 0 0x48 scalInitRow (v.setWidth 32) =
      s.setScale (s.num (rSCAL 0x40) 0 14)
        { ScaleE.reset with
          scale := v, k := (s.scaleE (s.num (rSCAL 0x40) 0 14)).k, fmt := (s.scaleE (s.num (rSCAL 0x40) 0 14)).fmt } := by
  have hfree : s.refuses .scal 0 0x48 scalInitRow (v.setWidth 32) none = none := by
    rw [State.refuses_scalInit, scalInitWord_field v (by decide), if_neg hv]
  have hscale : (v.setWidth 32).extractLsb' 0 12 = v := by
    rw [scalInitWord_field v (by decide), BitVec.extractLsb'_eq_self]
  rw [State.regWrite_stored (and_not_of_and_eq (scalInitWord_and_mask v)) hfree rfl]
  change s.scalInit (v.setWidth 32 &&& 0xFFF) = _
  rw [scalInitWord_and_mask, State.scalInit, scalInitWord_field v (by decide), if_neg hv, hscale]

/-! ## Writes of SCAL.CFG (R392, R399) -/

/-- The row of SCAL.CFG. -/
def scalCfgRow : RegSpec := ⟨0x44, 0, 1, 0x7003F, 0, 0, 0, 3, false, [(0, 6, 0, 15)]⟩

/-- The word of a write of SCAL.CFG. -/
def scalCfgWord (k : BitVec 3) (f : BitVec 6) : Word := 0#13 ++ k ++ 0#10 ++ f

/-- The fields of the word of a write of SCAL.CFG. -/
theorem scalCfgWord_format (k : BitVec 3) (f : BitVec 6) : (scalCfgWord k f).extractLsb' 0 6 = f :=
  BitVec.extractLsb'_append_eq_right
theorem scalCfgWord_k (k : BitVec 3) (f : BitVec 6) : (scalCfgWord k f).extractLsb' 16 3 = k := by
  rw [scalCfgWord, BitVec.extractLsb'_append_eq_of_le (by decide), BitVec.extractLsb'_append_eq_of_le (by decide)]
  exact BitVec.extractLsb'_append_eq_right

/-- The two fields are the writable bits. -/
theorem scalCfgWord_and_not (k : BitVec 3) (f : BitVec 6) : scalCfgWord k f &&& ~~~scalCfgRow.writable .scal 0x44 = 0#32 := by
  have hmask : ~~~scalCfgRow.writable .scal 0x44 = BitVec.allOnes 13 ++ 0#3 ++ BitVec.allOnes 10 ++ 0#6 := by decide
  rw [hmask, scalCfgWord, BitVec.and_append, BitVec.and_append, BitVec.and_append]
  simp only [BitVec.zero_and, BitVec.and_zero]
  rfl

/-- SCAL.CFG refuses a format without code alone. -/
theorem State.refuses_scalCfg (k : BitVec 3) (f : BitVec 6) :
    s.refuses .scal 0 0x44 scalCfgRow (scalCfgWord k f) none = if 15 < f.toNat then some 16 else none := by
  have hf : (scalCfgWord k f).toNat % 64 = f.toNat := by
    simpa using congrArg BitVec.toNat (scalCfgWord_format k f)
  simp [State.refuses, State.shut, idBad, RegSpec.rangeBad, scalCfgRow, State.valueBad, hf, rangeErr]

/-- The command SCAL_CFG is the write of its register. -/
theorem answers_scalCfg (h : s.reaches tag pSCAL .scal 0 = true) (k : BitVec 3) (f : BitVec 6) :
    Answers (.scalCfg tag k f) s (s.regWrite pSCAL .scal 0 0x44 scalCfgRow (scalCfgWord k f)) :=
  congrArg Host.Outcome.next
    (State.access_register h (by decide) (by decide) (by decide) (by decide) (show PageKind.scal.spec 0x44 = _ by decide) _)

/-- A write of SCAL.CFG of a format without code sets CFG_BAD alone. -/
theorem State.regWrite_scalCfg_refused (k : BitVec 3) {f : BitVec 6} (hf : 15 < f.toNat) :
    s.regWrite pSCAL .scal 0 0x44 scalCfgRow (scalCfgWord k f) = s.setErr pSCAL 16 :=
  State.regWrite_refused (scalCfgWord_and_not k f) (by rw [State.refuses_scalCfg, if_pos hf])

/-- A write of SCAL.CFG of any other format sets the history length and the format of the selected entry. -/
theorem State.regWrite_scalCfg_stored (k : BitVec 3) {f : BitVec 6} (hf : f.toNat ≤ 15) :
    s.regWrite pSCAL .scal 0 0x44 scalCfgRow (scalCfgWord k f) =
      s.setScale (s.num (rSCAL 0x40) 0 14) { s.scaleE (s.num (rSCAL 0x40) 0 14) with k := k, fmt := f } := by
  have hfree : s.refuses .scal 0 0x44 scalCfgRow (scalCfgWord k f) none = none := by
    rw [State.refuses_scalCfg, if_neg (Nat.not_lt.mpr hf)]
  rw [State.regWrite_stored (scalCfgWord_and_not k f) hfree rfl]
  change s.scalCfg (scalCfgWord k f) = _
  rw [State.scalCfg, scalCfgWord_format, scalCfgWord_k, if_pos hf]

/-- Settles O31: SCAL.INIT and SCAL.CFG store or refuse by their register's own rule, and the round-up's search is bit by bit. -/
theorem scales : Obligations.Scales := by
  refine ⟨fun s tag _ hr => ⟨fun v hv => ?_, fun v hv => ?_, fun k f hf => ?_, fun k f hf => ?_⟩,
    fun num den _ => sc12Up_least num den⟩
  · exact State.regWrite_scalInit_stored hv ▸ answers_scalInit hr v
  · exact State.regWrite_scalInit_refused hv ▸ answers_scalInit hr v
  · exact State.regWrite_scalCfg_stored k hf ▸ answers_scalCfg hr k f
  · exact State.regWrite_scalCfg_refused k hf ▸ answers_scalCfg hr k f

end Sys2Proof.Machine
end

section
/-! SUPPORT. Beacon (spec/13 R432 to R437, R439, R443): a read of CLAIM, the writes of COMPLETE, SW and SW_CLR, the level sources
and the end of a hold-off. -/
namespace Sys2Proof.Machine

variable {s : State} {tag : BitVec 13} {page inst off : Nat} {k : PageKind}

/-! ## Registers and bits -/

/-- A canonical table in which a key is written with what it holds is the same table. -/
theorem Tbl.set_get {α : Type} [DecidableEq α] {d : Nat → α} {lo : Option Nat} {t : Tbl α} (h : Tbl.wfFrom d lo t = true)
    (key : Nat) : Tbl.set d t key (Tbl.get d t key) = t := by
  induction t generalizing lo with
  | nil => simp [Tbl.get, Tbl.set, Tbl.erase]
  | cons x t ih =>
    obtain ⟨key', v'⟩ := x
    simp only [Tbl.wfFrom, Bool.and_eq_true, decide_eq_true_eq] at h
    obtain ⟨⟨-, hv'⟩, htail⟩ := h
    have hkeep := ih htail
    by_cases heq : key = key'
    · subst heq
      simp [Tbl.get, Tbl.set, Tbl.insert, hv']
    · by_cases hd : Tbl.get d t key = d key
      · rw [Tbl.set, if_pos hd] at hkeep
        simp [Tbl.get, Tbl.set, Tbl.erase, heq, hd, hkeep]
      · have hlt : ¬key < key' := fun hlt => hd (Tbl.get_below htail (Nat.le_of_lt hlt))
        rw [Tbl.set, if_neg hd] at hkeep
        simp [Tbl.get, Tbl.set, Tbl.insert, heq, hd, hlt, hkeep]

/-- A register written with what it holds changes nothing. -/
theorem State.wr_rd (h : Tbl.wf regReset s.regs = true) (key : Nat) : s.wr key (s.rd key) = s :=
  congrArg (fun regs => { s with regs := regs }) (Tbl.set_get h key)

/-- A register after a counter has been advanced. -/
theorem State.rd_bump (h : Tbl.wf regReset s.regs = true) (key key' : Nat) :
    (s.bump key).rd key' = if key' = key then satAdd (s.rd key) 1 else s.rd key' := State.rd_wr h _ _ _

/-- The registers stay a canonical table when a bit is set or cleared. -/
theorem State.regs_setBit (h : Tbl.wf regReset s.regs = true) (key i : Nat) (b : Bool) :
    Tbl.wf regReset (s.setBit key i b).regs = true := Tbl.wf_set h

/-- A bit of a register after a bit has been set or cleared. -/
theorem State.flag_setBit (h : Tbl.wf regReset s.regs = true) {key key' i i' : Nat} (hi : i' < 32) (b : Bool) :
    (s.setBit key i b).flag key' i' = if key' = key ∧ i' = i then b else s.flag key' i' := by
  have hone : i ≤ i' ∧ i' < i + 1 ↔ i' = i := by omega
  simp only [State.flag, State.setBit, State.setF, State.rd_wr h]
  by_cases hkey : key' = key
  · subst hkey
    simp only [if_true, true_and, getLsbD_putBits, hi, decide_true, Bool.true_and, hone]
    by_cases hbit : i' = i
    · subst hbit
      simp
    · simp only [if_neg hbit]
  · simp only [hkey, false_and, if_false]

/-- A word with no bit outside a mask is not above it. -/
theorem toNat_le_of_and_not {v m : Word} (h : v &&& ~~~m = 0#32) : v.toNat ≤ m.toNat := by
  have hall : m ||| ~~~m = BitVec.allOnes 32 := BitVec.or_not_self m
  have hwithin : v &&& m = v := by
    calc v &&& m = v &&& m ||| v &&& ~~~m := by rw [h]; exact BitVec.or_zero.symm
      _ = v &&& (m ||| ~~~m) := BitVec.and_or_distrib_left.symm
      _ = v := by rw [hall, BitVec.and_allOnes]
  have hand := congrArg BitVec.toNat hwithin
  rw [BitVec.toNat_and] at hand
  exact hand ▸ Nat.and_le_right

/-! ## Accesses -/

/-- What it is for a register of a page to be reached. -/
theorem State.reaches_iff : s.reaches tag page k inst = true ↔
    s.pwr.mode = .active ∧ s.flag (pageAddr pGLBL 0x70) 0 = true ∧ tag.getLsbD 12 = true ∧ pageAt page = some (k, inst) ∧
      (k ≠ .eprt ∨ inst < s.ecpCount) ∧ s.unitOn k inst = true ∧ s.srstBusy page = false ∧ s.rdp.waits = false := by
  simp only [State.reaches, Bool.and_eq_true, Bool.or_eq_true, Bool.not_eq_true', decide_eq_true_eq, and_assoc]

/-- An active block has no clock to start again. -/
theorem State.idleExit_of_active (h : s.pwr.mode = .active) : s.idleExit = s := by
  simp [State.idleExit, h]

/-- A 32-bit privileged read of a register takes effect as the read of its word, in its half of the data. -/
theorem State.access_read32 (h : s.reaches tag page k inst = true) (hhi : off < 0x1000) (h4 : off % 4 = 0) (hk : k ≠ .time) :
    s.access (read32 tag (pageAddr page off)) =
      (let r := s.wordReadAt page k inst off
       r.1.answerRdp (if off % 8 = 4 then r.2 ++ 0#32 else 0#32 ++ r.2) 0) := by
  obtain ⟨hmode, hinit, hpriv, hpage, -, -, -, hwaits⟩ := State.reaches_iff.mp h
  obtain ⟨x, hx⟩ : ∃ x, x = read32 tag (pageAddr page off) := ⟨_, rfl⟩
  have hslot := slot_lt hpage
  have hmod : pageAddr page off % 8 = off % 8 := by unfold pageAddr; omega
  have haddr : x.addr.toNat = pageAddr page off := by
    rw [hx, read32, BitVec.toNat_ofNat, Nat.mod_eq_of_lt (by unfold pageAddr; omega)]
  have hregion : x.region = .page page k inst off := by rw [Access.region, haddr, regionOf_page hpage hhi]
  have hread : x.write = false := by rw [hx, read32]
  have hwidth : x.width = some 4 := by
    have hstrb : x.strb = if off % 8 = 4 then 0xF0 else 0x0F := by rw [hx, read32, hmod]
    rw [Access.width, haddr, hmod, hstrb]
    by_cases hhalf : off % 8 = 4
    · simp [hhalf]
    · have hlow : off % 8 = 0 := by omega
      simp [hlow]
  have hadmits : s.admits x = true := by
    have htag : x.priv = true := by rw [hx]; exact hpriv
    simp only [State.admits, hregion, htag, Bool.true_or]
  have hwide : x.widthOk = true := by simp [Access.widthOk, hregion, hwidth, hk]
  have habsent : s.absentWrite x = false := by
    rw [State.absentWrite, hregion, hread]
    cases k <;> rfl
  have hfree : s.refusal x = none := by simp [State.refusal, hregion, habsent, hinit, hadmits, hwide]
  rw [← hx, State.access, State.rdpReady, State.idleExit_of_active hmode]
  simp [hfree, hmode, hwaits, State.perform, hread, hregion, State.pageRead, hwidth, haddr, hmod]

/-! ## Writes of COMPLETE, SW and SW_CLR (R436, R443) -/

/-- A write that nothing refuses, of a register that is no command register, is stored and has its effect; a 1 outside the writable
bits sets RO_WRITE besides (R41). -/
theorem State.regWrite_accepted {r : RegSpec} {v : Word} (hb : s.refuses k inst off r v none = none) (hc : cmdMax k off = 0) :
    s.regWrite page k inst off r v =
      ((if v &&& ~~~r.writable k off ≠ 0 then s.setErr page roWrite else s).regStore page k inst off r v).regAct k inst off
        (s.rd (s.regKey page k off)) v := by
  have hop : ¬(1 ≤ (v.extractLsb' 28 4).toNat ∧ (v.extractLsb' 28 4).toNat ≤ 0 ∧ s.flag (s.regKey page k off) 27 = true) := by
    omega
  simp only [State.regWrite, hb, hc, if_true, if_neg hop]

/-- A row of eight registers of Beacon without RW or RW1C bits: bits that a 1 sets, bits that are only written, or neither. -/
def strobeRow (base : Nat) (w1s wo : Word) : RegSpec := ⟨base, 4, 8, 0, 0, w1s, wo, 0, false, []⟩

/-- The rows of COMPLETE, SW and SW_CLR. -/
theorem spec_complete : ∀ t : BitVec 3, PageKind.bcon.spec (0x60 + 4 * t.toNat) = some (strobeRow 0x60 0 0x3FF) := by decide
theorem spec_sw : ∀ t : BitVec 3, PageKind.bcon.spec (0x2C0 + 4 * t.toNat) = some (strobeRow 0x2C0 0xFFFFFFFF 0) := by decide
theorem spec_swClr : ∀ t : BitVec 3, PageKind.bcon.spec (0x2E0 + 4 * t.toNat) = some (strobeRow 0x2E0 0 0xFFFFFFFF) := by decide

/-- No source masks the bits of a strobe register. -/
theorem writable_strobeRow {base : Nat} (hbase : base ∈ [0x60, 0x2C0, 0x2E0]) (t : BitVec 3) (w1s wo : Word) :
    (strobeRow base w1s wo).writable .bcon (base + 4 * t.toNat) = w1s ||| wo := by
  obtain ⟨henable, hmask⟩ :
      ¬(0x200 ≤ base + 4 * t.toNat ∧ base + 4 * t.toNat < 0x240) ∧ ¬0x400 ≤ base + 4 * t.toNat := by
    simp only [List.mem_cons, List.not_mem_nil, or_false] at hbase
    omega
  simp only [RegSpec.writable, strobeRow, if_neg henable, if_neg hmask, BitVec.ofNat_eq_ofNat, BitVec.zero_or]

/-- A write of a strobe register sets its RW1S bits and has its effect; a 1 on another bit sets RO_WRITE besides. -/
theorem State.access_strobe (h : s.reaches tag pBCON .bcon 0 = true) {base : Nat} (hbase : base ∈ [0x60, 0x2C0, 0x2E0]) {t : BitVec 3}
    {w1s wo : Word} (hrow : PageKind.bcon.spec (base + 4 * t.toNat) = some (strobeRow base w1s wo)) (v : Word) :
    s.access (write32 tag (rBCON (base + 4 * t.toNat)) v) =
      (let u := if v &&& ~~~(w1s ||| wo) ≠ 0 then s.setErr pBCON roWrite else s
       let key := rBCON (base + 4 * t.toNat)
       ((u.wr key (u.rd key ||| (v &&& w1s &&& (w1s ||| wo)))).regAct .bcon 0 (base + 4 * t.toNat) (s.rd key) v).answerRdp 0 0) := by
  obtain ⟨hlo, hhi, h4⟩ :
      0x40 ≤ base + 4 * t.toNat ∧ base + 4 * t.toNat < 0x1000 ∧ (base + 4 * t.toNat) % 4 = 0 := by
    simp only [List.mem_cons, List.not_mem_nil, or_false] at hbase
    omega
  have hfree : s.refuses .bcon 0 (base + 4 * t.toNat) (strobeRow base w1s wo) v none = none := rfl
  rw [rBCON, State.access_register h hlo hhi h4 (by decide) hrow, State.regWrite_accepted hfree rfl, writable_strobeRow hbase]
  simp only [State.regStore, State.regKey, writable_strobeRow hbase, RegSpec.store_of_w1s (r := strobeRow base w1s wo) rfl rfl]
  rfl

/-- A write of a strobe register without RW1S bits stores nothing: it has its effect, and a 1 on a bit that is not writable sets
RO_WRITE besides. -/
theorem State.access_pulse (hs : s.canonical = true) (h : s.reaches tag pBCON .bcon 0 = true) {base : Nat}
    (hbase : base ∈ [0x60, 0x2C0, 0x2E0]) {t : BitVec 3} {wo : Word}
    (hrow : PageKind.bcon.spec (base + 4 * t.toNat) = some (strobeRow base 0 wo)) (v : Word) :
    s.access (write32 tag (rBCON (base + 4 * t.toNat)) v) =
      ((if v &&& ~~~wo ≠ 0 then s.setErr pBCON roWrite else s).regAct .bcon 0 (base + 4 * t.toNat)
        (s.rd (rBCON (base + 4 * t.toNat))) v).answerRdp 0 0 := by
  have hregs := State.canonical_regs hs
  have hwf : Tbl.wf regReset (if v &&& ~~~wo ≠ 0 then s.setErr pBCON roWrite else s).regs = true := by
    split
    · exact State.regs_setBit hregs ..
    · exact hregs
  rw [State.access_strobe h hbase hrow]
  simp only [BitVec.ofNat_eq_ofNat, BitVec.zero_or, BitVec.and_zero, BitVec.zero_and, BitVec.or_zero] at hwf ⊢
  rw [State.wr_rd hwf]

/-- What a write of COMPLETE does: the completion of its number; a 1 above the field sets RO_WRITE besides. -/
theorem State.access_complete (hs : s.canonical = true) (h : s.reaches tag pBCON .bcon 0 = true) (t : BitVec 3) (v : Word) :
    s.access (write32 tag (rBCON (0x60 + 4 * t.toNat)) v) =
      ((if v &&& ~~~0x3FF#32 ≠ 0 then s.setErr pBCON roWrite else s).completeWrite t.toNat v.toNat).answerRdp 0 0 := by
  have hoff : 0x60 ≤ 0x60 + 4 * t.toNat ∧ 0x60 + 4 * t.toNat < 0x80 := by omega
  have ht : (0x60 + 4 * t.toNat - 0x60) / 4 = t.toNat := by omega
  rw [State.access_pulse hs h (by decide) (spec_complete t)]
  simp only [State.regAct, if_pos hoff, ht]
  rfl

/-- SW_SET sets the bits of its word. -/
theorem answers_swSet (h : s.reaches tag pBCON .bcon 0 = true) (t : BitVec 3) (v : Word) :
    Answers (.swSet tag t v) s (s.wr (rBCON (0x2C0 + 4 * t.toNat)) (s.rd (rBCON (0x2C0 + 4 * t.toNat)) ||| v)) := by
  have hcomplete : ¬(0x60 ≤ 0x2C0 + 4 * t.toNat ∧ 0x2C0 + 4 * t.toNat < 0x80) := by omega
  have hclear : ¬(0x2E0 ≤ 0x2C0 + 4 * t.toNat ∧ 0x2C0 + 4 * t.toNat < 0x300) := by omega
  have hall : (0xFFFFFFFF : Word) = BitVec.allOnes 32 := by decide
  have haccess := State.access_strobe h (by decide) (spec_sw t) v
  simp only [State.regAct, if_neg hcomplete, if_neg hclear, hall, BitVec.ofNat_eq_ofNat, BitVec.or_zero, BitVec.not_allOnes,
    BitVec.and_zero, BitVec.and_allOnes, ne_eq, not_true_eq_false, if_false] at haccess
  exact congrArg Host.Outcome.next haccess

/-- SW_CLEAR clears the bits of its word. -/
theorem answers_swClear (hs : s.canonical = true) (h : s.reaches tag pBCON .bcon 0 = true) (t : BitVec 3) (v : Word) :
    Answers (.swClear tag t v) s (s.wr (rBCON (0x2C0 + 4 * t.toNat)) (s.rd (rBCON (0x2C0 + 4 * t.toNat)) &&& ~~~v)) := by
  have hcomplete : ¬(0x60 ≤ 0x2E0 + 4 * t.toNat ∧ 0x2E0 + 4 * t.toNat < 0x80) := by omega
  have hclear : 0x2E0 ≤ 0x2E0 + 4 * t.toNat ∧ 0x2E0 + 4 * t.toNat < 0x300 := by omega
  have ht : (0x2E0 + 4 * t.toNat - 0x2E0) / 4 = t.toNat := by omega
  have hall : (0xFFFFFFFF : Word) = BitVec.allOnes 32 := by decide
  have haccess := State.access_pulse hs h (by decide) (spec_swClr t) v
  simp only [State.regAct, if_neg hcomplete, if_pos hclear, ht, hall, BitVec.ofNat_eq_ofNat, BitVec.not_allOnes, BitVec.and_zero,
    ne_eq, not_true_eq_false, if_false] at haccess
  exact congrArg Host.Outcome.next haccess

/-! ## Completions (R436, R437) -/

section
variable {t n : Nat}

/-- The completion of the held source frees it; without a hold-off, that is all. -/
theorem State.completeWrite_held (h : s.holds t = some n) (h0 : s.num (rBCON (0x100 + 4 * (n / 16))) 0 16 = 0) :
    s.completeWrite t n = { s with bcon := { s.bcon with claims := Tbl.set (fun _ => none) s.bcon.claims t none } } := by
  rw [State.completeWrite, if_pos h]
  exact if_pos h0

/-- The completion of the held source starts the hold-off of its group, to the next tick of device time (R437). -/
theorem State.completeWrite_holdoff (h : s.holds t = some n) (h0 : s.num (rBCON (0x100 + 4 * (n / 16))) 0 16 ≠ 0) :
    s.completeWrite t n =
      { s with bcon := { s.bcon with
          claims := Tbl.set (fun _ => none) s.bcon.claims t none
          hold := Tbl.set (fun _ => 0) s.bcon.hold (n / 16)
            (BitVec.ofNat 64 ((s.time.toNat + s.num (rBCON (0x100 + 4 * (n / 16))) 0 16 * 64 + 63) / 64 * 64)) } } := by
  rw [State.completeWrite, if_pos h]
  exact if_neg h0

/-- The completion of any other number is counted and reported as BADCOMP. -/
theorem State.completeWrite_other (h : s.holds t ≠ some n) : s.completeWrite t n = (s.bump (rBCON 0xC4)).setErr pBCON 16 := by
  rw [State.completeWrite, if_neg h]

end

/-- COMPLETE completes its source; the field takes all its bits. -/
theorem answers_complete (hs : s.canonical = true) (h : s.reaches tag pBCON .bcon 0 = true) (t : BitVec 3) (n : BitVec 10) :
    Answers (.complete tag t n) s (s.completeWrite t.toNat n.toNat) := by
  have hfield : n.setWidth 32 &&& ~~~0x3FF#32 = 0 :=
    and_not_of_and_eq (and_mask_of_lt (n := 10) (by decide) (by rw [BitVec.toNat_setWidth_of_le (by decide)]; exact n.isLt))
  have haccess := State.access_complete hs h t (n.setWidth 32)
  rw [if_neg (not_not_intro hfield), BitVec.toNat_setWidth_of_le (by decide)] at haccess
  exact congrArg Host.Outcome.next haccess

/-- A number above the field sets RO_WRITE and completes nothing. -/
theorem answers_complete_beyond (hs : s.canonical = true) (h : s.reaches tag pBCON .bcon 0 = true) (t : BitVec 3) {v : Word}
    (hv : 0x400 ≤ v.toNat) (hheld : ∀ n, s.holds t.toNat = some n → n < 512) :
    let a := write32 tag (rBCON (0x60 + 4 * t.toNat)) v
    Answers (.registerWrite a.tag a.addr a.strb a.data) s (((s.setErr pBCON 2).bump (rBCON 0xC4)).setErr pBCON 16) := by
  have hbeyond : v &&& ~~~0x3FF#32 ≠ 0 := fun hzero => by
    have hle : v.toNat ≤ 0x3FF := toNat_le_of_and_not hzero
    omega
  have hother : (s.setErr pBCON roWrite).holds t.toNat ≠ some v.toNat := fun heq => by
    have hlt := hheld _ heq
    omega
  have haccess := State.access_complete hs h t v
  rw [if_pos hbeyond, State.completeWrite_other hother] at haccess
  refine congrArg Host.Outcome.next (Eq.trans (congrArg s.access ?_) haccess)
  unfold write32
  split <;> rfl

/-! ## Claims (R434) -/

/-- The word of SW that holds the bit of software source `n` (R443). -/
def swWord (n : Nat) : Nat := rBCON (0x2C0 + 4 * ((n - 256) / 32))

/-- The bit of a software source, in its word. -/
theorem State.swBit_eq (s : State) (n : Nat) : s.swBit n = s.flag (swWord n) ((n - 256) % 32) := rfl

/-- CLAIMS lies apart from the words of SW. -/
theorem claims_ne_swWord (n : Nat) : rBCON 0xC8 ≠ swWord n := by
  unfold swWord rBCON pageAddr
  omega

/-- Each software source has a bit of its own. -/
theorem swWord_inj {m n : Nat} (hm : 256 ≤ m) (hn : 256 ≤ n) :
    swWord m = swWord n ∧ (m - 256) % 32 = (n - 256) % 32 ↔ m = n := by
  unfold swWord rBCON pageAddr
  omega

/-- The state in which target `t` has claimed source `n`. -/
def State.claimed (s : State) (t n : Nat) : State :=
  let u := { s with bcon := { s.bcon with claims := Tbl.set (fun _ => none) s.bcon.claims t (some n) } }
  (if 256 ≤ n then u.setBit (swWord n) ((n - 256) % 32) false else u).bump (rBCON 0xC8)

/-- A claim of the lowest-numbered source presented. -/
theorem State.claimRead_presented {t n : Nat} (hn : n < 512) (hp : s.presented t n = true)
    (hlow : ∀ m, m < n → s.presented t m = false) : s.claimRead t = (s.claimed t n, n) := by
  have htop : s.topSource t = some n := by
    rw [State.topSource, List.find?_range_eq_some, List.mem_range]
    exact ⟨hp, hn, fun m hm => by rw [hlow m hm]; rfl⟩
  unfold State.claimRead
  rw [htop]
  rfl

/-- A claim with no source presented is spurious. -/
theorem State.claimRead_none {t : Nat} (h : ∀ n, n < 512 → s.presented t n = false) :
    s.claimRead t = (s.bump (rBCON 0xC0), 0x3FF) := by
  have htop : s.topSource t = none := by
    rw [State.topSource, List.find?_range_eq_none]
    exact fun n hn => by rw [h n hn]; rfl
  unfold State.claimRead
  rw [htop]

/-- CLAIM is the read of its register: of a page that is enabled it claims, otherwise it reads 0x3FF alone (R434, R632). -/
theorem exec_claim (h : s.reaches tag pBCON .bcon 0 = true) (t : BitVec 3) :
    exec (.claim tag t) s = .next
      (let r := if s.pageEn pBCON = true then ((s.claimRead t.toNat).1, BitVec.ofNat 32 (s.claimRead t.toNat).2) else (s, 0x3FF#32)
       r.1.answerRdp (if t.toNat % 2 = 1 then r.2 ++ 0#32 else 0#32 ++ r.2) 0) := by
  obtain ⟨-, -, -, -, -, hon, hbusy, -⟩ := State.reaches_iff.mp h
  have hoff : 0x40 ≤ 0x40 + 4 * t.toNat ∧ 0x40 + 4 * t.toNat < 0x60 := by omega
  have ht : (0x40 + 4 * t.toNat - 0x40) / 4 = t.toNat := by omega
  have hhalf : (0x40 + 4 * t.toNat) % 8 = 4 ↔ t.toNat % 2 = 1 := by omega
  have hread : s.wordReadAt pBCON .bcon 0 (0x40 + 4 * t.toNat) =
      if s.pageEn pBCON = true then ((s.claimRead t.toNat).1, BitVec.ofNat 32 (s.claimRead t.toNat).2) else (s, 0x3FF#32) := by
    unfold State.wordReadAt State.claimAccess
    rw [if_pos ⟨rfl, hoff⟩, ht, hbusy, hon]
    cases s.pageEn pBCON <;> simp
  refine congrArg Host.Outcome.next ?_
  rw [rBCON, State.access_read32 h (by omega) (by omega) (by decide), hread]
  simp only [hhalf]

section
variable {t n : Nat}

/-- The target holds what it has claimed, and the other targets what they held. -/
theorem State.holds_claimed (j : Nat) : (s.claimed t n).holds j = if j = t then some n else s.holds j := by
  have hclaims : (s.claimed t n).bcon.claims = Tbl.insert s.bcon.claims t (some n) := by
    unfold State.claimed
    split <;> rfl
  rw [State.holds, hclaims, Tbl.get_insert]
  rfl

/-- What a claim leaves: all but the claims and the registers. -/
theorem State.rdp_claimed : (s.claimed t n).rdp = s.rdp := by
  unfold State.claimed
  split <;> rfl
theorem State.frame_claimed :
    { s.claimed t n with rdp := s.rdp, bcon := { (s.claimed t n).bcon with claims := s.bcon.claims }, regs := s.regs } = s := by
  unfold State.claimed
  split <;> rfl

/-- The registers after a claim: it is counted, and a software source's own bit is cleared (R432). -/
theorem State.rd_claimed_level (hn : n < 256) (key : Nat) : (s.claimed t n).rd key = (s.bump (rBCON 0xC8)).rd key := by
  rw [State.claimed, if_neg (Nat.not_le.mpr hn)]
  rfl
theorem State.rd_claimed_software (hn : 256 ≤ n) (key : Nat) :
    (s.claimed t n).rd key = ((s.setBit (swWord n) ((n - 256) % 32) false).bump (rBCON 0xC8)).rd key := by
  rw [State.claimed, if_pos hn]
  rfl

/-- A claim is counted. -/
theorem State.rd_claimed_count (hs : s.canonical = true) : (s.claimed t n).rd (rBCON 0xC8) = satAdd (s.rd (rBCON 0xC8)) 1 := by
  have hregs := State.canonical_regs hs
  rcases Nat.lt_or_ge n 256 with hn | hn
  · rw [State.rd_claimed_level hn, State.rd_bump hregs, if_pos rfl]
  · rw [State.rd_claimed_software hn, State.rd_bump (State.regs_setBit hregs ..), if_pos rfl, State.setBit,
      State.rd_setF_of_ne hs (claims_ne_swWord n)]

/-- The claim of a level source changes no other register. -/
theorem State.regsBut_claimed (hs : s.canonical = true) (hn : n < 256) : RegsBut s (s.claimed t n) [rBCON 0xC8] := by
  intro key hkey
  rw [State.rd_claimed_level hn, State.rd_bump (State.canonical_regs hs), if_neg (by simpa using hkey)]

/-- The claim of a software source clears its bit and no other source's. -/
theorem State.swBit_claimed (hs : s.canonical = true) (hn : 256 ≤ n) {m : Nat} (hm : 256 ≤ m) :
    (s.claimed t n).swBit m = if m = n then false else s.swBit m := by
  have hregs := State.canonical_regs hs
  have hword := State.rd_claimed_software (s := s) (t := t) hn (swWord m)
  rw [State.rd_bump (State.regs_setBit hregs ..), if_neg (claims_ne_swWord m).symm] at hword
  have hbit : (s.setBit (swWord n) ((n - 256) % 32) false).swBit m = if m = n then false else s.swBit m := by
    simp only [State.swBit_eq, State.flag_setBit hregs (Nat.mod_lt (m - 256) (by decide)), swWord_inj hm hn]
  exact (congrArg (·.getLsbD ((m - 256) % 32)) hword).trans hbit

end

/-! ## Level sources and the end of a hold-off (R432, R437, R439) -/

/-- Beacon sees a level source follow its condition. -/
theorem exec_sourceAssert {n : BitVec 9} {level : Bool} (hmode : s.pwr.mode = .active) (hpower : s.powered 1 = true)
    (hn : srcAssigned n.toNat = true) (hlevel : n.toNat < 256) (hcond : s.srcCond n.toNat = level) :
    exec (.sourceAssert n level) s =
      .next { s with bcon := { s.bcon with seen := Tbl.set (fun _ => false) s.bcon.seen n.toNat level } } := by
  change execSourceAssert n level s = _
  unfold execSourceAssert
  rw [if_pos ⟨hn, hlevel, hcond, hpower⟩, State.idleExit_of_active hmode, ite_self]

/-- The hold-off of a group ends once device time has reached its expiry. -/
theorem exec_holdoffExpire {g : BitVec 5} (hruns : Tbl.get (fun _ => 0#64) s.bcon.hold g.toNat ≠ 0)
    (hreached : Tbl.get (fun _ => 0#64) s.bcon.hold g.toNat ≤ s.time) :
    exec (.holdoffExpire g) s = .next { s with bcon := { s.bcon with hold := Tbl.set (fun _ => 0) s.bcon.hold g.toNat 0 } } :=
  if_pos ⟨decide_eq_true hruns, hreached⟩

/-- Before its expiry the hold-off goes on. -/
theorem exec_holdoffExpire_early {g : BitVec 5} (hearly : s.time < Tbl.get (fun _ => 0#64) s.bcon.hold g.toNat) :
    exec (.holdoffExpire g) s = .next s :=
  if_neg fun ⟨_, hreached⟩ => BitVec.not_lt.mpr hreached hearly

/-- Settles O34: claims, completions, software sources, level sources and hold-offs, each by its own lemma. -/
theorem beacon : Obligations.Beacon := by
  intro s tag t hs
  refine ⟨fun hr => ⟨fun hon hnone => ?_, fun hoff => ?_, fun n hn hon hp hlow => ?_, fun n hheld _ => ?_, fun n hother => ?_,
      fun v hv hheld => answers_complete_beyond hs hr t hv hheld, fun v => ⟨answers_swSet hr t v, answers_swClear hs hr t v⟩⟩,
    fun n level hmode hpower hn hlevel hcond => exec_sourceAssert hmode hpower hn hlevel hcond,
    fun g => exec_holdoffExpire, fun g => exec_holdoffExpire_early⟩
  · rw [exec_claim hr, if_pos hon, State.claimRead_none hnone]
    rfl
  · rw [exec_claim hr, hoff]
    rfl
  · rw [exec_claim hr, if_pos hon, State.claimRead_presented hn hp hlow]
    refine ⟨_, rfl, ?_, (State.holds_claimed _).trans (if_pos rfl), fun j hj => (State.holds_claimed j).trans (if_neg hj),
      State.rd_claimed_count hs, State.regsBut_claimed hs, fun hsw => ⟨?_, fun m hm _ hne => ?_⟩, ?_⟩
    · rw [← State.rdp_claimed (s := s) (t := t.toNat) (n := n)]
      rfl
    · exact (State.swBit_claimed hs hsw hsw).trans (if_pos rfl)
    · exact (State.swBit_claimed hs hsw hm).trans (if_neg hne)
    · exact State.frame_claimed (s := s) (t := t.toNat) (n := n)
  · have hanswer := answers_complete hs hr t n
    refine ⟨fun h0 => ?_, fun h0 => ?_⟩
    · rwa [State.completeWrite_held hheld h0] at hanswer
    · rwa [State.completeWrite_holdoff hheld h0] at hanswer
  · exact State.completeWrite_other hother ▸ answers_complete hs hr t n

end Sys2Proof.Machine
end
